-- ==== Sys2Proof/Word.lean ====
section
/-! DEFINITION. The words the manual computes with: 64-bit register and header words, bytes, the sparse tables
(lists of key and value in one canonical form) that hold every addressed store of the device, and the frames. -/

namespace Sys2Proof

/-- A register, header or payload word: 64 bits (R6, R429). -/
abbrev Word := BitVec 64

/-- A byte of a frame, a message or a file. -/
abbrev Byte := BitVec 8

/-- A sparse table: keys strictly rising; an absent key reads as the table's default. -/
abbrev SMap (α : Type) := List (Nat × α)

/-- A Keaxaxis frame without its trailer: header words W0 to W3 and the payload (R41, R43). The trailer is the
CRC-32C of these bytes (R42) and is made where the frame leaves. -/
structure Frame where
  w0 : Word
  w1 : Word
  w2 : Word
  w3 : Word
  payload : List Byte
  deriving DecidableEq, Repr

end Sys2Proof
end

