-- ==== Sys2Proof/Config.lean ====
section
/-! DEFINITION. What the manual leaves open and the model keeps free: opaque constants, so no proof can see a value.
Each is named in the assumption log. -/

namespace Sys2Proof.Config

/-- The cell pipeline that writes a frame (R68 names no rule for it); applied to the free-value counter.
(DESIGN CHOICE, log 4; DESIGN CHOICE, log 7) -/
opaque pipeline : Nat → Fin 64

/-- Whether the next frame of a VOQ has reached stage 6 by the end of a write, where no operand says it (R23); applied to the
free-value counter. (DESIGN CHOICE, log 159) -/
opaque packs : Nat → Bool

/-- The next state of a die's 32-bit RED LFSR (R102 gives neither taps nor order); applied to the present state.
(DESIGN CHOICE, log 6) -/
opaque redLfsrNext : BitVec 32 → BitVec 32

/-- The 16 bits that RED takes from its LFSR (R102); applied to the LFSR's state. (DESIGN CHOICE, log 6) -/
opaque redLfsr16 : BitVec 32 → BitVec 16

/-- Flow label of a frame that the device originates (R66 states none); applied to the free-value counter.
(DESIGN CHOICE, log 4; DESIGN CHOICE, log 8) -/
opaque originFlow : Nat → BitVec 18

/-- Message sequence of a frame that the device originates, other than a crozier replica or acknowledgement.
(DESIGN CHOICE, log 4; DESIGN CHOICE, log 8) -/
opaque originSeq : Nat → BitVec 32

/-- Destination logical rank of a frame that the device originates. (DESIGN CHOICE, log 4; DESIGN CHOICE, log 8) -/
opaque originRank : Nat → BitVec 20

/-- W3 of a frame that the device originates with a type that gives W3 no layout (R44).
(DESIGN CHOICE, log 4; DESIGN CHOICE, log 8) -/
opaque originW3 : Nat → BitVec 64

/-- Job step in the release of a barrier that timed out (R198 states none); applied to the free-value counter.
(DESIGN CHOICE, log 9) -/
opaque releaseStep : Nat → BitVec 14

/-- Member and weight in a barrier release (Table 7.7 gives them a meaning in an arrival only): the member in the low 10
bits, the weight above; applied to the free-value counter. (DESIGN CHOICE, log 9) -/
opaque releaseMark : Nat → BitVec 21

/-- The sequence that a requesting engine chooses for a substitution negotiation (Table 9.4).
(DESIGN CHOICE, log 17) -/
opaque subSeq : Nat → BitVec 8

/-- Whether a quotient that the manual does not say how to round is rounded up; applied to the free-value counter.
(DESIGN CHOICE, log 12) -/
opaque roundUp : Nat → Bool

/-- Whether a transmitter coefficient is at its limit (Table 11.7 gives no limit); applied to the lane, the request and
the steps from the preset. (DESIGN CHOICE, log 13) -/
opaque coefAtLimit : Nat → Nat → Int → Bool

/-- Whether the bias cells take the dark state that a teardown commits (R256; Table 10.7 code 2); applied to the free-value
counter. (DESIGN CHOICE, log 167) -/
opaque biasTakes : Nat → Bool

/-- The SHA-384 of Liasto's public keys (Table 15.1 gives none): 0 firmware RSA, 1 firmware SLH-DSA, 2 and 3 calibration.
(DESIGN CHOICE, log 201) -/
opaque liastoKey : Nat → BitVec 384

/-- The RSA identity key of the part: its modulus. (DESIGN CHOICE, log 201) -/
opaque identityModulus : Nat

/-- The RSA identity key of the part: its private exponent. (DESIGN CHOICE, log 201) -/
opaque identityExponent : Nat

/-- The SLH-DSA identity key of the part: secret seed, randomizer key, public seed. (DESIGN CHOICE, log 201) -/
opaque identitySeed : Nat → BitVec 192

/-- The bytes of the firmware file that the part leaves the factory with. (DESIGN CHOICE, log 201) -/
opaque factoryFirmware : List (BitVec 8)

/-- SSPRQ of IEEE 802.3 Clause 120 (R290), which the manual takes from that clause: the symbol value at a position.
(DESIGN CHOICE, log 202) -/
opaque pattern : Nat → Fin 4

/-- The position at which a checker takes 64 received symbols to lie in SSPRQ; applied to the symbols.
(DESIGN CHOICE, log 202) -/
opaque patternPhase : List Nat → Nat

/-- Where in its pattern a pseudo-random generator begins; applied to the free-value counter.
(DESIGN CHOICE, log 202) -/
opaque patternStart : Nat → Nat

/-- Where a FEC injection begins in codeword 0 (R291 does not say); applied to the free-value counter.
(DESIGN CHOICE, log 170) -/
opaque injectAt : Nat → Nat

/-- The values less 1 that a FEC injection adds, by symbol (R291 does not say); applied to the free-value counter.
(DESIGN CHOICE, log 170) -/
opaque injectBy : Nat → Nat → Fin 1023

/-- The content of an idle segment (R267 gives none); applied to the free-value counter. (DESIGN CHOICE, log 169) -/
opaque idleFill : Nat → List (BitVec 8)

/-- One less than the symbols from a training word to block 0 (Table 11.7 start); applied to the free-value counter.
(DEDUCED, log 171) -/
opaque startCount : Nat → BitVec 31

/-- The rate the UCIe site negotiates: 0 8 GT/s, 1 16 GT/s, 2 32 GT/s (R303: the highest both sides support).
(DESIGN CHOICE, log 14) -/
opaque ucieRate : Nat → Fin 3

/-- The data lanes that the UCIe site repairs in a training (R302). (DESIGN CHOICE, log 14) -/
opaque ucieRepaired : Nat → Fin 8

/-- The wires beyond the fuse record that show an error when a register write retrains a bundle (R299); applied to the
free-value counter and the bundle. (DESIGN CHOICE, log 15) -/
opaque wiresFound : Nat → Nat → List (Fin 264)

/-- VDD_CORE_IN in mV, the lower of the two monitors, when no command tells its reading (R332); applied to the tick.
(DESIGN CHOICE, log 11) -/
opaque railMv : Nat → BitVec 14

/-- The GDDR7 channel that holds a position of the backing table, and the one that holds a spilled chunk (R329 gives no map of
GDDR7); the second applied to the chunk's die, descriptor, number and step. (DESIGN CHOICE, log 97) -/
opaque backChannel : Nat → Fin 16
opaque spillChannel : Nat → Nat → Nat → Nat → Fin 16

/-- The bits in which a word of a flight-recorder record differs from what was written, after an uncorrectable error that R415 injects
(no rule of the recorder speaks of one); applied to the entry and the word. (DESIGN CHOICE, log 181) -/
opaque flightError : Nat → Nat → BitVec 64

/-- The bits in which a byte of a staged file differs from what was received, after an uncorrectable error that R415 injects; applied
to the free-value counter and the byte's place. (DESIGN CHOICE, log 181) -/
opaque stagedError : Nat → Nat → BitVec 8

/-- The code that 4 bytes give as an element of min or max where an undetected error left no value of the format in them (R158 names
only values of the format); applied to the format and the bytes. (DESIGN CHOICE, log 188) -/
opaque pickedCode : Nat → Nat → BitVec 32

/-- MGT_CART_STAT of a peer's site that this controller has not checked itself (R364 gives the status message no part code and no loss);
applied to the position and site. (DESIGN CHOICE, log 197) -/
opaque cartStat : Nat → BitVec 64

/-- HUB_PWR_EST: the power estimate of a millisecond (R332: within 5% of a power no rule of a step gives).
(DESIGN CHOICE, log 11) -/
opaque powerEst : Nat → BitVec 64

/-- SHA-384 of the hub's boot ROM, which M0 is first extended with (Table 15.3). (DESIGN CHOICE, log 16) -/
opaque bootRom : BitVec 384

/-- The value that M0 is extended with for the fused key digests and the rollback value, whose layout Table 15.3 does not
give; applied to the digests' bytes and the value. (DESIGN CHOICE, log 16) -/
opaque fusedKeys : List (BitVec 8) → Nat → List (BitVec 8)

/-- SHA-384 digest of a section of the calibration store, whose layout the manual does not give; applied to its values.
(DESIGN CHOICE, log 16) -/
opaque sectionDigest : List Nat → BitVec 384

/-- The byte that M3 takes for the user flags of every section (Table 15.3); applied to the flags.
(DESIGN CHOICE, log 16) -/
opaque userFlags : List Bool → BitVec 8

end Sys2Proof.Config
end

