-- ==== Sys2Proof/Machine/RegMap.lean ====
section
/-! DEFINITION. The register map: every register of the manual's register tables with its fields, access codes
and classes (R8, R9, R13), its place in the register space (Table 19.1 and the block maps) and its reset value
(R12). A field whose reset is "image", "fuse" or "strap" has here the value its Description gives before that
load, 0 everywhere in the manual. -/

namespace Sys2Proof.Machine

/-- Block regions of Table 19.1 (RED holds SYNC and the lichen registers; UCIE is the UCIe site). -/
inductive Block where
  | HUB | UCIE | MGT | SEC | TIME | MEM | FWD | SWC | TM | RED | LANE | D2D | CNT | OE | BYP
  deriving DecidableEq, Repr

/-- Access codes of Table 0.3. -/
inductive Access where
  | RO | RW | RW1C | WO | RWS
  deriving DecidableEq, Repr

/-- Configuration field classes of R13; `none` marks a read-only field. -/
inductive FieldClass where
  | none | LIVE | QUIESCE | IMAGE
  deriving DecidableEq, Repr

/-- One row of a register table: bits [hi:lo], access code and class. -/
structure FieldSpec where
  hi : Nat
  lo : Nat
  acc : Access
  cls : FieldClass
  deriving DecidableEq, Repr

/-- Every register of the manual, in block order; the `VM_` names are memories behind a data window
(`VM_MC`: multicast table words, Table 3.2; `VM_DESC`: descriptor words, Table 7.1). -/
inductive Reg where
  | HUB_ID | HUB_BOOT_STAT | HUB_DIE_CTRL | HUB_ADMIT | HUB_ERR_FIRST | HUB_ERR_NEXT | HUB_ERR_COUNT
  | HUB_STRAP | HUB_PWR_STAT | HUB_PWR_EST | HUB_THERM_STAT | HUB_AVS_CTRL | HUB_AVS_STAT | HUB_PWR_EVT_CNT
  | HUB_PWR_EVT_CLR | HUB_ERING_STAT | HUB_ERING_SEL | HUB_ERING_DATA | HUB_FATAL_STAT | HUB_INJ_CTRL
  | HUB_INJ_STAT | HUB_GUARD | HUB_UCIE_STAT | HUB_UCIE_CTRL | HUB_UCIE_MEAS | MGT_ERR_FIRST | MGT_ERR_NEXT
  | MGT_ERR_COUNT | MGT_MAC | MGT_BOOT_CNT | MGT_AUTH_CFG | MGT_NET_CFG | MGT_NET_GW | MGT_PORT_STAT
  | MGT_REQ_STAT | MGT_EVT_DEST | MGT_EVT_STAT | MGT_FILE_STAT | MGT_IMG_STAT | MGT_IMG_DIG | MGT_BLK_CTRL
  | MGT_BLK_STAT | MGT_STAGE_STAT | MGT_CART_STAT | MGT_DROP_CNT | MGT_DROP_CLR | SEC_ERR_FIRST
  | SEC_ERR_NEXT | SEC_ERR_COUNT | SEC_STAT | SEC_ROLLBACK | SEC_OWNER_DATA | SEC_OWNER_CMD | SEC_KEY_CMD
  | SEC_KEY_DATA | SEC_NONCE | SEC_QUOTE_CMD | SEC_QUOTE_DATA | SEC_CERT_SEL | SEC_CERT_DATA | SEC_MEAS
  | TIME_ERR_FIRST | TIME_ERR_NEXT | TIME_ERR_COUNT | TIME_NOW | TIME_INC | TIME_ADJ | TIME_CTRL
  | TIME_SRC_CFG | TIME_STAT | TIME_CAP_SEL | TIME_CAP_DATA | TIME_EVT_CNT | TIME_EVT_CLR | MEM_FR_CTRL
  | MEM_FR_STAT | MEM_FR_SEL | MEM_FR_DATA | FWD_ERR_FIRST | FWD_ERR_NEXT | FWD_ERR_COUNT | FWD_DEV_DFID
  | FWD_EPOCH | FWD_AGE_CFG | FWD_FILTER_CFG | FWD_SEED | FWD_RT_GEOM | FWD_BLK_CFG | FWD_PORT_CFG
  | FWD_PORT_MASK | FWD_CMD | FWD_KEY | FWD_RES | FWD_CURSOR | FWD_MISS_STAT | FWD_LRN_STAT | FWD_FENCE
  | FWD_DROP_CNT | FWD_DROP_CLR | FWD_EVT_CNT | FWD_EVT_CLR | SWC_FREE_STAT | SWC_ERR_FIRST | SWC_ERR_NEXT
  | SWC_ERR_COUNT | SWC_STAGE_STAT | SWC_HASH_SEED | SWC_AUDIT_CTRL | SWC_AUDIT_STAT | SWC_AUDIT_RECLAIM
  | SWC_AUDIT_LEAK | SWC_POOL_CFG | SWC_POOL_STAT | SWC_REQ_CFG | SWC_REQ_STAT | SWC_MC_REGION | SWC_MC_SEL
  | SWC_MC_DATA | SWC_MC_CMD | SWC_BND_SEL | SWC_BND_INFO | SWC_BND_LIVE | SWC_BND_ADMIN | SWC_BND_CMD
  | SWC_DROP_CNT | SWC_DROP_CLR | TM_ERR_FIRST | TM_ERR_NEXT | TM_ERR_COUNT | TM_RED_SEED | TM_SAMP_CTRL
  | TM_SAT_CFG | TM_SAT_STAT | TM_MAP_SEL | TM_MAP_DATA | TM_MTR_SEL | TM_MTR_CFG | TM_MTR_BURST | TM_QSEL
  | TM_Q_CFG | TM_Q_STAT | TM_SAMP_DATA | TM_RED_PROF | TM_SHP_SEL | TM_SHP_CFG | TM_PORT_SEL | TM_SCH_CFG
  | TM_ADM_CFG | TM_ADM_STAT | TM_CRD_CFG | TM_CRD_STAT | TM_DROP_CNT | TM_DROP_CLR | TM_ECN_CNT
  | TM_ADM_WAIT_CNT | RED_ERR_FIRST | RED_ERR_NEXT | RED_ERR_COUNT | RED_CAPS | RED_CELL_SEL | RED_CELL_CFG
  | RED_CELL_STAT | RED_KAT_CTRL | RED_KAT_STAT | RED_ARRAY_STAT | RED_EVT_CNT | RED_EVT_CLR | SYNC_ERR_FIRST
  | SYNC_ERR_NEXT | SYNC_ERR_COUNT | SYNC_REC_STAT | SYNC_SPILL_CFG | SYNC_SPILL_AREA | SYNC_SPILL_STAT
  | SYNC_HOME_SEL | SYNC_HOME_DATA | SYNC_DESC_SEL | SYNC_DESC_DATA | SYNC_DESC_CMD | SYNC_DESC_STAT
  | SYNC_DESC_EXCL | SYNC_BLK_CFG | SYNC_BLK_STAT | SYNC_WATCH | SYNC_HIST_SEL | SYNC_HIST_DATA
  | SYNC_BAR_SEL | SYNC_BAR_CFG | SYNC_BAR_TGT | SYNC_BAR_STAT | SYNC_CRZ_SEL | SYNC_CRZ_DATA | SYNC_CRZ_STAT
  | SYNC_DROP_CNT | SYNC_DROP_CLR | SYNC_EVT_CNT | SYNC_EVT_CLR | RED_LCH_CFG | RED_LCH_BLOCKS | RED_LCH_CNT
  | RED_LCH_CLR | RED_LCH_LAST | RED_LCH_DIG | RED_LCH_PEND | LANE_ERR_FIRST | LANE_ERR_NEXT | LANE_ERR_COUNT
  | LANE_HB_CFG | LANE_FEC_HSEL | LANE_FEC_HDATA | LANE_CFG | LANE_STAT | LANE_PAT | LANE_PAT_STAT | LANE_INJ
  | LANE_FEC_CNT | LANE_TS_CORR | LANE_PORT_CTRL | LANE_PORT_STAT | LANE_RETRY | LANE_HB_STAT | LANE_EVT_CNT
  | LANE_EVT_CLR | LANE_LIVE | D2D_ERR_FIRST | D2D_ERR_NEXT | D2D_ERR_COUNT | D2D_STAT | D2D_CTRL
  | D2D_DROP_CNT | D2D_BND_STAT | D2D_EVT_CNT | D2D_EVT_CLR | CNT_TICK | CNT_CTRL | CNT_SEL | CNT_VAL
  | CNT_EP_STAT | CNT_EP_TICK | CNT_EP_VAL | OE_ERR_FIRST | OE_ERR_NEXT | OE_ERR_COUNT | OE_ID | OE_STATE
  | OE_CMD | OE_SUB_STAT | OE_THERM | OE_FEED_PWR | OE_REF | OE_TXF_PWR | OE_TUNE | OE_CAL_CMD | OE_CAL_STAT
  | OE_EVT_CNT | OE_EVT_CLR | BYP_ERR_FIRST | BYP_ERR_NEXT | BYP_ERR_COUNT | BYP_ID | BYP_CFG | BYP_CMD
  | BYP_CMD_OUT | BYP_THERM | BYP_IN | BYP_OUT | BYP_CAL_CMD | BYP_CAL_STAT | BYP_EVT_CNT | BYP_EVT_CLR
  | VM_MC | VM_DESC
  deriving DecidableEq, Repr

/-- A named field of a register. -/
structure Fld where
  reg : Reg
  hi : Nat
  lo : Nat
  deriving DecidableEq, Repr

/-- Register tables of the HUB block. -/
def layoutHUB : Reg → List FieldSpec
  | .HUB_ID => [⟨63, 60, .RO, .none⟩, ⟨47, 0, .RO, .none⟩]
  | .HUB_BOOT_STAT => [⟨63, 63, .RO, .none⟩, ⟨62, 62, .RO, .none⟩, ⟨61, 58, .RO, .none⟩, ⟨57, 55, .RWS, .LIVE⟩,
      ⟨15, 0, .RO, .none⟩]
  | .HUB_DIE_CTRL => [⟨63, 63, .RO, .none⟩, ⟨62, 61, .RO, .none⟩, ⟨31, 16, .WO, .LIVE⟩, ⟨7, 3, .RW, .LIVE⟩,
      ⟨2, 0, .WO, .LIVE⟩]
  | .HUB_ADMIT => [⟨63, 0, .RW, .LIVE⟩]
  | .HUB_ERR_FIRST => [⟨63, 63, .RWS, .LIVE⟩, ⟨55, 48, .RWS, .LIVE⟩, ⟨4, 0, .RWS, .LIVE⟩]
  | .HUB_ERR_NEXT => [⟨9, 1, .RWS, .LIVE⟩]
  | .HUB_ERR_COUNT => [⟨31, 0, .RWS, .LIVE⟩]
  | .HUB_STRAP => [⟨63, 61, .RO, .none⟩, ⟨60, 60, .RO, .none⟩, ⟨59, 59, .RO, .none⟩, ⟨15, 0, .RO, .none⟩]
  | .HUB_PWR_STAT => [⟨63, 61, .RO, .none⟩, ⟨60, 58, .RWS, .LIVE⟩, ⟨45, 32, .RO, .none⟩, ⟨31, 0, .RO, .none⟩]
  | .HUB_PWR_EST => [⟨63, 52, .RO, .none⟩, ⟨51, 42, .RO, .none⟩, ⟨41, 32, .RO, .none⟩, ⟨31, 22, .RO, .none⟩,
      ⟨21, 12, .RO, .none⟩, ⟨11, 0, .RO, .none⟩]
  | .HUB_THERM_STAT => [⟨35, 0, .RO, .none⟩]
  | .HUB_AVS_CTRL => [⟨63, 63, .RW, .LIVE⟩, ⟨51, 40, .RW, .LIVE⟩, ⟨7, 0, .RW, .LIVE⟩]
  | .HUB_AVS_STAT => [⟨63, 52, .RO, .none⟩, ⟨51, 36, .RO, .none⟩, ⟨35, 20, .RO, .none⟩, ⟨15, 0, .RO, .none⟩]
  | .HUB_PWR_EVT_CNT => [⟨47, 0, .RO, .none⟩]
  | .HUB_PWR_EVT_CLR => [⟨5, 0, .WO, .LIVE⟩]
  | .HUB_ERING_STAT => [⟨63, 54, .RO, .none⟩, ⟨53, 43, .RO, .none⟩, ⟨31, 16, .RO, .none⟩, ⟨15, 0, .RO, .none⟩]
  | .HUB_ERING_SEL => [⟨63, 63, .WO, .LIVE⟩, ⟨11, 2, .RW, .LIVE⟩, ⟨1, 0, .RW, .LIVE⟩]
  | .HUB_ERING_DATA => [⟨63, 0, .RO, .none⟩]
  | .HUB_FATAL_STAT => [⟨63, 63, .RWS, .LIVE⟩, ⟨62, 58, .RWS, .LIVE⟩, ⟨57, 53, .RWS, .LIVE⟩,
      ⟨52, 52, .RWS, .LIVE⟩, ⟨51, 47, .RWS, .LIVE⟩, ⟨46, 42, .RWS, .LIVE⟩, ⟨31, 0, .RWS, .LIVE⟩]
  | .HUB_INJ_CTRL => [⟨63, 63, .RO, .none⟩, ⟨62, 61, .RO, .none⟩, ⟨47, 32, .WO, .LIVE⟩, ⟨31, 24, .RW, .LIVE⟩,
      ⟨9, 8, .RW, .LIVE⟩, ⟨7, 7, .RW, .LIVE⟩, ⟨4, 1, .RW, .LIVE⟩, ⟨0, 0, .WO, .LIVE⟩]
  | .HUB_INJ_STAT => [⟨47, 40, .RO, .none⟩, ⟨39, 0, .RO, .none⟩]
  | .HUB_GUARD => [⟨0, 0, .RW, .LIVE⟩]
  | _ => []

/-- Register tables of the UCIE block. -/
def layoutUCIE : Reg → List FieldSpec
  | .HUB_UCIE_STAT => [⟨63, 61, .RO, .none⟩, ⟨60, 59, .RO, .none⟩, ⟨58, 56, .RO, .none⟩, ⟨55, 53, .RO, .none⟩]
  | .HUB_UCIE_CTRL => [⟨1, 1, .WO, .LIVE⟩, ⟨0, 0, .RW, .IMAGE⟩]
  | .HUB_UCIE_MEAS => [⟨63, 0, .RO, .none⟩]
  | _ => []

/-- Register tables of the MGT block. -/
def layoutMGT : Reg → List FieldSpec
  | .MGT_ERR_FIRST => [⟨63, 63, .RWS, .LIVE⟩, ⟨55, 48, .RWS, .LIVE⟩, ⟨7, 4, .RWS, .LIVE⟩, ⟨3, 0, .RWS, .LIVE⟩]
  | .MGT_ERR_NEXT => [⟨9, 1, .RWS, .LIVE⟩]
  | .MGT_ERR_COUNT => [⟨31, 0, .RWS, .LIVE⟩]
  | .MGT_MAC => [⟨47, 0, .RO, .none⟩]
  | .MGT_BOOT_CNT => [⟨31, 0, .RO, .none⟩]
  | .MGT_AUTH_CFG => [⟨7, 4, .RW, .LIVE⟩, ⟨3, 0, .RW, .LIVE⟩]
  | .MGT_NET_CFG => [⟨63, 32, .RW, .LIVE⟩, ⟨29, 24, .RW, .LIVE⟩, ⟨23, 12, .RW, .LIVE⟩]
  | .MGT_NET_GW => [⟨31, 0, .RW, .LIVE⟩]
  | .MGT_PORT_STAT => [⟨7, 0, .RO, .none⟩]
  | .MGT_REQ_STAT => [⟨63, 32, .RO, .none⟩, ⟨31, 31, .RO, .none⟩, ⟨30, 0, .RO, .none⟩]
  | .MGT_EVT_DEST => [⟨63, 63, .RW, .LIVE⟩, ⟨47, 32, .RW, .LIVE⟩, ⟨31, 0, .RW, .LIVE⟩]
  | .MGT_EVT_STAT => [⟨63, 32, .RO, .none⟩, ⟨31, 16, .RO, .none⟩, ⟨15, 0, .RO, .none⟩]
  | .MGT_FILE_STAT => [⟨63, 61, .RO, .none⟩, ⟨60, 58, .RO, .none⟩, ⟨57, 54, .RO, .none⟩, ⟨31, 0, .RO, .none⟩]
  | .MGT_IMG_STAT => [⟨63, 63, .RO, .none⟩, ⟨62, 62, .RO, .none⟩, ⟨61, 61, .RO, .none⟩, ⟨60, 52, .RO, .none⟩,
      ⟨47, 0, .RO, .none⟩]
  | .MGT_IMG_DIG => [⟨63, 0, .RO, .none⟩]
  | .MGT_BLK_CTRL => [⟨0, 0, .RW, .LIVE⟩]
  | .MGT_BLK_STAT => [⟨63, 63, .RO, .none⟩, ⟨47, 32, .RO, .none⟩, ⟨31, 0, .RO, .none⟩]
  | .MGT_STAGE_STAT => [⟨63, 62, .RO, .none⟩, ⟨61, 46, .RO, .none⟩, ⟨45, 42, .RO, .none⟩, ⟨41, 34, .RO, .none⟩,
      ⟨33, 30, .RO, .none⟩, ⟨15, 0, .RO, .none⟩]
  | .MGT_CART_STAT => [⟨63, 63, .RO, .none⟩, ⟨62, 62, .RO, .none⟩, ⟨61, 61, .RO, .none⟩, ⟨60, 58, .RO, .none⟩,
      ⟨39, 24, .RO, .none⟩, ⟨23, 16, .RO, .none⟩, ⟨15, 0, .RO, .none⟩]
  | .MGT_DROP_CNT => [⟨47, 0, .RO, .none⟩]
  | .MGT_DROP_CLR => [⟨9, 0, .WO, .LIVE⟩]
  | _ => []

/-- Register tables of the SEC block. -/
def layoutSEC : Reg → List FieldSpec
  | .SEC_ERR_FIRST => [⟨63, 63, .RWS, .LIVE⟩, ⟨55, 48, .RWS, .LIVE⟩, ⟨2, 2, .RWS, .LIVE⟩, ⟨1, 1, .RWS, .LIVE⟩,
      ⟨0, 0, .RWS, .LIVE⟩]
  | .SEC_ERR_NEXT => [⟨7, 1, .RWS, .LIVE⟩]
  | .SEC_ERR_COUNT => [⟨31, 0, .RWS, .LIVE⟩]
  | .SEC_STAT => [⟨63, 58, .RO, .none⟩, ⟨57, 57, .RO, .none⟩, ⟨56, 56, .RO, .none⟩, ⟨55, 55, .RO, .none⟩,
      ⟨54, 54, .RO, .none⟩, ⟨53, 48, .RO, .none⟩, ⟨31, 0, .RWS, .LIVE⟩]
  | .SEC_ROLLBACK => [⟨16, 1, .WO, .LIVE⟩, ⟨0, 0, .WO, .LIVE⟩]
  | .SEC_OWNER_DATA => [⟨63, 0, .RW, .LIVE⟩]
  | .SEC_OWNER_CMD => [⟨63, 62, .RO, .none⟩, ⟨16, 1, .WO, .LIVE⟩, ⟨0, 0, .WO, .LIVE⟩]
  | .SEC_KEY_CMD => [⟨63, 62, .RO, .none⟩, ⟨5, 2, .RW, .LIVE⟩, ⟨1, 0, .WO, .LIVE⟩]
  | .SEC_KEY_DATA => [⟨63, 0, .WO, .LIVE⟩]
  | .SEC_NONCE => [⟨63, 0, .RW, .LIVE⟩]
  | .SEC_QUOTE_CMD => [⟨63, 63, .RO, .none⟩, ⟨62, 61, .RO, .none⟩, ⟨12, 1, .RW, .LIVE⟩, ⟨0, 0, .WO, .LIVE⟩]
  | .SEC_QUOTE_DATA => [⟨63, 0, .RO, .none⟩]
  | .SEC_CERT_SEL => [⟨63, 63, .RW, .LIVE⟩, ⟨47, 32, .RO, .none⟩, ⟨11, 0, .RW, .LIVE⟩]
  | .SEC_CERT_DATA => [⟨63, 0, .RO, .none⟩]
  | .SEC_MEAS => [⟨63, 0, .RO, .none⟩]
  | _ => []

/-- Register tables of the TIME block. -/
def layoutTIME : Reg → List FieldSpec
  | .TIME_ERR_FIRST => [⟨63, 63, .RWS, .LIVE⟩, ⟨55, 48, .RWS, .LIVE⟩, ⟨9, 0, .RWS, .LIVE⟩]
  | .TIME_ERR_NEXT => [⟨3, 1, .RWS, .LIVE⟩]
  | .TIME_ERR_COUNT => [⟨31, 0, .RWS, .LIVE⟩]
  | .TIME_NOW => [⟨63, 32, .RO, .none⟩, ⟨31, 0, .RO, .none⟩]
  | .TIME_INC => [⟨63, 0, .RW, .LIVE⟩]
  | .TIME_ADJ => [⟨63, 0, .WO, .LIVE⟩]
  | .TIME_CTRL => [⟨63, 63, .RW, .LIVE⟩, ⟨62, 62, .RW, .LIVE⟩, ⟨61, 61, .RW, .LIVE⟩, ⟨44, 40, .RW, .LIVE⟩,
      ⟨9, 0, .RW, .LIVE⟩]
  | .TIME_SRC_CFG => [⟨63, 63, .RW, .LIVE⟩, ⟨62, 62, .RW, .LIVE⟩, ⟨25, 16, .RW, .LIVE⟩, ⟨9, 0, .RW, .LIVE⟩]
  | .TIME_STAT => [⟨63, 62, .RO, .none⟩, ⟨61, 60, .RO, .none⟩, ⟨59, 52, .RO, .none⟩, ⟨31, 0, .RO, .none⟩]
  | .TIME_CAP_SEL => [⟨15, 12, .RO, .none⟩, ⟨6, 6, .RW, .LIVE⟩, ⟨5, 2, .RW, .LIVE⟩, ⟨1, 0, .RW, .LIVE⟩]
  | .TIME_CAP_DATA => [⟨63, 0, .RO, .none⟩]
  | .TIME_EVT_CNT => [⟨47, 0, .RO, .none⟩]
  | .TIME_EVT_CLR => [⟨4, 0, .WO, .LIVE⟩]
  | _ => []

/-- Register tables of the MEM block. -/
def layoutMEM : Reg → List FieldSpec
  | .MEM_FR_CTRL => [⟨63, 63, .RW, .LIVE⟩, ⟨62, 62, .WO, .LIVE⟩, ⟨9, 0, .RW, .LIVE⟩]
  | .MEM_FR_STAT => [⟨63, 44, .RO, .none⟩, ⟨43, 32, .RO, .none⟩, ⟨31, 0, .RO, .none⟩]
  | .MEM_FR_SEL => [⟨24, 5, .RW, .LIVE⟩, ⟨4, 0, .RW, .LIVE⟩]
  | .MEM_FR_DATA => [⟨63, 0, .RO, .none⟩]
  | _ => []

/-- Register tables of the FWD block. -/
def layoutFWD : Reg → List FieldSpec
  | .FWD_ERR_FIRST => [⟨63, 63, .RWS, .LIVE⟩, ⟨55, 48, .RWS, .LIVE⟩, ⟨25, 0, .RWS, .LIVE⟩]
  | .FWD_ERR_NEXT => [⟨5, 1, .RWS, .LIVE⟩]
  | .FWD_ERR_COUNT => [⟨31, 0, .RWS, .LIVE⟩]
  | .FWD_DEV_DFID => [⟨23, 0, .RW, .IMAGE⟩]
  | .FWD_EPOCH => [⟨63, 63, .RO, .none⟩, ⟨48, 48, .RO, .none⟩, ⟨31, 16, .RO, .none⟩, ⟨10, 0, .RW, .LIVE⟩]
  | .FWD_AGE_CFG => [⟨35, 20, .RO, .none⟩, ⟨4, 0, .RW, .LIVE⟩]
  | .FWD_FILTER_CFG => [⟨0, 0, .RO, .none⟩]
  | .FWD_SEED => [⟨31, 0, .RW, .IMAGE⟩]
  | .FWD_RT_GEOM => [⟨21, 21, .RW, .IMAGE⟩, ⟨20, 6, .RW, .IMAGE⟩, ⟨3, 0, .RW, .IMAGE⟩]
  | .FWD_BLK_CFG => [⟨15, 15, .RW, .IMAGE⟩, ⟨14, 0, .RW, .IMAGE⟩]
  | .FWD_PORT_CFG => [⟨15, 15, .RW, .IMAGE⟩, ⟨14, 13, .RW, .IMAGE⟩, ⟨9, 0, .RW, .IMAGE⟩]
  | .FWD_PORT_MASK => [⟨63, 0, .RW, .IMAGE⟩]
  | .FWD_CMD => [⟨63, 63, .RO, .none⟩, ⟨62, 59, .RO, .none⟩, ⟨44, 20, .RO, .none⟩, ⟨11, 10, .RW, .LIVE⟩,
      ⟨7, 4, .RW, .LIVE⟩, ⟨3, 0, .WO, .LIVE⟩]
  | .FWD_KEY => [⟨57, 52, .RW, .LIVE⟩, ⟨51, 32, .RW, .LIVE⟩, ⟨31, 30, .RW, .LIVE⟩, ⟨29, 29, .RW, .LIVE⟩,
      ⟨28, 24, .RW, .LIVE⟩, ⟨23, 0, .RW, .LIVE⟩]
  | .FWD_RES => [⟨63, 63, .RW, .LIVE⟩, ⟨62, 62, .RO, .none⟩, ⟨61, 60, .RW, .LIVE⟩, ⟨59, 58, .RW, .LIVE⟩,
      ⟨57, 48, .RW, .LIVE⟩, ⟨47, 24, .RW, .LIVE⟩, ⟨15, 0, .RO, .none⟩]
  | .FWD_CURSOR => [⟨24, 0, .RW, .LIVE⟩]
  | .FWD_MISS_STAT => [⟨20, 9, .RO, .none⟩, ⟨8, 0, .RO, .none⟩]
  | .FWD_LRN_STAT => [⟨56, 38, .RO, .none⟩, ⟨37, 19, .RO, .none⟩, ⟨18, 0, .RO, .none⟩]
  | .FWD_FENCE => [⟨63, 63, .RW, .LIVE⟩, ⟨25, 20, .RW, .LIVE⟩, ⟨19, 0, .RW, .LIVE⟩]
  | .FWD_DROP_CNT => [⟨47, 0, .RO, .none⟩]
  | .FWD_DROP_CLR => [⟨4, 0, .WO, .LIVE⟩]
  | .FWD_EVT_CNT => [⟨47, 0, .RO, .none⟩]
  | .FWD_EVT_CLR => [⟨9, 0, .WO, .LIVE⟩]
  | _ => []

/-- Register tables of the SWC block. -/
def layoutSWC : Reg → List FieldSpec
  | .SWC_FREE_STAT => [⟨37, 19, .RO, .none⟩, ⟨18, 0, .RO, .none⟩]
  | .SWC_ERR_FIRST => [⟨63, 63, .RWS, .LIVE⟩, ⟨55, 48, .RWS, .LIVE⟩, ⟨28, 19, .RWS, .LIVE⟩, ⟨18, 0, .RWS, .LIVE⟩]
  | .SWC_ERR_NEXT => [⟨8, 1, .RWS, .LIVE⟩]
  | .SWC_ERR_COUNT => [⟨31, 0, .RWS, .LIVE⟩]
  | .SWC_STAGE_STAT => [⟨27, 14, .RO, .none⟩, ⟨13, 0, .RO, .none⟩]
  | .SWC_HASH_SEED => [⟨31, 0, .RW, .IMAGE⟩]
  | .SWC_AUDIT_CTRL => [⟨17, 2, .RW, .LIVE⟩, ⟨1, 1, .RW, .LIVE⟩, ⟨0, 0, .WO, .LIVE⟩]
  | .SWC_AUDIT_STAT => [⟨40, 40, .RO, .none⟩, ⟨39, 20, .RO, .none⟩, ⟨19, 1, .RO, .none⟩, ⟨0, 0, .RO, .none⟩]
  | .SWC_AUDIT_RECLAIM => [⟨19, 1, .RO, .none⟩, ⟨0, 0, .WO, .LIVE⟩]
  | .SWC_AUDIT_LEAK => [⟨63, 63, .RO, .none⟩, ⟨28, 19, .RO, .none⟩, ⟨18, 0, .RO, .none⟩]
  | .SWC_POOL_CFG => [⟨19, 19, .RW, .IMAGE⟩, ⟨18, 0, .RW, .IMAGE⟩]
  | .SWC_POOL_STAT => [⟨37, 19, .RO, .none⟩, ⟨18, 0, .RO, .none⟩]
  | .SWC_REQ_CFG => [⟨38, 23, .RW, .QUIESCE⟩, ⟨22, 19, .RW, .IMAGE⟩, ⟨18, 0, .RW, .QUIESCE⟩]
  | .SWC_REQ_STAT => [⟨53, 35, .RO, .none⟩, ⟨34, 19, .RO, .none⟩, ⟨18, 0, .RO, .none⟩]
  | .SWC_MC_REGION => [⟨32, 16, .RW, .IMAGE⟩, ⟨15, 0, .RW, .IMAGE⟩]
  | .SWC_MC_SEL => [⟨20, 16, .RW, .LIVE⟩, ⟨15, 0, .RW, .LIVE⟩]
  | .SWC_MC_DATA => [⟨63, 0, .RW, .LIVE⟩]
  | .SWC_MC_CMD => [⟨9, 8, .RO, .none⟩, ⟨1, 0, .WO, .QUIESCE⟩]
  | .SWC_BND_SEL => [⟨15, 10, .RW, .LIVE⟩, ⟨9, 0, .RW, .LIVE⟩]
  | .SWC_BND_INFO => [⟨18, 18, .RO, .none⟩, ⟨17, 17, .RO, .none⟩, ⟨16, 7, .RO, .none⟩, ⟨6, 0, .RO, .none⟩]
  | .SWC_BND_LIVE => [⟨63, 0, .RO, .none⟩]
  | .SWC_BND_ADMIN => [⟨63, 0, .RW, .LIVE⟩]
  | .SWC_BND_CMD => [⟨0, 0, .WO, .LIVE⟩]
  | .SWC_DROP_CNT => [⟨47, 0, .RO, .none⟩]
  | .SWC_DROP_CLR => [⟨10, 0, .WO, .LIVE⟩]
  | _ => []

/-- Register tables of the TM block. -/
def layoutTM : Reg → List FieldSpec
  | .TM_ERR_FIRST => [⟨63, 63, .RWS, .LIVE⟩, ⟨55, 48, .RWS, .LIVE⟩, ⟨9, 0, .RWS, .LIVE⟩]
  | .TM_ERR_NEXT => [⟨4, 1, .RWS, .LIVE⟩]
  | .TM_ERR_COUNT => [⟨31, 0, .RWS, .LIVE⟩]
  | .TM_RED_SEED => [⟨31, 0, .RW, .LIVE⟩]
  | .TM_SAMP_CTRL => [⟨4, 4, .RW, .LIVE⟩, ⟨3, 0, .RW, .LIVE⟩]
  | .TM_SAT_CFG => [⟨15, 0, .RW, .LIVE⟩]
  | .TM_SAT_STAT => [⟨63, 63, .RW1C, .LIVE⟩, ⟨11, 3, .RO, .none⟩, ⟨2, 0, .RO, .none⟩]
  | .TM_MAP_SEL => [⟨11, 3, .RW, .LIVE⟩, ⟨2, 0, .RW, .LIVE⟩]
  | .TM_MAP_DATA => [⟨12, 12, .RW, .LIVE⟩, ⟨11, 0, .RW, .LIVE⟩]
  | .TM_MTR_SEL => [⟨11, 0, .RW, .LIVE⟩]
  | .TM_MTR_CFG => [⟨63, 62, .RW, .LIVE⟩, ⟨61, 61, .RW, .LIVE⟩, ⟨60, 60, .RW, .LIVE⟩, ⟨39, 20, .RW, .LIVE⟩,
      ⟨19, 0, .RW, .LIVE⟩]
  | .TM_MTR_BURST => [⟨47, 24, .RW, .LIVE⟩, ⟨23, 0, .RW, .LIVE⟩]
  | .TM_QSEL => [⟨23, 18, .RW, .LIVE⟩, ⟨17, 15, .RW, .LIVE⟩, ⟨14, 6, .RW, .LIVE⟩, ⟨5, 0, .RO, .none⟩]
  | .TM_Q_CFG => [⟨57, 53, .RW, .LIVE⟩, ⟨52, 52, .RW, .LIVE⟩, ⟨51, 48, .RW, .LIVE⟩, ⟨37, 19, .RW, .LIVE⟩,
      ⟨18, 0, .RW, .LIVE⟩]
  | .TM_Q_STAT => [⟨50, 38, .RO, .none⟩, ⟨37, 19, .RO, .none⟩, ⟨18, 0, .RO, .none⟩]
  | .TM_SAMP_DATA => [⟨63, 32, .RO, .none⟩, ⟨31, 13, .RO, .none⟩, ⟨12, 0, .RO, .none⟩]
  | .TM_RED_PROF => [⟨45, 38, .RW, .LIVE⟩, ⟨37, 19, .RW, .LIVE⟩, ⟨18, 0, .RW, .LIVE⟩]
  | .TM_SHP_SEL => [⟨11, 3, .RW, .LIVE⟩, ⟨2, 0, .RW, .LIVE⟩]
  | .TM_SHP_CFG => [⟨63, 63, .RW, .LIVE⟩, ⟨51, 36, .RW, .LIVE⟩, ⟨19, 0, .RW, .LIVE⟩]
  | .TM_PORT_SEL => [⟨12, 10, .RW, .LIVE⟩, ⟨9, 0, .RW, .LIVE⟩]
  | .TM_SCH_CFG => [⟨39, 0, .RW, .LIVE⟩]
  | .TM_ADM_CFG => [⟨19, 0, .RW, .IMAGE⟩]
  | .TM_ADM_STAT => [⟨39, 20, .RO, .none⟩, ⟨19, 0, .RO, .none⟩]
  | .TM_CRD_CFG => [⟨11, 0, .RW, .IMAGE⟩]
  | .TM_CRD_STAT => [⟨23, 12, .RO, .none⟩, ⟨11, 0, .RO, .none⟩]
  | .TM_DROP_CNT => [⟨47, 0, .RO, .none⟩]
  | .TM_DROP_CLR => [⟨3, 0, .WO, .LIVE⟩]
  | .TM_ECN_CNT => [⟨47, 0, .RO, .none⟩]
  | .TM_ADM_WAIT_CNT => [⟨47, 0, .RO, .none⟩]
  | _ => []

/-- Register tables of the RED block. -/
def layoutRED : Reg → List FieldSpec
  | .RED_ERR_FIRST => [⟨63, 63, .RWS, .LIVE⟩, ⟨55, 48, .RWS, .LIVE⟩, ⟨47, 44, .RWS, .LIVE⟩, ⟨43, 39, .RWS, .LIVE⟩,
      ⟨31, 16, .RWS, .LIVE⟩, ⟨15, 0, .RWS, .LIVE⟩]
  | .RED_ERR_NEXT => [⟨7, 1, .RWS, .LIVE⟩]
  | .RED_ERR_COUNT => [⟨31, 0, .RWS, .LIVE⟩]
  | .RED_CAPS => [⟨1, 1, .RO, .none⟩, ⟨0, 0, .RO, .none⟩]
  | .RED_CELL_SEL => [⟨8, 5, .RW, .LIVE⟩, ⟨4, 0, .RW, .LIVE⟩]
  | .RED_CELL_CFG => [⟨0, 0, .RW, .LIVE⟩]
  | .RED_CELL_STAT => [⟨52, 48, .RO, .none⟩, ⟨47, 24, .RO, .none⟩, ⟨23, 8, .RO, .none⟩, ⟨7, 0, .RO, .none⟩]
  | .RED_KAT_CTRL => [⟨63, 63, .WO, .LIVE⟩, ⟨62, 59, .RW, .LIVE⟩, ⟨58, 58, .RW, .LIVE⟩, ⟨57, 55, .RW, .LIVE⟩,
      ⟨54, 51, .RW, .LIVE⟩, ⟨50, 46, .RW, .LIVE⟩, ⟨45, 36, .RW, .LIVE⟩, ⟨31, 0, .RW, .LIVE⟩]
  | .RED_KAT_STAT => [⟨63, 63, .RO, .none⟩, ⟨62, 61, .RO, .none⟩, ⟨47, 24, .RO, .none⟩, ⟨23, 0, .RO, .none⟩]
  | .RED_ARRAY_STAT => [⟨41, 32, .RO, .none⟩, ⟨25, 16, .RO, .none⟩, ⟨9, 0, .RO, .none⟩]
  | .RED_EVT_CNT => [⟨47, 0, .RO, .none⟩]
  | .RED_EVT_CLR => [⟨5, 0, .WO, .LIVE⟩]
  | .SYNC_ERR_FIRST => [⟨63, 63, .RWS, .LIVE⟩, ⟨55, 48, .RWS, .LIVE⟩, ⟨31, 16, .RWS, .LIVE⟩, ⟨15, 0, .RWS, .LIVE⟩]
  | .SYNC_ERR_NEXT => [⟨6, 1, .RWS, .LIVE⟩]
  | .SYNC_ERR_COUNT => [⟨31, 0, .RWS, .LIVE⟩]
  | .SYNC_REC_STAT => [⟨46, 32, .RO, .none⟩, ⟨14, 0, .RO, .none⟩]
  | .SYNC_SPILL_CFG => [⟨63, 63, .RW, .IMAGE⟩, ⟨35, 32, .RW, .LIVE⟩, ⟨7, 0, .RW, .IMAGE⟩]
  | .SYNC_SPILL_AREA => [⟨47, 24, .RW, .IMAGE⟩, ⟨23, 0, .RW, .IMAGE⟩]
  | .SYNC_SPILL_STAT => [⟨55, 32, .RO, .none⟩, ⟨31, 16, .RO, .none⟩, ⟨15, 0, .RO, .none⟩]
  | .SYNC_HOME_SEL => [⟨15, 0, .RW, .LIVE⟩]
  | .SYNC_HOME_DATA => [⟨63, 63, .RW, .IMAGE⟩, ⟨62, 62, .RW, .IMAGE⟩, ⟨61, 58, .RW, .IMAGE⟩,
      ⟨57, 43, .RW, .IMAGE⟩, ⟨42, 37, .RW, .IMAGE⟩]
  | .SYNC_DESC_SEL => [⟨20, 16, .RW, .LIVE⟩, ⟨14, 0, .RW, .LIVE⟩]
  | .SYNC_DESC_DATA => [⟨63, 0, .RW, .LIVE⟩]
  | .SYNC_DESC_CMD => [⟨9, 8, .RO, .none⟩, ⟨1, 0, .WO, .QUIESCE⟩]
  | .SYNC_DESC_STAT => [⟨63, 54, .RO, .none⟩, ⟨53, 27, .RO, .none⟩, ⟨26, 0, .RO, .none⟩]
  | .SYNC_DESC_EXCL => [⟨63, 63, .WO, .LIVE⟩, ⟨9, 0, .RW, .LIVE⟩]
  | .SYNC_BLK_CFG => [⟨45, 32, .RW, .QUIESCE⟩, ⟨31, 0, .RW, .QUIESCE⟩]
  | .SYNC_BLK_STAT => [⟨45, 32, .RO, .none⟩, ⟨31, 0, .RO, .none⟩]
  | .SYNC_WATCH => [⟨63, 63, .RW, .LIVE⟩, ⟨14, 0, .RW, .LIVE⟩]
  | .SYNC_HIST_SEL => [⟨16, 11, .RW, .LIVE⟩, ⟨10, 0, .RW, .LIVE⟩]
  | .SYNC_HIST_DATA => [⟨31, 0, .RO, .none⟩]
  | .SYNC_BAR_SEL => [⟨11, 0, .RW, .LIVE⟩]
  | .SYNC_BAR_CFG => [⟨63, 63, .RW, .QUIESCE⟩, ⟨62, 57, .RW, .QUIESCE⟩, ⟨56, 46, .RW, .QUIESCE⟩,
      ⟨45, 36, .RW, .QUIESCE⟩, ⟨35, 20, .RW, .QUIESCE⟩]
  | .SYNC_BAR_TGT => [⟨63, 63, .RW, .QUIESCE⟩, ⟨39, 16, .RW, .QUIESCE⟩, ⟨15, 0, .RW, .QUIESCE⟩]
  | .SYNC_BAR_STAT => [⟨63, 56, .RO, .none⟩, ⟨55, 45, .RO, .none⟩, ⟨9, 0, .RO, .none⟩]
  | .SYNC_CRZ_SEL => [⟨12, 7, .RW, .LIVE⟩, ⟨6, 5, .RW, .LIVE⟩, ⟨4, 0, .RW, .LIVE⟩]
  | .SYNC_CRZ_DATA => [⟨63, 0, .RW, .IMAGE⟩]
  | .SYNC_CRZ_STAT => [⟨63, 32, .RO, .none⟩, ⟨15, 0, .RO, .none⟩]
  | .SYNC_DROP_CNT => [⟨47, 0, .RO, .none⟩]
  | .SYNC_DROP_CLR => [⟨9, 0, .WO, .LIVE⟩]
  | .SYNC_EVT_CNT => [⟨47, 0, .RO, .none⟩]
  | .SYNC_EVT_CLR => [⟨11, 0, .WO, .LIVE⟩]
  | .RED_LCH_CFG => [⟨63, 63, .RW, .QUIESCE⟩, ⟨62, 62, .RW, .QUIESCE⟩, ⟨61, 61, .RW, .QUIESCE⟩,
      ⟨60, 51, .RW, .QUIESCE⟩, ⟨13, 0, .RW, .QUIESCE⟩]
  | .RED_LCH_BLOCKS => [⟨63, 0, .RW, .QUIESCE⟩]
  | .RED_LCH_CNT => [⟨47, 0, .RO, .none⟩]
  | .RED_LCH_CLR => [⟨5, 0, .WO, .LIVE⟩]
  | .RED_LCH_LAST => [⟨63, 48, .RO, .none⟩, ⟨47, 32, .RO, .none⟩, ⟨13, 0, .RO, .none⟩]
  | .RED_LCH_DIG => [⟨63, 32, .RO, .none⟩, ⟨31, 0, .RO, .none⟩]
  | .RED_LCH_PEND => [⟨12, 0, .RO, .none⟩]
  | _ => []

/-- Register tables of the LANE block. -/
def layoutLANE : Reg → List FieldSpec
  | .LANE_ERR_FIRST => [⟨63, 63, .RWS, .LIVE⟩, ⟨55, 48, .RWS, .LIVE⟩, ⟨9, 0, .RWS, .LIVE⟩]
  | .LANE_ERR_NEXT => [⟨6, 1, .RWS, .LIVE⟩]
  | .LANE_ERR_COUNT => [⟨31, 0, .RWS, .LIVE⟩]
  | .LANE_HB_CFG => [⟨31, 16, .RW, .LIVE⟩, ⟨15, 0, .RW, .LIVE⟩]
  | .LANE_FEC_HSEL => [⟨13, 5, .RW, .LIVE⟩, ⟨4, 0, .RW, .LIVE⟩]
  | .LANE_FEC_HDATA => [⟨47, 0, .RO, .none⟩]
  | .LANE_CFG => [⟨63, 62, .RW, .LIVE⟩, ⟨61, 60, .RW, .LIVE⟩, ⟨59, 59, .RW, .LIVE⟩, ⟨58, 58, .WO, .LIVE⟩]
  | .LANE_STAT => [⟨63, 61, .RO, .none⟩, ⟨60, 60, .RO, .none⟩, ⟨59, 59, .RO, .none⟩, ⟨58, 58, .RO, .none⟩,
      ⟨57, 57, .RO, .none⟩, ⟨56, 56, .RO, .none⟩, ⟨55, 52, .RO, .none⟩, ⟨39, 32, .RO, .none⟩, ⟨15, 0, .RO, .none⟩]
  | .LANE_PAT => [⟨63, 61, .RW, .LIVE⟩, ⟨60, 58, .RW, .LIVE⟩, ⟨57, 53, .RW, .LIVE⟩, ⟨52, 52, .WO, .LIVE⟩]
  | .LANE_PAT_STAT => [⟨63, 63, .RO, .none⟩, ⟨47, 0, .RO, .none⟩]
  | .LANE_INJ => [⟨63, 62, .RW, .LIVE⟩, ⟨61, 57, .RW, .LIVE⟩, ⟨56, 52, .RW, .LIVE⟩, ⟨51, 36, .RW, .LIVE⟩]
  | .LANE_FEC_CNT => [⟨63, 40, .RO, .none⟩, ⟨39, 0, .RO, .none⟩]
  | .LANE_TS_CORR => [⟨63, 48, .RW, .LIVE⟩, ⟨47, 32, .RW, .LIVE⟩]
  | .LANE_PORT_CTRL => [⟨63, 63, .RW, .LIVE⟩, ⟨62, 62, .WO, .LIVE⟩, ⟨61, 61, .WO, .LIVE⟩, ⟨60, 60, .WO, .LIVE⟩,
      ⟨47, 32, .RW, .LIVE⟩]
  | .LANE_PORT_STAT => [⟨63, 61, .RO, .none⟩, ⟨60, 60, .RO, .none⟩, ⟨59, 57, .RO, .none⟩, ⟨56, 55, .RO, .none⟩,
      ⟨47, 32, .RO, .none⟩, ⟨22, 16, .RO, .none⟩, ⟨9, 0, .RO, .none⟩]
  | .LANE_RETRY => [⟨63, 32, .RO, .none⟩, ⟨31, 0, .RO, .none⟩]
  | .LANE_HB_STAT => [⟨63, 32, .RO, .none⟩, ⟨31, 16, .RO, .none⟩]
  | .LANE_EVT_CNT => [⟨47, 0, .RO, .none⟩]
  | .LANE_EVT_CLR => [⟨9, 0, .WO, .LIVE⟩]
  | .LANE_LIVE => [⟨63, 63, .RO, .none⟩, ⟨62, 62, .RW, .LIVE⟩, ⟨55, 48, .RO, .none⟩, ⟨43, 40, .RO, .none⟩,
      ⟨39, 32, .RO, .none⟩, ⟨31, 0, .RO, .none⟩]
  | _ => []

/-- Register tables of the D2D block. -/
def layoutD2D : Reg → List FieldSpec
  | .D2D_ERR_FIRST => [⟨63, 63, .RWS, .LIVE⟩, ⟨55, 48, .RWS, .LIVE⟩, ⟨4, 0, .RWS, .LIVE⟩]
  | .D2D_ERR_NEXT => [⟨6, 1, .RWS, .LIVE⟩]
  | .D2D_ERR_COUNT => [⟨31, 0, .RWS, .LIVE⟩]
  | .D2D_STAT => [⟨63, 63, .RO, .none⟩, ⟨62, 62, .RO, .none⟩, ⟨61, 61, .RO, .none⟩, ⟨47, 32, .RO, .none⟩,
      ⟨31, 16, .RO, .none⟩, ⟨15, 0, .RO, .none⟩]
  | .D2D_CTRL => [⟨0, 0, .WO, .QUIESCE⟩]
  | .D2D_DROP_CNT => [⟨47, 0, .RO, .none⟩]
  | .D2D_BND_STAT => [⟨63, 63, .RO, .none⟩, ⟨62, 59, .RO, .none⟩, ⟨58, 55, .RO, .none⟩, ⟨54, 51, .RO, .none⟩,
      ⟨50, 42, .RO, .none⟩, ⟨31, 0, .RO, .none⟩]
  | .D2D_EVT_CNT => [⟨47, 0, .RO, .none⟩]
  | .D2D_EVT_CLR => [⟨5, 0, .WO, .LIVE⟩]
  | _ => []

/-- Register tables of the CNT block. -/
def layoutCNT : Reg → List FieldSpec
  | .CNT_TICK => [⟨63, 0, .RO, .none⟩]
  | .CNT_CTRL => [⟨63, 63, .RW, .LIVE⟩, ⟨62, 62, .RW, .LIVE⟩, ⟨61, 61, .WO, .LIVE⟩, ⟨60, 53, .RO, .none⟩]
  | .CNT_SEL => [⟨51, 51, .RW, .LIVE⟩, ⟨50, 41, .RW, .LIVE⟩, ⟨40, 40, .RW, .LIVE⟩, ⟨39, 37, .RW, .LIVE⟩,
      ⟨11, 0, .RW, .LIVE⟩]
  | .CNT_VAL => [⟨47, 0, .RO, .none⟩]
  | .CNT_EP_STAT => [⟨63, 32, .RO, .none⟩, ⟨31, 0, .RO, .none⟩]
  | .CNT_EP_TICK => [⟨63, 32, .RO, .none⟩, ⟨31, 0, .RO, .none⟩]
  | .CNT_EP_VAL => [⟨47, 0, .RO, .none⟩]
  | _ => []

/-- Register tables of the OE block. -/
def layoutOE : Reg → List FieldSpec
  | .OE_ERR_FIRST => [⟨63, 63, .RWS, .LIVE⟩, ⟨55, 48, .RWS, .LIVE⟩, ⟨10, 8, .RWS, .LIVE⟩, ⟨7, 4, .RWS, .LIVE⟩,
      ⟨0, 0, .RWS, .LIVE⟩]
  | .OE_ERR_NEXT => [⟨8, 1, .RWS, .LIVE⟩]
  | .OE_ERR_COUNT => [⟨31, 0, .RWS, .LIVE⟩]
  | .OE_ID => [⟨11, 8, .RO, .none⟩, ⟨5, 4, .RO, .none⟩, ⟨3, 0, .RO, .none⟩]
  | .OE_STATE => [⟨63, 63, .RO, .none⟩, ⟨62, 62, .RO, .none⟩, ⟨61, 61, .RO, .none⟩, ⟨60, 60, .RO, .none⟩,
      ⟨59, 58, .RO, .none⟩, ⟨57, 54, .RO, .none⟩, ⟨53, 45, .RO, .none⟩, ⟨44, 36, .RO, .none⟩,
      ⟨35, 27, .RO, .none⟩, ⟨0, 0, .RO, .none⟩]
  | .OE_CMD => [⟨63, 63, .RO, .none⟩, ⟨62, 61, .RO, .none⟩, ⟨7, 4, .RW, .LIVE⟩, ⟨3, 0, .WO, .LIVE⟩]
  | .OE_SUB_STAT => [⟨31, 0, .RO, .none⟩]
  | .OE_THERM => [⟨63, 48, .RO, .none⟩, ⟨47, 32, .RO, .none⟩, ⟨31, 16, .RO, .none⟩, ⟨15, 0, .RO, .none⟩]
  | .OE_FEED_PWR => [⟨32, 32, .WO, .LIVE⟩, ⟨31, 16, .RO, .none⟩, ⟨15, 0, .RO, .none⟩]
  | .OE_REF => [⟨15, 0, .RW, .LIVE⟩]
  | .OE_TXF_PWR => [⟨31, 16, .RW, .LIVE⟩, ⟨15, 0, .RO, .none⟩]
  | .OE_TUNE => [⟨63, 63, .RO, .none⟩, ⟨31, 16, .RW, .QUIESCE⟩, ⟨11, 0, .RW, .QUIESCE⟩]
  | .OE_CAL_CMD => [⟨31, 16, .WO, .LIVE⟩, ⟨1, 1, .WO, .QUIESCE⟩, ⟨0, 0, .WO, .LIVE⟩]
  | .OE_CAL_STAT => [⟨63, 63, .RO, .none⟩, ⟨62, 62, .RO, .none⟩, ⟨61, 59, .RO, .none⟩, ⟨15, 0, .RO, .none⟩]
  | .OE_EVT_CNT => [⟨47, 0, .RO, .none⟩]
  | .OE_EVT_CLR => [⟨10, 0, .WO, .LIVE⟩]
  | _ => []

/-- Register tables of the BYP block. -/
def layoutBYP : Reg → List FieldSpec
  | .BYP_ERR_FIRST => [⟨63, 63, .RWS, .LIVE⟩, ⟨55, 48, .RWS, .LIVE⟩, ⟨9, 5, .RWS, .LIVE⟩, ⟨4, 0, .RWS, .LIVE⟩]
  | .BYP_ERR_NEXT => [⟨7, 1, .RWS, .LIVE⟩]
  | .BYP_ERR_COUNT => [⟨31, 0, .RWS, .LIVE⟩]
  | .BYP_ID => [⟨11, 8, .RO, .none⟩, ⟨1, 0, .RO, .none⟩]
  | .BYP_CFG => [⟨63, 63, .RW, .IMAGE⟩, ⟨0, 0, .RW, .LIVE⟩]
  | .BYP_CMD => [⟨63, 63, .RO, .none⟩, ⟨62, 60, .RO, .none⟩, ⟨10, 10, .RW, .LIVE⟩, ⟨9, 5, .RW, .LIVE⟩,
      ⟨2, 0, .WO, .LIVE⟩]
  | .BYP_CMD_OUT => [⟨31, 0, .RW, .LIVE⟩]
  | .BYP_THERM => [⟨63, 48, .RO, .none⟩, ⟨47, 32, .RO, .none⟩, ⟨15, 0, .RO, .none⟩]
  | .BYP_IN => [⟨63, 63, .RO, .none⟩, ⟨62, 60, .RO, .none⟩, ⟨54, 52, .RO, .none⟩, ⟨47, 32, .RO, .none⟩,
      ⟨31, 0, .RO, .none⟩]
  | .BYP_OUT => [⟨63, 63, .RO, .none⟩, ⟨62, 62, .RO, .none⟩, ⟨61, 57, .RO, .none⟩, ⟨47, 32, .RO, .none⟩,
      ⟨31, 16, .RO, .none⟩, ⟨15, 0, .RO, .none⟩]
  | .BYP_CAL_CMD => [⟨31, 16, .WO, .LIVE⟩, ⟨0, 0, .WO, .LIVE⟩]
  | .BYP_CAL_STAT => [⟨63, 63, .RO, .none⟩, ⟨62, 62, .RO, .none⟩, ⟨61, 59, .RO, .none⟩, ⟨15, 0, .RO, .none⟩]
  | .BYP_EVT_CNT => [⟨47, 0, .RO, .none⟩]
  | .BYP_EVT_CLR => [⟨7, 0, .WO, .LIVE⟩]
  | _ => []

/-- The block that holds a register. -/
def Reg.block (r : Reg) : Block :=
  if r.ctorIdx < 22 then .HUB
  else if r.ctorIdx < 25 then .UCIE
  else if r.ctorIdx < 46 then .MGT
  else if r.ctorIdx < 61 then .SEC
  else if r.ctorIdx < 74 then .TIME
  else if r.ctorIdx < 78 then .MEM
  else if r.ctorIdx < 101 then .FWD
  else if r.ctorIdx < 126 then .SWC
  else if r.ctorIdx < 155 then .TM
  else if r.ctorIdx < 204 then .RED
  else if r.ctorIdx < 224 then .LANE
  else if r.ctorIdx < 233 then .D2D
  else if r.ctorIdx < 240 then .CNT
  else if r.ctorIdx < 256 then .OE
  else if r.ctorIdx < 270 then .BYP
  else if r = .VM_MC then .SWC else .RED

/-- First and one-past-last register number of a block's registers. -/
def Block.range : Block → Nat × Nat
  | .HUB => (0, 22)
  | .UCIE => (22, 25)
  | .MGT => (25, 46)
  | .SEC => (46, 61)
  | .TIME => (61, 74)
  | .MEM => (74, 78)
  | .FWD => (78, 101)
  | .SWC => (101, 126)
  | .TM => (126, 155)
  | .RED => (155, 204)
  | .LANE => (204, 224)
  | .D2D => (224, 233)
  | .CNT => (233, 240)
  | .OE => (240, 256)
  | .BYP => (256, 270)

/-- The fields of a register (reserved bits left out). -/
def Reg.layout (r : Reg) : List FieldSpec :=
  match r.block with
  | .HUB => layoutHUB r
  | .UCIE => layoutUCIE r
  | .MGT => layoutMGT r
  | .SEC => layoutSEC r
  | .TIME => layoutTIME r
  | .MEM => layoutMEM r
  | .FWD => layoutFWD r
  | .SWC => layoutSWC r
  | .TM => layoutTM r
  | .RED => layoutRED r
  | .LANE => layoutLANE r
  | .D2D => layoutD2D r
  | .CNT => layoutCNT r
  | .OE => layoutOE r
  | .BYP => layoutBYP r

/-- Where a register lies: block, offset of instance 0, stride and number of instances. -/
structure RegLoc where
  reg : Reg
  off : Nat
  stride : Nat
  count : Nat
  deriving DecidableEq, Repr

/-- Register map of the HUB block (offsets within the region). -/
def locsHUB : List RegLoc :=
  [⟨.HUB_ID, 0x18, 0x8, 1⟩, ⟨.HUB_BOOT_STAT, 0x20, 0x8, 1⟩, ⟨.HUB_DIE_CTRL, 0x28, 0x8, 1⟩,
   ⟨.HUB_ADMIT, 0x200, 0x8, 2⟩, ⟨.HUB_ERR_FIRST, 0x0, 0x8, 1⟩, ⟨.HUB_ERR_NEXT, 0x8, 0x8, 1⟩,
   ⟨.HUB_ERR_COUNT, 0x10, 0x8, 1⟩, ⟨.HUB_STRAP, 0x100, 0x8, 23⟩, ⟨.HUB_PWR_STAT, 0x1000, 0x8, 1⟩,
   ⟨.HUB_PWR_EST, 0x1008, 0x8, 1⟩, ⟨.HUB_THERM_STAT, 0x1010, 0x8, 1⟩, ⟨.HUB_AVS_CTRL, 0x1100, 0x8, 2⟩,
   ⟨.HUB_AVS_STAT, 0x1110, 0x8, 2⟩, ⟨.HUB_PWR_EVT_CNT, 0x1200, 0x8, 6⟩, ⟨.HUB_PWR_EVT_CLR, 0x1230, 0x8, 1⟩,
   ⟨.HUB_ERING_STAT, 0x2000, 0x8, 1⟩, ⟨.HUB_ERING_SEL, 0x2008, 0x8, 1⟩, ⟨.HUB_ERING_DATA, 0x2010, 0x8, 1⟩,
   ⟨.HUB_FATAL_STAT, 0x2018, 0x8, 1⟩, ⟨.HUB_INJ_CTRL, 0x2020, 0x8, 1⟩, ⟨.HUB_INJ_STAT, 0x2028, 0x8, 1⟩,
   ⟨.HUB_GUARD, 0x2030, 0x8, 1⟩]

/-- Register map of the UCIE block (offsets within the region). -/
def locsUCIE : List RegLoc :=
  [⟨.HUB_UCIE_STAT, 0x0, 0x8, 1⟩, ⟨.HUB_UCIE_CTRL, 0x8, 0x8, 1⟩, ⟨.HUB_UCIE_MEAS, 0x100, 0x8, 7⟩]

/-- Register map of the MGT block (offsets within the region). -/
def locsMGT : List RegLoc :=
  [⟨.MGT_ERR_FIRST, 0x0, 0x8, 1⟩, ⟨.MGT_ERR_NEXT, 0x8, 0x8, 1⟩, ⟨.MGT_ERR_COUNT, 0x10, 0x8, 1⟩,
   ⟨.MGT_MAC, 0x18, 0x8, 1⟩, ⟨.MGT_BOOT_CNT, 0x20, 0x8, 1⟩, ⟨.MGT_AUTH_CFG, 0x28, 0x8, 1⟩,
   ⟨.MGT_NET_CFG, 0x100, 0x8, 2⟩, ⟨.MGT_NET_GW, 0x110, 0x8, 2⟩, ⟨.MGT_PORT_STAT, 0x120, 0x8, 1⟩,
   ⟨.MGT_REQ_STAT, 0x400, 0x8, 16⟩, ⟨.MGT_EVT_DEST, 0x300, 0x8, 8⟩, ⟨.MGT_EVT_STAT, 0x30, 0x8, 1⟩,
   ⟨.MGT_FILE_STAT, 0x38, 0x8, 1⟩, ⟨.MGT_IMG_STAT, 0x40, 0x8, 1⟩, ⟨.MGT_IMG_DIG, 0x200, 0x8, 6⟩,
   ⟨.MGT_BLK_CTRL, 0x500, 0x8, 64⟩, ⟨.MGT_BLK_STAT, 0x700, 0x8, 64⟩, ⟨.MGT_STAGE_STAT, 0x48, 0x8, 1⟩,
   ⟨.MGT_CART_STAT, 0x900, 0x8, 8⟩, ⟨.MGT_DROP_CNT, 0xa00, 0x8, 10⟩, ⟨.MGT_DROP_CLR, 0xa50, 0x8, 1⟩]

/-- Register map of the SEC block (offsets within the region). -/
def locsSEC : List RegLoc :=
  [⟨.SEC_ERR_FIRST, 0x0, 0x8, 1⟩, ⟨.SEC_ERR_NEXT, 0x8, 0x8, 1⟩, ⟨.SEC_ERR_COUNT, 0x10, 0x8, 1⟩,
   ⟨.SEC_STAT, 0x18, 0x8, 1⟩, ⟨.SEC_ROLLBACK, 0x20, 0x8, 1⟩, ⟨.SEC_OWNER_DATA, 0x30, 0x8, 12⟩,
   ⟨.SEC_OWNER_CMD, 0x28, 0x8, 1⟩, ⟨.SEC_KEY_CMD, 0x100, 0x8, 1⟩, ⟨.SEC_KEY_DATA, 0x108, 0x8, 7⟩,
   ⟨.SEC_NONCE, 0x200, 0x8, 4⟩, ⟨.SEC_QUOTE_CMD, 0x220, 0x8, 1⟩, ⟨.SEC_QUOTE_DATA, 0x228, 0x8, 1⟩,
   ⟨.SEC_CERT_SEL, 0x230, 0x8, 1⟩, ⟨.SEC_CERT_DATA, 0x238, 0x8, 1⟩, ⟨.SEC_MEAS, 0x300, 0x8, 36⟩]

/-- Register map of the TIME block (offsets within the region). -/
def locsTIME : List RegLoc :=
  [⟨.TIME_ERR_FIRST, 0x0, 0x8, 1⟩, ⟨.TIME_ERR_NEXT, 0x8, 0x8, 1⟩, ⟨.TIME_ERR_COUNT, 0x10, 0x8, 1⟩,
   ⟨.TIME_NOW, 0x18, 0x8, 1⟩, ⟨.TIME_INC, 0x20, 0x8, 1⟩, ⟨.TIME_ADJ, 0x28, 0x8, 1⟩, ⟨.TIME_CTRL, 0x30, 0x8, 1⟩,
   ⟨.TIME_SRC_CFG, 0x38, 0x8, 1⟩, ⟨.TIME_STAT, 0x40, 0x8, 1⟩, ⟨.TIME_CAP_SEL, 0x48, 0x8, 1⟩,
   ⟨.TIME_CAP_DATA, 0x50, 0x8, 1⟩, ⟨.TIME_EVT_CNT, 0x100, 0x8, 5⟩, ⟨.TIME_EVT_CLR, 0x128, 0x8, 1⟩]

/-- Register map of the MEM block (offsets within the region). -/
def locsMEM : List RegLoc :=
  [⟨.MEM_FR_CTRL, 0x20000, 0x8, 1⟩, ⟨.MEM_FR_STAT, 0x20008, 0x8, 1⟩, ⟨.MEM_FR_SEL, 0x20010, 0x8, 1⟩,
   ⟨.MEM_FR_DATA, 0x20018, 0x8, 1⟩]

/-- Register map of the FWD block (offsets within the region). -/
def locsFWD : List RegLoc :=
  [⟨.FWD_ERR_FIRST, 0x0, 0x8, 1⟩, ⟨.FWD_ERR_NEXT, 0x8, 0x8, 1⟩, ⟨.FWD_ERR_COUNT, 0x10, 0x8, 1⟩,
   ⟨.FWD_DEV_DFID, 0x18, 0x8, 1⟩, ⟨.FWD_EPOCH, 0x20, 0x8, 1⟩, ⟨.FWD_AGE_CFG, 0x28, 0x8, 1⟩,
   ⟨.FWD_FILTER_CFG, 0x30, 0x8, 1⟩, ⟨.FWD_SEED, 0x38, 0x8, 1⟩, ⟨.FWD_RT_GEOM, 0x100, 0x8, 25⟩,
   ⟨.FWD_BLK_CFG, 0x200, 0x8, 64⟩, ⟨.FWD_PORT_CFG, 0x1000, 0x8, 512⟩, ⟨.FWD_PORT_MASK, 0x2000, 0x8, 512⟩,
   ⟨.FWD_CMD, 0x40, 0x8, 1⟩, ⟨.FWD_KEY, 0x48, 0x8, 1⟩, ⟨.FWD_RES, 0x50, 0x8, 1⟩, ⟨.FWD_CURSOR, 0x58, 0x8, 1⟩,
   ⟨.FWD_MISS_STAT, 0x60, 0x8, 1⟩, ⟨.FWD_LRN_STAT, 0x68, 0x8, 1⟩, ⟨.FWD_FENCE, 0x3000, 0x8, 256⟩,
   ⟨.FWD_DROP_CNT, 0x3800, 0x8, 5⟩, ⟨.FWD_DROP_CLR, 0x3828, 0x8, 1⟩, ⟨.FWD_EVT_CNT, 0x3900, 0x8, 10⟩,
   ⟨.FWD_EVT_CLR, 0x3950, 0x8, 1⟩]

/-- Register map of the SWC block (offsets within the region). -/
def locsSWC : List RegLoc :=
  [⟨.SWC_FREE_STAT, 0x0, 0x8, 1⟩, ⟨.SWC_ERR_FIRST, 0x20, 0x8, 1⟩, ⟨.SWC_ERR_NEXT, 0x28, 0x8, 1⟩,
   ⟨.SWC_ERR_COUNT, 0x30, 0x8, 1⟩, ⟨.SWC_STAGE_STAT, 0x8, 0x8, 1⟩, ⟨.SWC_HASH_SEED, 0x10, 0x8, 1⟩,
   ⟨.SWC_AUDIT_CTRL, 0x40, 0x8, 1⟩, ⟨.SWC_AUDIT_STAT, 0x48, 0x8, 1⟩, ⟨.SWC_AUDIT_RECLAIM, 0x50, 0x8, 1⟩,
   ⟨.SWC_AUDIT_LEAK, 0x100, 0x8, 64⟩, ⟨.SWC_POOL_CFG, 0x1000, 0x8, 16⟩, ⟨.SWC_POOL_STAT, 0x1080, 0x8, 16⟩,
   ⟨.SWC_REQ_CFG, 0x10000, 0x8, 912⟩, ⟨.SWC_REQ_STAT, 0x18000, 0x8, 912⟩, ⟨.SWC_MC_REGION, 0x20000, 0x8, 64⟩,
   ⟨.SWC_MC_SEL, 0x20200, 0x8, 1⟩, ⟨.SWC_MC_DATA, 0x20208, 0x8, 1⟩, ⟨.SWC_MC_CMD, 0x20210, 0x8, 1⟩,
   ⟨.SWC_BND_SEL, 0x21000, 0x8, 1⟩, ⟨.SWC_BND_INFO, 0x21008, 0x8, 1⟩, ⟨.SWC_BND_LIVE, 0x21010, 0x8, 1⟩,
   ⟨.SWC_BND_ADMIN, 0x21018, 0x8, 1⟩, ⟨.SWC_BND_CMD, 0x21020, 0x8, 1⟩, ⟨.SWC_DROP_CNT, 0x22000, 0x8, 11⟩] ++
  [⟨.SWC_DROP_CLR, 0x22080, 0x8, 1⟩]

/-- Register map of the TM block (offsets within the region). -/
def locsTM : List RegLoc :=
  [⟨.TM_ERR_FIRST, 0x0, 0x8, 1⟩, ⟨.TM_ERR_NEXT, 0x8, 0x8, 1⟩, ⟨.TM_ERR_COUNT, 0x10, 0x8, 1⟩,
   ⟨.TM_RED_SEED, 0x18, 0x8, 1⟩, ⟨.TM_SAMP_CTRL, 0x20, 0x8, 1⟩, ⟨.TM_SAT_CFG, 0x28, 0x8, 1⟩,
   ⟨.TM_SAT_STAT, 0x30, 0x8, 1⟩, ⟨.TM_MAP_SEL, 0x100, 0x8, 1⟩, ⟨.TM_MAP_DATA, 0x108, 0x8, 1⟩,
   ⟨.TM_MTR_SEL, 0x200, 0x8, 1⟩, ⟨.TM_MTR_CFG, 0x208, 0x8, 1⟩, ⟨.TM_MTR_BURST, 0x210, 0x8, 1⟩,
   ⟨.TM_QSEL, 0x300, 0x8, 1⟩, ⟨.TM_Q_CFG, 0x308, 0x8, 1⟩, ⟨.TM_Q_STAT, 0x310, 0x8, 1⟩,
   ⟨.TM_SAMP_DATA, 0x318, 0x8, 1⟩, ⟨.TM_RED_PROF, 0x1000, 0x8, 128⟩, ⟨.TM_SHP_SEL, 0x400, 0x8, 1⟩,
   ⟨.TM_SHP_CFG, 0x408, 0x8, 1⟩, ⟨.TM_PORT_SEL, 0x500, 0x8, 1⟩, ⟨.TM_SCH_CFG, 0x508, 0x8, 1⟩,
   ⟨.TM_ADM_CFG, 0x510, 0x8, 1⟩, ⟨.TM_ADM_STAT, 0x518, 0x8, 1⟩, ⟨.TM_CRD_CFG, 0x520, 0x8, 1⟩] ++
  [⟨.TM_CRD_STAT, 0x528, 0x8, 1⟩, ⟨.TM_DROP_CNT, 0x2000, 0x8, 4⟩, ⟨.TM_DROP_CLR, 0x2040, 0x8, 1⟩,
   ⟨.TM_ECN_CNT, 0x2048, 0x8, 1⟩, ⟨.TM_ADM_WAIT_CNT, 0x2050, 0x8, 1⟩]

/-- Register map of the RED block (offsets within the region). -/
def locsRED : List RegLoc :=
  [⟨.RED_ERR_FIRST, 0x0, 0x8, 1⟩, ⟨.RED_ERR_NEXT, 0x8, 0x8, 1⟩, ⟨.RED_ERR_COUNT, 0x10, 0x8, 1⟩,
   ⟨.RED_CAPS, 0x18, 0x8, 1⟩, ⟨.RED_CELL_SEL, 0x20, 0x8, 1⟩, ⟨.RED_CELL_CFG, 0x28, 0x8, 1⟩,
   ⟨.RED_CELL_STAT, 0x30, 0x8, 1⟩, ⟨.RED_KAT_CTRL, 0x38, 0x8, 1⟩, ⟨.RED_KAT_STAT, 0x40, 0x8, 1⟩,
   ⟨.RED_ARRAY_STAT, 0x100, 0x8, 16⟩, ⟨.RED_EVT_CNT, 0x200, 0x8, 6⟩, ⟨.RED_EVT_CLR, 0x230, 0x8, 1⟩,
   ⟨.SYNC_ERR_FIRST, 0x10000, 0x8, 1⟩, ⟨.SYNC_ERR_NEXT, 0x10008, 0x8, 1⟩, ⟨.SYNC_ERR_COUNT, 0x10010, 0x8, 1⟩,
   ⟨.SYNC_REC_STAT, 0x10018, 0x8, 1⟩, ⟨.SYNC_SPILL_CFG, 0x10020, 0x8, 1⟩, ⟨.SYNC_SPILL_AREA, 0x10028, 0x8, 1⟩,
   ⟨.SYNC_SPILL_STAT, 0x10030, 0x8, 1⟩, ⟨.SYNC_HOME_SEL, 0x10100, 0x8, 1⟩, ⟨.SYNC_HOME_DATA, 0x10108, 0x8, 1⟩,
   ⟨.SYNC_DESC_SEL, 0x10200, 0x8, 1⟩, ⟨.SYNC_DESC_DATA, 0x10208, 0x8, 1⟩, ⟨.SYNC_DESC_CMD, 0x10210, 0x8, 1⟩] ++
  [⟨.SYNC_DESC_STAT, 0x10218, 0x8, 1⟩, ⟨.SYNC_DESC_EXCL, 0x10220, 0x8, 1⟩, ⟨.SYNC_BLK_CFG, 0x10400, 0x8, 64⟩,
   ⟨.SYNC_BLK_STAT, 0x10600, 0x8, 64⟩, ⟨.SYNC_WATCH, 0x10800, 0x8, 64⟩, ⟨.SYNC_HIST_SEL, 0x10a00, 0x8, 1⟩,
   ⟨.SYNC_HIST_DATA, 0x10a08, 0x8, 1⟩, ⟨.SYNC_BAR_SEL, 0x11000, 0x8, 1⟩, ⟨.SYNC_BAR_CFG, 0x11008, 0x8, 1⟩,
   ⟨.SYNC_BAR_TGT, 0x11010, 0x8, 1⟩, ⟨.SYNC_BAR_STAT, 0x11018, 0x8, 1⟩, ⟨.SYNC_CRZ_SEL, 0x11100, 0x8, 1⟩,
   ⟨.SYNC_CRZ_DATA, 0x11108, 0x8, 1⟩, ⟨.SYNC_CRZ_STAT, 0x11110, 0x8, 1⟩, ⟨.SYNC_DROP_CNT, 0x12000, 0x8, 10⟩,
   ⟨.SYNC_DROP_CLR, 0x12050, 0x8, 1⟩, ⟨.SYNC_EVT_CNT, 0x12100, 0x8, 12⟩, ⟨.SYNC_EVT_CLR, 0x12160, 0x8, 1⟩,
   ⟨.RED_LCH_CFG, 0x800, 0x8, 1⟩, ⟨.RED_LCH_BLOCKS, 0x808, 0x8, 1⟩, ⟨.RED_LCH_CNT, 0x810, 0x8, 6⟩,
   ⟨.RED_LCH_CLR, 0x840, 0x8, 1⟩, ⟨.RED_LCH_LAST, 0x848, 0x8, 1⟩, ⟨.RED_LCH_DIG, 0x850, 0x8, 1⟩] ++
  [⟨.RED_LCH_PEND, 0x858, 0x8, 1⟩]

/-- Register map of the LANE block (offsets within the region). -/
def locsLANE : List RegLoc :=
  [⟨.LANE_ERR_FIRST, 0x0, 0x8, 1⟩, ⟨.LANE_ERR_NEXT, 0x8, 0x8, 1⟩, ⟨.LANE_ERR_COUNT, 0x10, 0x8, 1⟩,
   ⟨.LANE_HB_CFG, 0x18, 0x8, 1⟩, ⟨.LANE_FEC_HSEL, 0x20, 0x8, 1⟩, ⟨.LANE_FEC_HDATA, 0x28, 0x8, 1⟩,
   ⟨.LANE_CFG, 0x10000, 0x40, 512⟩, ⟨.LANE_STAT, 0x10008, 0x40, 512⟩, ⟨.LANE_PAT, 0x10010, 0x40, 512⟩,
   ⟨.LANE_PAT_STAT, 0x10018, 0x40, 512⟩, ⟨.LANE_INJ, 0x10020, 0x40, 512⟩, ⟨.LANE_FEC_CNT, 0x10028, 0x40, 512⟩,
   ⟨.LANE_TS_CORR, 0x10030, 0x40, 512⟩, ⟨.LANE_PORT_CTRL, 0x20000, 0x40, 512⟩,
   ⟨.LANE_PORT_STAT, 0x20008, 0x40, 512⟩, ⟨.LANE_RETRY, 0x20010, 0x40, 512⟩, ⟨.LANE_HB_STAT, 0x20018, 0x40, 512⟩,
   ⟨.LANE_EVT_CNT, 0x100, 0x8, 10⟩, ⟨.LANE_EVT_CLR, 0x150, 0x8, 1⟩, ⟨.LANE_LIVE, 0x20020, 0x40, 512⟩]

/-- Register map of the D2D block (offsets within the region). -/
def locsD2D : List RegLoc :=
  [⟨.D2D_ERR_FIRST, 0x0, 0x8, 1⟩, ⟨.D2D_ERR_NEXT, 0x8, 0x8, 1⟩, ⟨.D2D_ERR_COUNT, 0x10, 0x8, 1⟩,
   ⟨.D2D_STAT, 0x18, 0x8, 1⟩, ⟨.D2D_CTRL, 0x20, 0x8, 1⟩, ⟨.D2D_DROP_CNT, 0x28, 0x8, 1⟩,
   ⟨.D2D_BND_STAT, 0x100, 0x8, 16⟩, ⟨.D2D_EVT_CNT, 0x200, 0x8, 6⟩, ⟨.D2D_EVT_CLR, 0x230, 0x8, 1⟩]

/-- Register map of the CNT block (offsets within the region, within a counter set). -/
def locsCNT : List RegLoc :=
  [⟨.CNT_TICK, 0x0, 0x8, 1⟩, ⟨.CNT_CTRL, 0x8, 0x8, 1⟩, ⟨.CNT_SEL, 0x10, 0x8, 8⟩, ⟨.CNT_VAL, 0x50, 0x8, 8⟩,
   ⟨.CNT_EP_STAT, 0x90, 0x8, 1⟩, ⟨.CNT_EP_TICK, 0x98, 0x8, 1⟩, ⟨.CNT_EP_VAL, 0xa0, 0x8, 8⟩]

/-- Register map of the OE block (offsets within the region). -/
def locsOE : List RegLoc :=
  [⟨.OE_ERR_FIRST, 0x0, 0x8, 1⟩, ⟨.OE_ERR_NEXT, 0x8, 0x8, 1⟩, ⟨.OE_ERR_COUNT, 0x10, 0x8, 1⟩,
   ⟨.OE_ID, 0x18, 0x8, 1⟩, ⟨.OE_STATE, 0x20, 0x8, 1⟩, ⟨.OE_CMD, 0x28, 0x8, 1⟩, ⟨.OE_SUB_STAT, 0x30, 0x8, 1⟩,
   ⟨.OE_THERM, 0x38, 0x8, 1⟩, ⟨.OE_FEED_PWR, 0x100, 0x8, 18⟩, ⟨.OE_REF, 0x200, 0x8, 18⟩,
   ⟨.OE_TXF_PWR, 0x300, 0x8, 8⟩, ⟨.OE_TUNE, 0x400, 0x8, 144⟩, ⟨.OE_CAL_CMD, 0x40, 0x8, 1⟩,
   ⟨.OE_CAL_STAT, 0x48, 0x8, 1⟩, ⟨.OE_EVT_CNT, 0x900, 0x8, 11⟩, ⟨.OE_EVT_CLR, 0x958, 0x8, 1⟩]

/-- Register map of the BYP block (offsets within the region). -/
def locsBYP : List RegLoc :=
  [⟨.BYP_ERR_FIRST, 0x0, 0x8, 1⟩, ⟨.BYP_ERR_NEXT, 0x8, 0x8, 1⟩, ⟨.BYP_ERR_COUNT, 0x10, 0x8, 1⟩,
   ⟨.BYP_ID, 0x18, 0x8, 1⟩, ⟨.BYP_CFG, 0x20, 0x8, 1⟩, ⟨.BYP_CMD, 0x28, 0x8, 1⟩, ⟨.BYP_CMD_OUT, 0x30, 0x8, 1⟩,
   ⟨.BYP_THERM, 0x38, 0x8, 1⟩, ⟨.BYP_IN, 0x100, 0x8, 32⟩, ⟨.BYP_OUT, 0x200, 0x8, 32⟩, ⟨.BYP_CAL_CMD, 0x40, 0x8, 1⟩,
   ⟨.BYP_CAL_STAT, 0x48, 0x8, 1⟩, ⟨.BYP_EVT_CNT, 0x300, 0x8, 8⟩, ⟨.BYP_EVT_CLR, 0x340, 0x8, 1⟩]

/-- Reset values that are not 0 (R12), by register. -/
def Reg.reset : Reg → BitVec 64
  | .HUB_AVS_CTRL => 0x2ee0000000005#64
  | .HUB_INJ_CTRL => 0x1000100#64
  | .MGT_AUTH_CFG => 0xf0#64
  | .MGT_NET_CFG => 0x10000000#64
  | .TIME_INC => 0x666666666#64
  | .TIME_CTRL => 0x200014000000007d#64
  | .TIME_STAT => 0xff0000000000000#64
  | .MEM_FR_CTRL => 0xa#64
  | .FWD_EPOCH => 0x14#64
  | .FWD_AGE_CFG => 0xa#64
  | .SWC_FREE_STAT => 0x3000060000#64
  | .SWC_AUDIT_CTRL => 0xfa0#64
  | .SWC_BND_ADMIN => 0xffffffffffffffff#64
  | .TM_RED_SEED => 0x1#64
  | .TM_SAMP_CTRL => 0x4#64
  | .TM_SAT_CFG => 0x64#64
  | .TM_MTR_BURST => 0x1024001024#64
  | .TM_RED_PROF => 0x3fffffffff#64
  | .TM_SHP_CFG => 0x1024#64
  | .TM_SCH_CFG => 0x404040404#64
  | .RED_CELL_STAT => 0x18000000000000#64
  | .RED_KAT_CTRL => 0x1000000001#64
  | .RED_ARRAY_STAT => 0x300#64
  | .SYNC_SPILL_CFG => 0x400000000#64
  | .RED_LCH_CFG => 0x3e8#64
  | .LANE_HB_CFG => 0x640014#64
  | .LANE_PAT => 0x200000000000000#64
  | .LANE_INJ => 0x340000000000000#64
  | .CNT_CTRL => 0x4000000000000000#64
  | .BYP_CFG => 0x1#64
  | _ => 0#64

/-- The reset values of `Reg.reset` by register number, for the sparse register store. -/
def resetTable : List (Nat × BitVec 64) :=
  [(Reg.ctorIdx .HUB_AVS_CTRL, 0x2ee0000000005#64),
   (Reg.ctorIdx .HUB_INJ_CTRL, 0x1000100#64),
   (Reg.ctorIdx .MGT_AUTH_CFG, 0xf0#64),
   (Reg.ctorIdx .MGT_NET_CFG, 0x10000000#64),
   (Reg.ctorIdx .TIME_INC, 0x666666666#64),
   (Reg.ctorIdx .TIME_CTRL, 0x200014000000007d#64),
   (Reg.ctorIdx .TIME_STAT, 0xff0000000000000#64),
   (Reg.ctorIdx .MEM_FR_CTRL, 0xa#64),
   (Reg.ctorIdx .FWD_EPOCH, 0x14#64),
   (Reg.ctorIdx .FWD_AGE_CFG, 0xa#64),
   (Reg.ctorIdx .SWC_FREE_STAT, 0x3000060000#64),
   (Reg.ctorIdx .SWC_AUDIT_CTRL, 0xfa0#64),
   (Reg.ctorIdx .SWC_BND_ADMIN, 0xffffffffffffffff#64),
   (Reg.ctorIdx .TM_RED_SEED, 0x1#64),
   (Reg.ctorIdx .TM_SAMP_CTRL, 0x4#64),
   (Reg.ctorIdx .TM_SAT_CFG, 0x64#64),
   (Reg.ctorIdx .TM_MTR_BURST, 0x1024001024#64),
   (Reg.ctorIdx .TM_RED_PROF, 0x3fffffffff#64),
   (Reg.ctorIdx .TM_SHP_CFG, 0x1024#64),
   (Reg.ctorIdx .TM_SCH_CFG, 0x404040404#64),
   (Reg.ctorIdx .RED_CELL_STAT, 0x18000000000000#64),
   (Reg.ctorIdx .RED_KAT_CTRL, 0x1000000001#64),
   (Reg.ctorIdx .RED_ARRAY_STAT, 0x300#64),
   (Reg.ctorIdx .SYNC_SPILL_CFG, 0x400000000#64),
   (Reg.ctorIdx .RED_LCH_CFG, 0x3e8#64),
   (Reg.ctorIdx .LANE_HB_CFG, 0x640014#64),
   (Reg.ctorIdx .LANE_PAT, 0x200000000000000#64),
   (Reg.ctorIdx .LANE_INJ, 0x340000000000000#64),
   (Reg.ctorIdx .CNT_CTRL, 0x4000000000000000#64),
   (Reg.ctorIdx .BYP_CFG, 0x1#64)]

/-- The RWS bits of each register that has any (R11), by register number. -/
def rwsTable : List (Nat × BitVec 64) :=
  [(Reg.ctorIdx .HUB_BOOT_STAT, 0x380000000000000#64),
   (Reg.ctorIdx .HUB_ERR_FIRST, 0x80ff00000000001f#64),
   (Reg.ctorIdx .HUB_ERR_NEXT, 0x3fe#64),
   (Reg.ctorIdx .HUB_ERR_COUNT, 0xffffffff#64),
   (Reg.ctorIdx .HUB_PWR_STAT, 0x1c00000000000000#64),
   (Reg.ctorIdx .HUB_FATAL_STAT, 0xfffffc00ffffffff#64),
   (Reg.ctorIdx .MGT_ERR_FIRST, 0x80ff0000000000ff#64),
   (Reg.ctorIdx .MGT_ERR_NEXT, 0x3fe#64),
   (Reg.ctorIdx .MGT_ERR_COUNT, 0xffffffff#64),
   (Reg.ctorIdx .SEC_ERR_FIRST, 0x80ff000000000007#64),
   (Reg.ctorIdx .SEC_ERR_NEXT, 0xfe#64),
   (Reg.ctorIdx .SEC_ERR_COUNT, 0xffffffff#64),
   (Reg.ctorIdx .SEC_STAT, 0xffffffff#64),
   (Reg.ctorIdx .TIME_ERR_FIRST, 0x80ff0000000003ff#64),
   (Reg.ctorIdx .TIME_ERR_NEXT, 0xe#64),
   (Reg.ctorIdx .TIME_ERR_COUNT, 0xffffffff#64),
   (Reg.ctorIdx .FWD_ERR_FIRST, 0x80ff000003ffffff#64),
   (Reg.ctorIdx .FWD_ERR_NEXT, 0x3e#64),
   (Reg.ctorIdx .FWD_ERR_COUNT, 0xffffffff#64),
   (Reg.ctorIdx .SWC_ERR_FIRST, 0x80ff00001fffffff#64),
   (Reg.ctorIdx .SWC_ERR_NEXT, 0x1fe#64),
   (Reg.ctorIdx .SWC_ERR_COUNT, 0xffffffff#64),
   (Reg.ctorIdx .TM_ERR_FIRST, 0x80ff0000000003ff#64),
   (Reg.ctorIdx .TM_ERR_NEXT, 0x1e#64),
   (Reg.ctorIdx .TM_ERR_COUNT, 0xffffffff#64),
   (Reg.ctorIdx .RED_ERR_FIRST, 0x80ffff80ffffffff#64),
   (Reg.ctorIdx .RED_ERR_NEXT, 0xfe#64),
   (Reg.ctorIdx .RED_ERR_COUNT, 0xffffffff#64),
   (Reg.ctorIdx .SYNC_ERR_FIRST, 0x80ff0000ffffffff#64),
   (Reg.ctorIdx .SYNC_ERR_NEXT, 0x7e#64),
   (Reg.ctorIdx .SYNC_ERR_COUNT, 0xffffffff#64),
   (Reg.ctorIdx .LANE_ERR_FIRST, 0x80ff0000000003ff#64),
   (Reg.ctorIdx .LANE_ERR_NEXT, 0x7e#64),
   (Reg.ctorIdx .LANE_ERR_COUNT, 0xffffffff#64),
   (Reg.ctorIdx .D2D_ERR_FIRST, 0x80ff00000000001f#64),
   (Reg.ctorIdx .D2D_ERR_NEXT, 0x7e#64),
   (Reg.ctorIdx .D2D_ERR_COUNT, 0xffffffff#64),
   (Reg.ctorIdx .OE_ERR_FIRST, 0x80ff0000000007f1#64),
   (Reg.ctorIdx .OE_ERR_NEXT, 0x1fe#64),
   (Reg.ctorIdx .OE_ERR_COUNT, 0xffffffff#64),
   (Reg.ctorIdx .BYP_ERR_FIRST, 0x80ff0000000003ff#64),
   (Reg.ctorIdx .BYP_ERR_NEXT, 0xfe#64),
   (Reg.ctorIdx .BYP_ERR_COUNT, 0xffffffff#64)]

end Sys2Proof.Machine

namespace Sys2Proof.Machine.F

abbrev HUB_ID_variant : Fld := ⟨.HUB_ID, 63, 60⟩
abbrev HUB_ID_serial : Fld := ⟨.HUB_ID, 47, 0⟩
abbrev HUB_BOOT_STAT_ready : Fld := ⟨.HUB_BOOT_STAT, 63, 63⟩
abbrev HUB_BOOT_STAT_degraded : Fld := ⟨.HUB_BOOT_STAT, 62, 62⟩
abbrev HUB_BOOT_STAT_stage : Fld := ⟨.HUB_BOOT_STAT, 61, 58⟩
abbrev HUB_BOOT_STAT_cause : Fld := ⟨.HUB_BOOT_STAT, 57, 55⟩
abbrev HUB_BOOT_STAT_boot_ms : Fld := ⟨.HUB_BOOT_STAT, 15, 0⟩
abbrev HUB_DIE_CTRL_busy : Fld := ⟨.HUB_DIE_CTRL, 63, 63⟩
abbrev HUB_DIE_CTRL_status : Fld := ⟨.HUB_DIE_CTRL, 62, 61⟩
abbrev HUB_DIE_CTRL_confirm : Fld := ⟨.HUB_DIE_CTRL, 31, 16⟩
abbrev HUB_DIE_CTRL_target : Fld := ⟨.HUB_DIE_CTRL, 7, 3⟩
abbrev HUB_DIE_CTRL_op : Fld := ⟨.HUB_DIE_CTRL, 2, 0⟩
abbrev HUB_ADMIT_blocks : Fld := ⟨.HUB_ADMIT, 63, 0⟩
abbrev HUB_ERR_FIRST_valid : Fld := ⟨.HUB_ERR_FIRST, 63, 63⟩
abbrev HUB_ERR_FIRST_code : Fld := ⟨.HUB_ERR_FIRST, 55, 48⟩
abbrev HUB_ERR_FIRST_die : Fld := ⟨.HUB_ERR_FIRST, 4, 0⟩
abbrev HUB_ERR_NEXT_seen : Fld := ⟨.HUB_ERR_NEXT, 9, 1⟩
abbrev HUB_ERR_COUNT_count : Fld := ⟨.HUB_ERR_COUNT, 31, 0⟩
abbrev HUB_STRAP_state : Fld := ⟨.HUB_STRAP, 63, 61⟩
abbrev HUB_STRAP_bad : Fld := ⟨.HUB_STRAP, 60, 60⟩
abbrev HUB_STRAP_stepping : Fld := ⟨.HUB_STRAP, 59, 59⟩
abbrev HUB_STRAP_word : Fld := ⟨.HUB_STRAP, 15, 0⟩
abbrev HUB_PWR_STAT_step : Fld := ⟨.HUB_PWR_STAT, 63, 61⟩
abbrev HUB_PWR_STAT_deepest : Fld := ⟨.HUB_PWR_STAT, 60, 58⟩
abbrev HUB_PWR_STAT_rail : Fld := ⟨.HUB_PWR_STAT, 45, 32⟩
abbrev HUB_PWR_STAT_hold_us : Fld := ⟨.HUB_PWR_STAT, 31, 0⟩
abbrev HUB_PWR_EST_total : Fld := ⟨.HUB_PWR_EST, 63, 52⟩
abbrev HUB_PWR_EST_core0 : Fld := ⟨.HUB_PWR_EST, 51, 42⟩
abbrev HUB_PWR_EST_core1 : Fld := ⟨.HUB_PWR_EST, 41, 32⟩
abbrev HUB_PWR_EST_engines : Fld := ⟨.HUB_PWR_EST, 31, 22⟩
abbrev HUB_PWR_EST_gddr : Fld := ⟨.HUB_PWR_EST, 21, 12⟩
abbrev HUB_PWR_EST_rest : Fld := ⟨.HUB_PWR_EST, 11, 0⟩
abbrev HUB_THERM_STAT_state : Fld := ⟨.HUB_THERM_STAT, 35, 0⟩
abbrev HUB_AVS_CTRL_mode : Fld := ⟨.HUB_AVS_CTRL, 63, 63⟩
abbrev HUB_AVS_CTRL_forced : Fld := ⟨.HUB_AVS_CTRL, 51, 40⟩
abbrev HUB_AVS_CTRL_guard : Fld := ⟨.HUB_AVS_CTRL, 7, 0⟩
abbrev HUB_AVS_STAT_setpoint : Fld := ⟨.HUB_AVS_STAT, 63, 52⟩
abbrev HUB_AVS_STAT_speed : Fld := ⟨.HUB_AVS_STAT, 51, 36⟩
abbrev HUB_AVS_STAT_s105 : Fld := ⟨.HUB_AVS_STAT, 35, 20⟩
abbrev HUB_AVS_STAT_temp : Fld := ⟨.HUB_AVS_STAT, 15, 0⟩
abbrev HUB_PWR_EVT_CNT_events : Fld := ⟨.HUB_PWR_EVT_CNT, 47, 0⟩
abbrev HUB_PWR_EVT_CLR_clear : Fld := ⟨.HUB_PWR_EVT_CLR, 5, 0⟩
abbrev HUB_ERING_STAT_head : Fld := ⟨.HUB_ERING_STAT, 63, 54⟩
abbrev HUB_ERING_STAT_held : Fld := ⟨.HUB_ERING_STAT, 53, 43⟩
abbrev HUB_ERING_STAT_lost : Fld := ⟨.HUB_ERING_STAT, 31, 16⟩
abbrev HUB_ERING_STAT_overwritten : Fld := ⟨.HUB_ERING_STAT, 15, 0⟩
abbrev HUB_ERING_SEL_clear : Fld := ⟨.HUB_ERING_SEL, 63, 63⟩
abbrev HUB_ERING_SEL_entry : Fld := ⟨.HUB_ERING_SEL, 11, 2⟩
abbrev HUB_ERING_SEL_word : Fld := ⟨.HUB_ERING_SEL, 1, 0⟩
abbrev HUB_ERING_DATA_data : Fld := ⟨.HUB_ERING_DATA, 63, 0⟩
abbrev HUB_FATAL_STAT_valid1 : Fld := ⟨.HUB_FATAL_STAT, 63, 63⟩
abbrev HUB_FATAL_STAT_cause1 : Fld := ⟨.HUB_FATAL_STAT, 62, 58⟩
abbrev HUB_FATAL_STAT_die1 : Fld := ⟨.HUB_FATAL_STAT, 57, 53⟩
abbrev HUB_FATAL_STAT_valid2 : Fld := ⟨.HUB_FATAL_STAT, 52, 52⟩
abbrev HUB_FATAL_STAT_cause2 : Fld := ⟨.HUB_FATAL_STAT, 51, 47⟩
abbrev HUB_FATAL_STAT_die2 : Fld := ⟨.HUB_FATAL_STAT, 46, 42⟩
abbrev HUB_FATAL_STAT_count : Fld := ⟨.HUB_FATAL_STAT, 31, 0⟩
abbrev HUB_INJ_CTRL_busy : Fld := ⟨.HUB_INJ_CTRL, 63, 63⟩
abbrev HUB_INJ_CTRL_status : Fld := ⟨.HUB_INJ_CTRL, 62, 61⟩
abbrev HUB_INJ_CTRL_confirm : Fld := ⟨.HUB_INJ_CTRL, 47, 32⟩
abbrev HUB_INJ_CTRL_count : Fld := ⟨.HUB_INJ_CTRL, 31, 24⟩
abbrev HUB_INJ_CTRL_bits : Fld := ⟨.HUB_INJ_CTRL, 9, 8⟩
abbrev HUB_INJ_CTRL_die : Fld := ⟨.HUB_INJ_CTRL, 7, 7⟩
abbrev HUB_INJ_CTRL_target : Fld := ⟨.HUB_INJ_CTRL, 4, 1⟩
abbrev HUB_INJ_CTRL_arm : Fld := ⟨.HUB_INJ_CTRL, 0, 0⟩
abbrev HUB_INJ_STAT_remaining : Fld := ⟨.HUB_INJ_STAT, 47, 40⟩
abbrev HUB_INJ_STAT_done : Fld := ⟨.HUB_INJ_STAT, 39, 0⟩
abbrev HUB_GUARD_guard : Fld := ⟨.HUB_GUARD, 0, 0⟩
abbrev HUB_UCIE_STAT_state : Fld := ⟨.HUB_UCIE_STAT, 63, 61⟩
abbrev HUB_UCIE_STAT_rate : Fld := ⟨.HUB_UCIE_STAT, 60, 59⟩
abbrev HUB_UCIE_STAT_repaired : Fld := ⟨.HUB_UCIE_STAT, 58, 56⟩
abbrev HUB_UCIE_STAT_streams : Fld := ⟨.HUB_UCIE_STAT, 55, 53⟩
abbrev HUB_UCIE_CTRL_readmit : Fld := ⟨.HUB_UCIE_CTRL, 1, 1⟩
abbrev HUB_UCIE_CTRL_enable : Fld := ⟨.HUB_UCIE_CTRL, 0, 0⟩
abbrev HUB_UCIE_MEAS_meas : Fld := ⟨.HUB_UCIE_MEAS, 63, 0⟩
abbrev MGT_ERR_FIRST_valid : Fld := ⟨.MGT_ERR_FIRST, 63, 63⟩
abbrev MGT_ERR_FIRST_code : Fld := ⟨.MGT_ERR_FIRST, 55, 48⟩
abbrev MGT_ERR_FIRST_position : Fld := ⟨.MGT_ERR_FIRST, 7, 4⟩
abbrev MGT_ERR_FIRST_site : Fld := ⟨.MGT_ERR_FIRST, 3, 0⟩
abbrev MGT_ERR_NEXT_seen : Fld := ⟨.MGT_ERR_NEXT, 9, 1⟩
abbrev MGT_ERR_COUNT_count : Fld := ⟨.MGT_ERR_COUNT, 31, 0⟩
abbrev MGT_MAC_base : Fld := ⟨.MGT_MAC, 47, 0⟩
abbrev MGT_BOOT_CNT_count : Fld := ⟨.MGT_BOOT_CNT, 31, 0⟩
abbrev MGT_AUTH_CFG_key_next : Fld := ⟨.MGT_AUTH_CFG, 7, 4⟩
abbrev MGT_AUTH_CFG_key_cur : Fld := ⟨.MGT_AUTH_CFG, 3, 0⟩
abbrev MGT_NET_CFG_addr : Fld := ⟨.MGT_NET_CFG, 63, 32⟩
abbrev MGT_NET_CFG_prefix : Fld := ⟨.MGT_NET_CFG, 29, 24⟩
abbrev MGT_NET_CFG_vid : Fld := ⟨.MGT_NET_CFG, 23, 12⟩
abbrev MGT_NET_GW_gateway : Fld := ⟨.MGT_NET_GW, 31, 0⟩
abbrev MGT_PORT_STAT_up : Fld := ⟨.MGT_PORT_STAT, 7, 0⟩
abbrev MGT_REQ_STAT_high : Fld := ⟨.MGT_REQ_STAT, 63, 32⟩
abbrev MGT_REQ_STAT_valid : Fld := ⟨.MGT_REQ_STAT, 31, 31⟩
abbrev MGT_REQ_STAT_accepted : Fld := ⟨.MGT_REQ_STAT, 30, 0⟩
abbrev MGT_EVT_DEST_enable : Fld := ⟨.MGT_EVT_DEST, 63, 63⟩
abbrev MGT_EVT_DEST_port : Fld := ⟨.MGT_EVT_DEST, 47, 32⟩
abbrev MGT_EVT_DEST_addr : Fld := ⟨.MGT_EVT_DEST, 31, 0⟩
abbrev MGT_EVT_STAT_next : Fld := ⟨.MGT_EVT_STAT, 63, 32⟩
abbrev MGT_EVT_STAT_held : Fld := ⟨.MGT_EVT_STAT, 31, 16⟩
abbrev MGT_EVT_STAT_lost : Fld := ⟨.MGT_EVT_STAT, 15, 0⟩
abbrev MGT_FILE_STAT_state : Fld := ⟨.MGT_FILE_STAT, 63, 61⟩
abbrev MGT_FILE_STAT_type : Fld := ⟨.MGT_FILE_STAT, 60, 58⟩
abbrev MGT_FILE_STAT_last : Fld := ⟨.MGT_FILE_STAT, 57, 54⟩
abbrev MGT_FILE_STAT_bytes : Fld := ⟨.MGT_FILE_STAT, 31, 0⟩
abbrev MGT_IMG_STAT_active : Fld := ⟨.MGT_IMG_STAT, 63, 63⟩
abbrev MGT_IMG_STAT_slot : Fld := ⟨.MGT_IMG_STAT, 62, 62⟩
abbrev MGT_IMG_STAT_staged : Fld := ⟨.MGT_IMG_STAT, 61, 61⟩
abbrev MGT_IMG_STAT_regions : Fld := ⟨.MGT_IMG_STAT, 60, 52⟩
abbrev MGT_IMG_STAT_id : Fld := ⟨.MGT_IMG_STAT, 47, 0⟩
abbrev MGT_IMG_DIG_digest : Fld := ⟨.MGT_IMG_DIG, 63, 0⟩
abbrev MGT_BLK_CTRL_quiesce : Fld := ⟨.MGT_BLK_CTRL, 0, 0⟩
abbrev MGT_BLK_STAT_quiesced : Fld := ⟨.MGT_BLK_STAT, 63, 63⟩
abbrev MGT_BLK_STAT_chunks : Fld := ⟨.MGT_BLK_STAT, 47, 32⟩
abbrev MGT_BLK_STAT_frames : Fld := ⟨.MGT_BLK_STAT, 31, 0⟩
abbrev MGT_STAGE_STAT_role : Fld := ⟨.MGT_STAGE_STAT, 63, 62⟩
abbrev MGT_STAGE_STAT_epoch : Fld := ⟨.MGT_STAGE_STAT, 61, 46⟩
abbrev MGT_STAGE_STAT_controller : Fld := ⟨.MGT_STAGE_STAT, 45, 42⟩
abbrev MGT_STAGE_STAT_priority : Fld := ⟨.MGT_STAGE_STAT, 41, 34⟩
abbrev MGT_STAGE_STAT_position : Fld := ⟨.MGT_STAGE_STAT, 33, 30⟩
abbrev MGT_STAGE_STAT_peers : Fld := ⟨.MGT_STAGE_STAT, 15, 0⟩
abbrev MGT_CART_STAT_present : Fld := ⟨.MGT_CART_STAT, 63, 63⟩
abbrev MGT_CART_STAT_enable : Fld := ⟨.MGT_CART_STAT, 62, 62⟩
abbrev MGT_CART_STAT_valid : Fld := ⟨.MGT_CART_STAT, 61, 61⟩
abbrev MGT_CART_STAT_state : Fld := ⟨.MGT_CART_STAT, 60, 58⟩
abbrev MGT_CART_STAT_part : Fld := ⟨.MGT_CART_STAT, 39, 24⟩
abbrev MGT_CART_STAT_loss : Fld := ⟨.MGT_CART_STAT, 23, 16⟩
abbrev MGT_CART_STAT_temp : Fld := ⟨.MGT_CART_STAT, 15, 0⟩
abbrev MGT_DROP_CNT_frames : Fld := ⟨.MGT_DROP_CNT, 47, 0⟩
abbrev MGT_DROP_CLR_clear : Fld := ⟨.MGT_DROP_CLR, 9, 0⟩
abbrev SEC_ERR_FIRST_valid : Fld := ⟨.SEC_ERR_FIRST, 63, 63⟩
abbrev SEC_ERR_FIRST_code : Fld := ⟨.SEC_ERR_FIRST, 55, 48⟩
abbrev SEC_ERR_FIRST_key : Fld := ⟨.SEC_ERR_FIRST, 2, 2⟩
abbrev SEC_ERR_FIRST_rsa : Fld := ⟨.SEC_ERR_FIRST, 1, 1⟩
abbrev SEC_ERR_FIRST_slh : Fld := ⟨.SEC_ERR_FIRST, 0, 0⟩
abbrev SEC_ERR_NEXT_seen : Fld := ⟨.SEC_ERR_NEXT, 7, 1⟩
abbrev SEC_ERR_COUNT_count : Fld := ⟨.SEC_ERR_COUNT, 31, 0⟩
abbrev SEC_STAT_rollback : Fld := ⟨.SEC_STAT, 63, 58⟩
abbrev SEC_STAT_debug : Fld := ⟨.SEC_STAT, 57, 57⟩
abbrev SEC_STAT_owner : Fld := ⟨.SEC_STAT, 56, 56⟩
abbrev SEC_STAT_recovery : Fld := ⟨.SEC_STAT, 55, 55⟩
abbrev SEC_STAT_fw_slot : Fld := ⟨.SEC_STAT, 54, 54⟩
abbrev SEC_STAT_fw_version : Fld := ⟨.SEC_STAT, 53, 48⟩
abbrev SEC_STAT_debug_tries : Fld := ⟨.SEC_STAT, 31, 0⟩
abbrev SEC_ROLLBACK_confirm : Fld := ⟨.SEC_ROLLBACK, 16, 1⟩
abbrev SEC_ROLLBACK_commit : Fld := ⟨.SEC_ROLLBACK, 0, 0⟩
abbrev SEC_OWNER_DATA_digest : Fld := ⟨.SEC_OWNER_DATA, 63, 0⟩
abbrev SEC_OWNER_CMD_status : Fld := ⟨.SEC_OWNER_CMD, 63, 62⟩
abbrev SEC_OWNER_CMD_confirm : Fld := ⟨.SEC_OWNER_CMD, 16, 1⟩
abbrev SEC_OWNER_CMD_enrol : Fld := ⟨.SEC_OWNER_CMD, 0, 0⟩
abbrev SEC_KEY_CMD_status : Fld := ⟨.SEC_KEY_CMD, 63, 62⟩
abbrev SEC_KEY_CMD_slot : Fld := ⟨.SEC_KEY_CMD, 5, 2⟩
abbrev SEC_KEY_CMD_op : Fld := ⟨.SEC_KEY_CMD, 1, 0⟩
abbrev SEC_KEY_DATA_wrapped : Fld := ⟨.SEC_KEY_DATA, 63, 0⟩
abbrev SEC_NONCE_nonce : Fld := ⟨.SEC_NONCE, 63, 0⟩
abbrev SEC_QUOTE_CMD_busy : Fld := ⟨.SEC_QUOTE_CMD, 63, 63⟩
abbrev SEC_QUOTE_CMD_status : Fld := ⟨.SEC_QUOTE_CMD, 62, 61⟩
abbrev SEC_QUOTE_CMD_word : Fld := ⟨.SEC_QUOTE_CMD, 12, 1⟩
abbrev SEC_QUOTE_CMD_start : Fld := ⟨.SEC_QUOTE_CMD, 0, 0⟩
abbrev SEC_QUOTE_DATA_data : Fld := ⟨.SEC_QUOTE_DATA, 63, 0⟩
abbrev SEC_CERT_SEL_cert : Fld := ⟨.SEC_CERT_SEL, 63, 63⟩
abbrev SEC_CERT_SEL_length : Fld := ⟨.SEC_CERT_SEL, 47, 32⟩
abbrev SEC_CERT_SEL_word : Fld := ⟨.SEC_CERT_SEL, 11, 0⟩
abbrev SEC_CERT_DATA_data : Fld := ⟨.SEC_CERT_DATA, 63, 0⟩
abbrev SEC_MEAS_value : Fld := ⟨.SEC_MEAS, 63, 0⟩
abbrev TIME_ERR_FIRST_valid : Fld := ⟨.TIME_ERR_FIRST, 63, 63⟩
abbrev TIME_ERR_FIRST_code : Fld := ⟨.TIME_ERR_FIRST, 55, 48⟩
abbrev TIME_ERR_FIRST_port : Fld := ⟨.TIME_ERR_FIRST, 9, 0⟩
abbrev TIME_ERR_NEXT_seen : Fld := ⟨.TIME_ERR_NEXT, 3, 1⟩
abbrev TIME_ERR_COUNT_count : Fld := ⟨.TIME_ERR_COUNT, 31, 0⟩
abbrev TIME_NOW_ns : Fld := ⟨.TIME_NOW, 63, 32⟩
abbrev TIME_NOW_frac : Fld := ⟨.TIME_NOW, 31, 0⟩
abbrev TIME_INC_inc : Fld := ⟨.TIME_INC, 63, 0⟩
abbrev TIME_ADJ_step : Fld := ⟨.TIME_ADJ, 63, 0⟩
abbrev TIME_CTRL_mode : Fld := ⟨.TIME_CTRL, 63, 63⟩
abbrev TIME_CTRL_root : Fld := ⟨.TIME_CTRL, 62, 62⟩
abbrev TIME_CTRL_tx : Fld := ⟨.TIME_CTRL, 61, 61⟩
abbrev TIME_CTRL_epoch : Fld := ⟨.TIME_CTRL, 44, 40⟩
abbrev TIME_CTRL_interval : Fld := ⟨.TIME_CTRL, 9, 0⟩
abbrev TIME_SRC_CFG_pri_en : Fld := ⟨.TIME_SRC_CFG, 63, 63⟩
abbrev TIME_SRC_CFG_sec_en : Fld := ⟨.TIME_SRC_CFG, 62, 62⟩
abbrev TIME_SRC_CFG_secondary : Fld := ⟨.TIME_SRC_CFG, 25, 16⟩
abbrev TIME_SRC_CFG_primary : Fld := ⟨.TIME_SRC_CFG, 9, 0⟩
abbrev TIME_STAT_state : Fld := ⟨.TIME_STAT, 63, 62⟩
abbrev TIME_STAT_source : Fld := ⟨.TIME_STAT, 61, 60⟩
abbrev TIME_STAT_steps : Fld := ⟨.TIME_STAT, 59, 52⟩
abbrev TIME_STAT_offset : Fld := ⟨.TIME_STAT, 31, 0⟩
abbrev TIME_CAP_SEL_next : Fld := ⟨.TIME_CAP_SEL, 15, 12⟩
abbrev TIME_CAP_SEL_src : Fld := ⟨.TIME_CAP_SEL, 6, 6⟩
abbrev TIME_CAP_SEL_entry : Fld := ⟨.TIME_CAP_SEL, 5, 2⟩
abbrev TIME_CAP_SEL_word : Fld := ⟨.TIME_CAP_SEL, 1, 0⟩
abbrev TIME_CAP_DATA_data : Fld := ⟨.TIME_CAP_DATA, 63, 0⟩
abbrev TIME_EVT_CNT_events : Fld := ⟨.TIME_EVT_CNT, 47, 0⟩
abbrev TIME_EVT_CLR_clear : Fld := ⟨.TIME_EVT_CLR, 4, 0⟩
abbrev MEM_FR_CTRL_freeze : Fld := ⟨.MEM_FR_CTRL, 63, 63⟩
abbrev MEM_FR_CTRL_snap : Fld := ⟨.MEM_FR_CTRL, 62, 62⟩
abbrev MEM_FR_CTRL_period : Fld := ⟨.MEM_FR_CTRL, 9, 0⟩
abbrev MEM_FR_STAT_head : Fld := ⟨.MEM_FR_STAT, 63, 44⟩
abbrev MEM_FR_STAT_lost : Fld := ⟨.MEM_FR_STAT, 43, 32⟩
abbrev MEM_FR_STAT_overwritten : Fld := ⟨.MEM_FR_STAT, 31, 0⟩
abbrev MEM_FR_SEL_entry : Fld := ⟨.MEM_FR_SEL, 24, 5⟩
abbrev MEM_FR_SEL_word : Fld := ⟨.MEM_FR_SEL, 4, 0⟩
abbrev MEM_FR_DATA_data : Fld := ⟨.MEM_FR_DATA, 63, 0⟩
abbrev FWD_ERR_FIRST_valid : Fld := ⟨.FWD_ERR_FIRST, 63, 63⟩
abbrev FWD_ERR_FIRST_code : Fld := ⟨.FWD_ERR_FIRST, 55, 48⟩
abbrev FWD_ERR_FIRST_key : Fld := ⟨.FWD_ERR_FIRST, 25, 0⟩
abbrev FWD_ERR_NEXT_seen : Fld := ⟨.FWD_ERR_NEXT, 5, 1⟩
abbrev FWD_ERR_COUNT_count : Fld := ⟨.FWD_ERR_COUNT, 31, 0⟩
abbrev FWD_DEV_DFID_dfid : Fld := ⟨.FWD_DEV_DFID, 23, 0⟩
abbrev FWD_EPOCH_draining : Fld := ⟨.FWD_EPOCH, 63, 63⟩
abbrev FWD_EPOCH_epoch : Fld := ⟨.FWD_EPOCH, 48, 48⟩
abbrev FWD_EPOCH_remain : Fld := ⟨.FWD_EPOCH, 31, 16⟩
abbrev FWD_EPOCH_drain : Fld := ⟨.FWD_EPOCH, 10, 0⟩
abbrev FWD_AGE_CFG_tick : Fld := ⟨.FWD_AGE_CFG, 35, 20⟩
abbrev FWD_AGE_CFG_period : Fld := ⟨.FWD_AGE_CFG, 4, 0⟩
abbrev FWD_FILTER_CFG_doubled : Fld := ⟨.FWD_FILTER_CFG, 0, 0⟩
abbrev FWD_SEED_seed : Fld := ⟨.FWD_SEED, 31, 0⟩
abbrev FWD_RT_GEOM_enable : Fld := ⟨.FWD_RT_GEOM, 21, 21⟩
abbrev FWD_RT_GEOM_base : Fld := ⟨.FWD_RT_GEOM, 20, 6⟩
abbrev FWD_RT_GEOM_size : Fld := ⟨.FWD_RT_GEOM, 3, 0⟩
abbrev FWD_BLK_CFG_learn : Fld := ⟨.FWD_BLK_CFG, 15, 15⟩
abbrev FWD_BLK_CFG_age_limit : Fld := ⟨.FWD_BLK_CFG, 14, 0⟩
abbrev FWD_PORT_CFG_learn : Fld := ⟨.FWD_PORT_CFG, 15, 15⟩
abbrev FWD_PORT_CFG_tgt_kind : Fld := ⟨.FWD_PORT_CFG, 14, 13⟩
abbrev FWD_PORT_CFG_target : Fld := ⟨.FWD_PORT_CFG, 9, 0⟩
abbrev FWD_PORT_MASK_blocks : Fld := ⟨.FWD_PORT_MASK, 63, 0⟩
abbrev FWD_CMD_busy : Fld := ⟨.FWD_CMD, 63, 63⟩
abbrev FWD_CMD_status : Fld := ⟨.FWD_CMD, 62, 59⟩
abbrev FWD_CMD_count : Fld := ⟨.FWD_CMD, 44, 20⟩
abbrev FWD_CMD_scope : Fld := ⟨.FWD_CMD, 11, 10⟩
abbrev FWD_CMD_table : Fld := ⟨.FWD_CMD, 7, 4⟩
abbrev FWD_CMD_op : Fld := ⟨.FWD_CMD, 3, 0⟩
abbrev FWD_KEY_block : Fld := ⟨.FWD_KEY, 57, 52⟩
abbrev FWD_KEY_rank : Fld := ⟨.FWD_KEY, 51, 32⟩
abbrev FWD_KEY_flush_kind : Fld := ⟨.FWD_KEY, 31, 30⟩
abbrev FWD_KEY_static : Fld := ⟨.FWD_KEY, 29, 29⟩
abbrev FWD_KEY_length : Fld := ⟨.FWD_KEY, 28, 24⟩
abbrev FWD_KEY_prefix : Fld := ⟨.FWD_KEY, 23, 0⟩
abbrev FWD_RES_valid : Fld := ⟨.FWD_RES, 63, 63⟩
abbrev FWD_RES_poisoned : Fld := ⟨.FWD_RES, 62, 62⟩
abbrev FWD_RES_kind : Fld := ⟨.FWD_RES, 61, 60⟩
abbrev FWD_RES_tgt_kind : Fld := ⟨.FWD_RES, 59, 58⟩
abbrev FWD_RES_target : Fld := ⟨.FWD_RES, 57, 48⟩
abbrev FWD_RES_dfid : Fld := ⟨.FWD_RES, 47, 24⟩
abbrev FWD_RES_ts : Fld := ⟨.FWD_RES, 15, 0⟩
abbrev FWD_CURSOR_pos : Fld := ⟨.FWD_CURSOR, 24, 0⟩
abbrev FWD_MISS_STAT_cells : Fld := ⟨.FWD_MISS_STAT, 20, 9⟩
abbrev FWD_MISS_STAT_pending : Fld := ⟨.FWD_MISS_STAT, 8, 0⟩
abbrev FWD_LRN_STAT_static : Fld := ⟨.FWD_LRN_STAT, 56, 38⟩
abbrev FWD_LRN_STAT_learned : Fld := ⟨.FWD_LRN_STAT, 37, 19⟩
abbrev FWD_LRN_STAT_cached : Fld := ⟨.FWD_LRN_STAT, 18, 0⟩
abbrev FWD_FENCE_valid : Fld := ⟨.FWD_FENCE, 63, 63⟩
abbrev FWD_FENCE_block : Fld := ⟨.FWD_FENCE, 25, 20⟩
abbrev FWD_FENCE_rank : Fld := ⟨.FWD_FENCE, 19, 0⟩
abbrev FWD_DROP_CNT_frames : Fld := ⟨.FWD_DROP_CNT, 47, 0⟩
abbrev FWD_DROP_CLR_clear : Fld := ⟨.FWD_DROP_CLR, 4, 0⟩
abbrev FWD_EVT_CNT_events : Fld := ⟨.FWD_EVT_CNT, 47, 0⟩
abbrev FWD_EVT_CLR_clear : Fld := ⟨.FWD_EVT_CLR, 9, 0⟩
abbrev SWC_FREE_STAT_min_free : Fld := ⟨.SWC_FREE_STAT, 37, 19⟩
abbrev SWC_FREE_STAT_free_cells : Fld := ⟨.SWC_FREE_STAT, 18, 0⟩
abbrev SWC_ERR_FIRST_valid : Fld := ⟨.SWC_ERR_FIRST, 63, 63⟩
abbrev SWC_ERR_FIRST_code : Fld := ⟨.SWC_ERR_FIRST, 55, 48⟩
abbrev SWC_ERR_FIRST_requester : Fld := ⟨.SWC_ERR_FIRST, 28, 19⟩
abbrev SWC_ERR_FIRST_cell : Fld := ⟨.SWC_ERR_FIRST, 18, 0⟩
abbrev SWC_ERR_NEXT_seen : Fld := ⟨.SWC_ERR_NEXT, 8, 1⟩
abbrev SWC_ERR_COUNT_count : Fld := ⟨.SWC_ERR_COUNT, 31, 0⟩
abbrev SWC_STAGE_STAT_peak : Fld := ⟨.SWC_STAGE_STAT, 27, 14⟩
abbrev SWC_STAGE_STAT_in_use : Fld := ⟨.SWC_STAGE_STAT, 13, 0⟩
abbrev SWC_HASH_SEED_seed : Fld := ⟨.SWC_HASH_SEED, 31, 0⟩
abbrev SWC_AUDIT_CTRL_interval : Fld := ⟨.SWC_AUDIT_CTRL, 17, 2⟩
abbrev SWC_AUDIT_CTRL_quiet : Fld := ⟨.SWC_AUDIT_CTRL, 1, 1⟩
abbrev SWC_AUDIT_CTRL_start : Fld := ⟨.SWC_AUDIT_CTRL, 0, 0⟩
abbrev SWC_AUDIT_STAT_mismatch : Fld := ⟨.SWC_AUDIT_STAT, 40, 40⟩
abbrev SWC_AUDIT_STAT_passes : Fld := ⟨.SWC_AUDIT_STAT, 39, 20⟩
abbrev SWC_AUDIT_STAT_leaks : Fld := ⟨.SWC_AUDIT_STAT, 19, 1⟩
abbrev SWC_AUDIT_STAT_busy : Fld := ⟨.SWC_AUDIT_STAT, 0, 0⟩
abbrev SWC_AUDIT_RECLAIM_reclaimed : Fld := ⟨.SWC_AUDIT_RECLAIM, 19, 1⟩
abbrev SWC_AUDIT_RECLAIM_reclaim : Fld := ⟨.SWC_AUDIT_RECLAIM, 0, 0⟩
abbrev SWC_AUDIT_LEAK_valid : Fld := ⟨.SWC_AUDIT_LEAK, 63, 63⟩
abbrev SWC_AUDIT_LEAK_owner : Fld := ⟨.SWC_AUDIT_LEAK, 28, 19⟩
abbrev SWC_AUDIT_LEAK_cell : Fld := ⟨.SWC_AUDIT_LEAK, 18, 0⟩
abbrev SWC_POOL_CFG_kind : Fld := ⟨.SWC_POOL_CFG, 19, 19⟩
abbrev SWC_POOL_CFG_size : Fld := ⟨.SWC_POOL_CFG, 18, 0⟩
abbrev SWC_POOL_STAT_peak : Fld := ⟨.SWC_POOL_STAT, 37, 19⟩
abbrev SWC_POOL_STAT_in_use : Fld := ⟨.SWC_POOL_STAT, 18, 0⟩
abbrev SWC_REQ_CFG_rec_quota : Fld := ⟨.SWC_REQ_CFG, 38, 23⟩
abbrev SWC_REQ_CFG_pool : Fld := ⟨.SWC_REQ_CFG, 22, 19⟩
abbrev SWC_REQ_CFG_quota : Fld := ⟨.SWC_REQ_CFG, 18, 0⟩
abbrev SWC_REQ_STAT_peak : Fld := ⟨.SWC_REQ_STAT, 53, 35⟩
abbrev SWC_REQ_STAT_rec_in_use : Fld := ⟨.SWC_REQ_STAT, 34, 19⟩
abbrev SWC_REQ_STAT_in_use : Fld := ⟨.SWC_REQ_STAT, 18, 0⟩
abbrev SWC_MC_REGION_size : Fld := ⟨.SWC_MC_REGION, 32, 16⟩
abbrev SWC_MC_REGION_base : Fld := ⟨.SWC_MC_REGION, 15, 0⟩
abbrev SWC_MC_SEL_word : Fld := ⟨.SWC_MC_SEL, 20, 16⟩
abbrev SWC_MC_SEL_entry : Fld := ⟨.SWC_MC_SEL, 15, 0⟩
abbrev SWC_MC_DATA_data : Fld := ⟨.SWC_MC_DATA, 63, 0⟩
abbrev SWC_MC_CMD_status : Fld := ⟨.SWC_MC_CMD, 9, 8⟩
abbrev SWC_MC_CMD_op : Fld := ⟨.SWC_MC_CMD, 1, 0⟩
abbrev SWC_BND_SEL_member : Fld := ⟨.SWC_BND_SEL, 15, 10⟩
abbrev SWC_BND_SEL_bundle : Fld := ⟨.SWC_BND_SEL, 9, 0⟩
abbrev SWC_BND_INFO_settling : Fld := ⟨.SWC_BND_INFO, 18, 18⟩
abbrev SWC_BND_INFO_selectable : Fld := ⟨.SWC_BND_INFO, 17, 17⟩
abbrev SWC_BND_INFO_port : Fld := ⟨.SWC_BND_INFO, 16, 7⟩
abbrev SWC_BND_INFO_members : Fld := ⟨.SWC_BND_INFO, 6, 0⟩
abbrev SWC_BND_LIVE_live : Fld := ⟨.SWC_BND_LIVE, 63, 0⟩
abbrev SWC_BND_ADMIN_admin : Fld := ⟨.SWC_BND_ADMIN, 63, 0⟩
abbrev SWC_BND_CMD_settle : Fld := ⟨.SWC_BND_CMD, 0, 0⟩
abbrev SWC_DROP_CNT_frames : Fld := ⟨.SWC_DROP_CNT, 47, 0⟩
abbrev SWC_DROP_CLR_clear : Fld := ⟨.SWC_DROP_CLR, 10, 0⟩
abbrev TM_ERR_FIRST_valid : Fld := ⟨.TM_ERR_FIRST, 63, 63⟩
abbrev TM_ERR_FIRST_code : Fld := ⟨.TM_ERR_FIRST, 55, 48⟩
abbrev TM_ERR_FIRST_port : Fld := ⟨.TM_ERR_FIRST, 9, 0⟩
abbrev TM_ERR_NEXT_seen : Fld := ⟨.TM_ERR_NEXT, 4, 1⟩
abbrev TM_ERR_COUNT_count : Fld := ⟨.TM_ERR_COUNT, 31, 0⟩
abbrev TM_RED_SEED_seed : Fld := ⟨.TM_RED_SEED, 31, 0⟩
abbrev TM_SAMP_CTRL_freeze : Fld := ⟨.TM_SAMP_CTRL, 4, 4⟩
abbrev TM_SAMP_CTRL_period : Fld := ⟨.TM_SAMP_CTRL, 3, 0⟩
abbrev TM_SAT_CFG_dwell : Fld := ⟨.TM_SAT_CFG, 15, 0⟩
abbrev TM_SAT_STAT_event : Fld := ⟨.TM_SAT_STAT, 63, 63⟩
abbrev TM_SAT_STAT_port : Fld := ⟨.TM_SAT_STAT, 11, 3⟩
abbrev TM_SAT_STAT_class : Fld := ⟨.TM_SAT_STAT, 2, 0⟩
abbrev TM_MAP_SEL_port : Fld := ⟨.TM_MAP_SEL, 11, 3⟩
abbrev TM_MAP_SEL_class : Fld := ⟨.TM_MAP_SEL, 2, 0⟩
abbrev TM_MAP_DATA_valid : Fld := ⟨.TM_MAP_DATA, 12, 12⟩
abbrev TM_MAP_DATA_meter : Fld := ⟨.TM_MAP_DATA, 11, 0⟩
abbrev TM_MTR_SEL_meter : Fld := ⟨.TM_MTR_SEL, 11, 0⟩
abbrev TM_MTR_CFG_mode : Fld := ⟨.TM_MTR_CFG, 63, 62⟩
abbrev TM_MTR_CFG_aware : Fld := ⟨.TM_MTR_CFG, 61, 61⟩
abbrev TM_MTR_CFG_drop_red : Fld := ⟨.TM_MTR_CFG, 60, 60⟩
abbrev TM_MTR_CFG_cir : Fld := ⟨.TM_MTR_CFG, 39, 20⟩
abbrev TM_MTR_CFG_xir : Fld := ⟨.TM_MTR_CFG, 19, 0⟩
abbrev TM_MTR_BURST_cbs : Fld := ⟨.TM_MTR_BURST, 47, 24⟩
abbrev TM_MTR_BURST_xbs : Fld := ⟨.TM_MTR_BURST, 23, 0⟩
abbrev TM_QSEL_entry : Fld := ⟨.TM_QSEL, 23, 18⟩
abbrev TM_QSEL_class : Fld := ⟨.TM_QSEL, 17, 15⟩
abbrev TM_QSEL_port : Fld := ⟨.TM_QSEL, 14, 6⟩
abbrev TM_QSEL_next : Fld := ⟨.TM_QSEL, 5, 0⟩
abbrev TM_Q_CFG_red_set : Fld := ⟨.TM_Q_CFG, 57, 53⟩
abbrev TM_Q_CFG_red_en : Fld := ⟨.TM_Q_CFG, 52, 52⟩
abbrev TM_Q_CFG_weight : Fld := ⟨.TM_Q_CFG, 51, 48⟩
abbrev TM_Q_CFG_ecn_thr : Fld := ⟨.TM_Q_CFG, 37, 19⟩
abbrev TM_Q_CFG_sat_thr : Fld := ⟨.TM_Q_CFG, 18, 0⟩
abbrev TM_Q_STAT_delay : Fld := ⟨.TM_Q_STAT, 50, 38⟩
abbrev TM_Q_STAT_avg : Fld := ⟨.TM_Q_STAT, 37, 19⟩
abbrev TM_Q_STAT_depth : Fld := ⟨.TM_Q_STAT, 18, 0⟩
abbrev TM_SAMP_DATA_time : Fld := ⟨.TM_SAMP_DATA, 63, 32⟩
abbrev TM_SAMP_DATA_depth : Fld := ⟨.TM_SAMP_DATA, 31, 13⟩
abbrev TM_SAMP_DATA_delay : Fld := ⟨.TM_SAMP_DATA, 12, 0⟩
abbrev TM_RED_PROF_maxp : Fld := ⟨.TM_RED_PROF, 45, 38⟩
abbrev TM_RED_PROF_max : Fld := ⟨.TM_RED_PROF, 37, 19⟩
abbrev TM_RED_PROF_min : Fld := ⟨.TM_RED_PROF, 18, 0⟩
abbrev TM_SHP_SEL_port : Fld := ⟨.TM_SHP_SEL, 11, 3⟩
abbrev TM_SHP_SEL_shaper : Fld := ⟨.TM_SHP_SEL, 2, 0⟩
abbrev TM_SHP_CFG_enable : Fld := ⟨.TM_SHP_CFG, 63, 63⟩
abbrev TM_SHP_CFG_rate : Fld := ⟨.TM_SHP_CFG, 51, 36⟩
abbrev TM_SHP_CFG_depth : Fld := ⟨.TM_SHP_CFG, 19, 0⟩
abbrev TM_PORT_SEL_class : Fld := ⟨.TM_PORT_SEL, 12, 10⟩
abbrev TM_PORT_SEL_port : Fld := ⟨.TM_PORT_SEL, 9, 0⟩
abbrev TM_SCH_CFG_quanta : Fld := ⟨.TM_SCH_CFG, 39, 0⟩
abbrev TM_ADM_CFG_share : Fld := ⟨.TM_ADM_CFG, 19, 0⟩
abbrev TM_ADM_STAT_peak : Fld := ⟨.TM_ADM_STAT, 39, 20⟩
abbrev TM_ADM_STAT_count : Fld := ⟨.TM_ADM_STAT, 19, 0⟩
abbrev TM_CRD_CFG_advert : Fld := ⟨.TM_CRD_CFG, 11, 0⟩
abbrev TM_CRD_STAT_held : Fld := ⟨.TM_CRD_STAT, 23, 12⟩
abbrev TM_CRD_STAT_owed : Fld := ⟨.TM_CRD_STAT, 11, 0⟩
abbrev TM_DROP_CNT_frames : Fld := ⟨.TM_DROP_CNT, 47, 0⟩
abbrev TM_DROP_CLR_clear : Fld := ⟨.TM_DROP_CLR, 3, 0⟩
abbrev TM_ECN_CNT_frames : Fld := ⟨.TM_ECN_CNT, 47, 0⟩
abbrev TM_ADM_WAIT_CNT_frames : Fld := ⟨.TM_ADM_WAIT_CNT, 47, 0⟩
abbrev RED_ERR_FIRST_valid : Fld := ⟨.RED_ERR_FIRST, 63, 63⟩
abbrev RED_ERR_FIRST_code : Fld := ⟨.RED_ERR_FIRST, 55, 48⟩
abbrev RED_ERR_FIRST_array : Fld := ⟨.RED_ERR_FIRST, 47, 44⟩
abbrev RED_ERR_FIRST_cell : Fld := ⟨.RED_ERR_FIRST, 43, 39⟩
abbrev RED_ERR_FIRST_slot_group : Fld := ⟨.RED_ERR_FIRST, 31, 16⟩
abbrev RED_ERR_FIRST_chunk : Fld := ⟨.RED_ERR_FIRST, 15, 0⟩
abbrev RED_ERR_NEXT_seen : Fld := ⟨.RED_ERR_NEXT, 7, 1⟩
abbrev RED_ERR_COUNT_count : Fld := ⟨.RED_ERR_COUNT, 31, 0⟩
abbrev RED_CAPS_mx_half : Fld := ⟨.RED_CAPS, 1, 1⟩
abbrev RED_CAPS_stepping : Fld := ⟨.RED_CAPS, 0, 0⟩
abbrev RED_CELL_SEL_array : Fld := ⟨.RED_CELL_SEL, 8, 5⟩
abbrev RED_CELL_SEL_cell : Fld := ⟨.RED_CELL_SEL, 4, 0⟩
abbrev RED_CELL_CFG_disable : Fld := ⟨.RED_CELL_CFG, 0, 0⟩
abbrev RED_CELL_STAT_free : Fld := ⟨.RED_CELL_STAT, 52, 48⟩
abbrev RED_CELL_STAT_corrected : Fld := ⟨.RED_CELL_STAT, 47, 24⟩
abbrev RED_CELL_STAT_uncorrectable : Fld := ⟨.RED_CELL_STAT, 23, 8⟩
abbrev RED_CELL_STAT_residue : Fld := ⟨.RED_CELL_STAT, 7, 0⟩
abbrev RED_KAT_CTRL_start : Fld := ⟨.RED_KAT_CTRL, 63, 63⟩
abbrev RED_KAT_CTRL_format : Fld := ⟨.RED_KAT_CTRL, 62, 59⟩
abbrev RED_KAT_CTRL_exact : Fld := ⟨.RED_KAT_CTRL, 58, 58⟩
abbrev RED_KAT_CTRL_op : Fld := ⟨.RED_KAT_CTRL, 57, 55⟩
abbrev RED_KAT_CTRL_array : Fld := ⟨.RED_KAT_CTRL, 54, 51⟩
abbrev RED_KAT_CTRL_cell : Fld := ⟨.RED_KAT_CTRL, 50, 46⟩
abbrev RED_KAT_CTRL_contrib : Fld := ⟨.RED_KAT_CTRL, 45, 36⟩
abbrev RED_KAT_CTRL_seed : Fld := ⟨.RED_KAT_CTRL, 31, 0⟩
abbrev RED_KAT_STAT_busy : Fld := ⟨.RED_KAT_STAT, 63, 63⟩
abbrev RED_KAT_STAT_last : Fld := ⟨.RED_KAT_STAT, 62, 61⟩
abbrev RED_KAT_STAT_runs : Fld := ⟨.RED_KAT_STAT, 47, 24⟩
abbrev RED_KAT_STAT_fails : Fld := ⟨.RED_KAT_STAT, 23, 0⟩
abbrev RED_ARRAY_STAT_peak : Fld := ⟨.RED_ARRAY_STAT, 41, 32⟩
abbrev RED_ARRAY_STAT_chunks : Fld := ⟨.RED_ARRAY_STAT, 25, 16⟩
abbrev RED_ARRAY_STAT_free : Fld := ⟨.RED_ARRAY_STAT, 9, 0⟩
abbrev RED_EVT_CNT_events : Fld := ⟨.RED_EVT_CNT, 47, 0⟩
abbrev RED_EVT_CLR_clear : Fld := ⟨.RED_EVT_CLR, 5, 0⟩
abbrev SYNC_ERR_FIRST_valid : Fld := ⟨.SYNC_ERR_FIRST, 63, 63⟩
abbrev SYNC_ERR_FIRST_code : Fld := ⟨.SYNC_ERR_FIRST, 55, 48⟩
abbrev SYNC_ERR_FIRST_slot_group : Fld := ⟨.SYNC_ERR_FIRST, 31, 16⟩
abbrev SYNC_ERR_FIRST_chunk : Fld := ⟨.SYNC_ERR_FIRST, 15, 0⟩
abbrev SYNC_ERR_NEXT_seen : Fld := ⟨.SYNC_ERR_NEXT, 6, 1⟩
abbrev SYNC_ERR_COUNT_count : Fld := ⟨.SYNC_ERR_COUNT, 31, 0⟩
abbrev SYNC_REC_STAT_peak : Fld := ⟨.SYNC_REC_STAT, 46, 32⟩
abbrev SYNC_REC_STAT_in_use : Fld := ⟨.SYNC_REC_STAT, 14, 0⟩
abbrev SYNC_SPILL_CFG_enable : Fld := ⟨.SYNC_SPILL_CFG, 63, 63⟩
abbrev SYNC_SPILL_CFG_runahead : Fld := ⟨.SYNC_SPILL_CFG, 35, 32⟩
abbrev SYNC_SPILL_CFG_window : Fld := ⟨.SYNC_SPILL_CFG, 7, 0⟩
abbrev SYNC_SPILL_AREA_base : Fld := ⟨.SYNC_SPILL_AREA, 47, 24⟩
abbrev SYNC_SPILL_AREA_size : Fld := ⟨.SYNC_SPILL_AREA, 23, 0⟩
abbrev SYNC_SPILL_STAT_in_use : Fld := ⟨.SYNC_SPILL_STAT, 55, 32⟩
abbrev SYNC_SPILL_STAT_resident : Fld := ⟨.SYNC_SPILL_STAT, 31, 16⟩
abbrev SYNC_SPILL_STAT_pending : Fld := ⟨.SYNC_SPILL_STAT, 15, 0⟩
abbrev SYNC_HOME_SEL_group : Fld := ⟨.SYNC_HOME_SEL, 15, 0⟩
abbrev SYNC_HOME_DATA_valid : Fld := ⟨.SYNC_HOME_DATA, 63, 63⟩
abbrev SYNC_HOME_DATA_die : Fld := ⟨.SYNC_HOME_DATA, 62, 62⟩
abbrev SYNC_HOME_DATA_array : Fld := ⟨.SYNC_HOME_DATA, 61, 58⟩
abbrev SYNC_HOME_DATA_desc : Fld := ⟨.SYNC_HOME_DATA, 57, 43⟩
abbrev SYNC_HOME_DATA_block : Fld := ⟨.SYNC_HOME_DATA, 42, 37⟩
abbrev SYNC_DESC_SEL_word : Fld := ⟨.SYNC_DESC_SEL, 20, 16⟩
abbrev SYNC_DESC_SEL_desc : Fld := ⟨.SYNC_DESC_SEL, 14, 0⟩
abbrev SYNC_DESC_DATA_data : Fld := ⟨.SYNC_DESC_DATA, 63, 0⟩
abbrev SYNC_DESC_CMD_status : Fld := ⟨.SYNC_DESC_CMD, 9, 8⟩
abbrev SYNC_DESC_CMD_op : Fld := ⟨.SYNC_DESC_CMD, 1, 0⟩
abbrev SYNC_DESC_STAT_last_idx : Fld := ⟨.SYNC_DESC_STAT, 63, 54⟩
abbrev SYNC_DESC_STAT_max_spread : Fld := ⟨.SYNC_DESC_STAT, 53, 27⟩
abbrev SYNC_DESC_STAT_last_spread : Fld := ⟨.SYNC_DESC_STAT, 26, 0⟩
abbrev SYNC_DESC_EXCL_go : Fld := ⟨.SYNC_DESC_EXCL, 63, 63⟩
abbrev SYNC_DESC_EXCL_member : Fld := ⟨.SYNC_DESC_EXCL, 9, 0⟩
abbrev SYNC_BLK_CFG_quota : Fld := ⟨.SYNC_BLK_CFG, 45, 32⟩
abbrev SYNC_BLK_CFG_spill_quota : Fld := ⟨.SYNC_BLK_CFG, 31, 0⟩
abbrev SYNC_BLK_STAT_in_use : Fld := ⟨.SYNC_BLK_STAT, 45, 32⟩
abbrev SYNC_BLK_STAT_spill_in_use : Fld := ⟨.SYNC_BLK_STAT, 31, 0⟩
abbrev SYNC_WATCH_valid : Fld := ⟨.SYNC_WATCH, 63, 63⟩
abbrev SYNC_WATCH_desc : Fld := ⟨.SYNC_WATCH, 14, 0⟩
abbrev SYNC_HIST_SEL_watch : Fld := ⟨.SYNC_HIST_SEL, 16, 11⟩
abbrev SYNC_HIST_SEL_item : Fld := ⟨.SYNC_HIST_SEL, 10, 0⟩
abbrev SYNC_HIST_DATA_count : Fld := ⟨.SYNC_HIST_DATA, 31, 0⟩
abbrev SYNC_BAR_SEL_counter : Fld := ⟨.SYNC_BAR_SEL, 11, 0⟩
abbrev SYNC_BAR_CFG_valid : Fld := ⟨.SYNC_BAR_CFG, 63, 63⟩
abbrev SYNC_BAR_CFG_block : Fld := ⟨.SYNC_BAR_CFG, 62, 57⟩
abbrev SYNC_BAR_CFG_expected : Fld := ⟨.SYNC_BAR_CFG, 56, 46⟩
abbrev SYNC_BAR_CFG_own : Fld := ⟨.SYNC_BAR_CFG, 45, 36⟩
abbrev SYNC_BAR_CFG_timeout : Fld := ⟨.SYNC_BAR_CFG, 35, 20⟩
abbrev SYNC_BAR_TGT_parent : Fld := ⟨.SYNC_BAR_TGT, 63, 63⟩
abbrev SYNC_BAR_TGT_parent_dfid : Fld := ⟨.SYNC_BAR_TGT, 39, 16⟩
abbrev SYNC_BAR_TGT_group : Fld := ⟨.SYNC_BAR_TGT, 15, 0⟩
abbrev SYNC_BAR_STAT_generation : Fld := ⟨.SYNC_BAR_STAT, 63, 56⟩
abbrev SYNC_BAR_STAT_weight : Fld := ⟨.SYNC_BAR_STAT, 55, 45⟩
abbrev SYNC_BAR_STAT_last : Fld := ⟨.SYNC_BAR_STAT, 9, 0⟩
abbrev SYNC_CRZ_SEL_block : Fld := ⟨.SYNC_CRZ_SEL, 12, 7⟩
abbrev SYNC_CRZ_SEL_tree : Fld := ⟨.SYNC_CRZ_SEL, 6, 5⟩
abbrev SYNC_CRZ_SEL_word : Fld := ⟨.SYNC_CRZ_SEL, 4, 0⟩
abbrev SYNC_CRZ_DATA_ports : Fld := ⟨.SYNC_CRZ_DATA, 63, 0⟩
abbrev SYNC_CRZ_STAT_sequence : Fld := ⟨.SYNC_CRZ_STAT, 63, 32⟩
abbrev SYNC_CRZ_STAT_acks : Fld := ⟨.SYNC_CRZ_STAT, 15, 0⟩
abbrev SYNC_DROP_CNT_frames : Fld := ⟨.SYNC_DROP_CNT, 47, 0⟩
abbrev SYNC_DROP_CLR_clear : Fld := ⟨.SYNC_DROP_CLR, 9, 0⟩
abbrev SYNC_EVT_CNT_events : Fld := ⟨.SYNC_EVT_CNT, 47, 0⟩
abbrev SYNC_EVT_CLR_clear : Fld := ⟨.SYNC_EVT_CLR, 11, 0⟩
abbrev RED_LCH_CFG_enable : Fld := ⟨.RED_LCH_CFG, 63, 63⟩
abbrev RED_LCH_CFG_role : Fld := ⟨.RED_LCH_CFG, 62, 62⟩
abbrev RED_LCH_CFG_hold : Fld := ⟨.RED_LCH_CFG, 61, 61⟩
abbrev RED_LCH_CFG_port : Fld := ⟨.RED_LCH_CFG, 60, 51⟩
abbrev RED_LCH_CFG_timeout : Fld := ⟨.RED_LCH_CFG, 13, 0⟩
abbrev RED_LCH_BLOCKS_blocks : Fld := ⟨.RED_LCH_BLOCKS, 63, 0⟩
abbrev RED_LCH_CNT_chunks : Fld := ⟨.RED_LCH_CNT, 47, 0⟩
abbrev RED_LCH_CLR_clear : Fld := ⟨.RED_LCH_CLR, 5, 0⟩
abbrev RED_LCH_LAST_slot_group : Fld := ⟨.RED_LCH_LAST, 63, 48⟩
abbrev RED_LCH_LAST_chunk : Fld := ⟨.RED_LCH_LAST, 47, 32⟩
abbrev RED_LCH_LAST_step : Fld := ⟨.RED_LCH_LAST, 13, 0⟩
abbrev RED_LCH_DIG_own : Fld := ⟨.RED_LCH_DIG, 63, 32⟩
abbrev RED_LCH_DIG_partner : Fld := ⟨.RED_LCH_DIG, 31, 0⟩
abbrev RED_LCH_PEND_pending : Fld := ⟨.RED_LCH_PEND, 12, 0⟩
abbrev LANE_ERR_FIRST_valid : Fld := ⟨.LANE_ERR_FIRST, 63, 63⟩
abbrev LANE_ERR_FIRST_code : Fld := ⟨.LANE_ERR_FIRST, 55, 48⟩
abbrev LANE_ERR_FIRST_lane : Fld := ⟨.LANE_ERR_FIRST, 9, 0⟩
abbrev LANE_ERR_NEXT_seen : Fld := ⟨.LANE_ERR_NEXT, 6, 1⟩
abbrev LANE_ERR_COUNT_count : Fld := ⟨.LANE_ERR_COUNT, 31, 0⟩
abbrev LANE_HB_CFG_idle_period : Fld := ⟨.LANE_HB_CFG, 31, 16⟩
abbrev LANE_HB_CFG_period : Fld := ⟨.LANE_HB_CFG, 15, 0⟩
abbrev LANE_FEC_HSEL_lane : Fld := ⟨.LANE_FEC_HSEL, 13, 5⟩
abbrev LANE_FEC_HSEL_bin : Fld := ⟨.LANE_FEC_HSEL, 4, 0⟩
abbrev LANE_FEC_HDATA_count : Fld := ⟨.LANE_FEC_HDATA, 47, 0⟩
abbrev LANE_CFG_precode : Fld := ⟨.LANE_CFG, 63, 62⟩
abbrev LANE_CFG_loopback : Fld := ⟨.LANE_CFG, 61, 60⟩
abbrev LANE_CFG_test : Fld := ⟨.LANE_CFG, 59, 59⟩
abbrev LANE_CFG_clr_fec : Fld := ⟨.LANE_CFG, 58, 58⟩
abbrev LANE_STAT_state : Fld := ⟨.LANE_STAT, 63, 61⟩
abbrev LANE_STAT_signal : Fld := ⟨.LANE_STAT, 60, 60⟩
abbrev LANE_STAT_cdr : Fld := ⟨.LANE_STAT, 59, 59⟩
abbrev LANE_STAT_block : Fld := ⟨.LANE_STAT, 58, 58⟩
abbrev LANE_STAT_pre_tx : Fld := ⟨.LANE_STAT, 57, 57⟩
abbrev LANE_STAT_pre_rx : Fld := ⟨.LANE_STAT, 56, 56⟩
abbrev LANE_STAT_wl : Fld := ⟨.LANE_STAT, 55, 52⟩
abbrev LANE_STAT_fails : Fld := ⟨.LANE_STAT, 39, 32⟩
abbrev LANE_STAT_snr : Fld := ⟨.LANE_STAT, 15, 0⟩
abbrev LANE_PAT_gen : Fld := ⟨.LANE_PAT, 63, 61⟩
abbrev LANE_PAT_chk : Fld := ⟨.LANE_PAT, 60, 58⟩
abbrev LANE_PAT_half : Fld := ⟨.LANE_PAT, 57, 53⟩
abbrev LANE_PAT_clear : Fld := ⟨.LANE_PAT, 52, 52⟩
abbrev LANE_PAT_STAT_lock : Fld := ⟨.LANE_PAT_STAT, 63, 63⟩
abbrev LANE_PAT_STAT_errors : Fld := ⟨.LANE_PAT_STAT, 47, 0⟩
abbrev LANE_INJ_mode : Fld := ⟨.LANE_INJ, 63, 62⟩
abbrev LANE_INJ_symbols : Fld := ⟨.LANE_INJ, 61, 57⟩
abbrev LANE_INJ_rate : Fld := ⟨.LANE_INJ, 56, 52⟩
abbrev LANE_INJ_count : Fld := ⟨.LANE_INJ, 51, 36⟩
abbrev LANE_FEC_CNT_uncorrectable : Fld := ⟨.LANE_FEC_CNT, 63, 40⟩
abbrev LANE_FEC_CNT_corrected : Fld := ⟨.LANE_FEC_CNT, 39, 0⟩
abbrev LANE_TS_CORR_tx_trim : Fld := ⟨.LANE_TS_CORR, 63, 48⟩
abbrev LANE_TS_CORR_rx_trim : Fld := ⟨.LANE_TS_CORR, 47, 32⟩
abbrev LANE_PORT_CTRL_hold : Fld := ⟨.LANE_PORT_CTRL, 63, 63⟩
abbrev LANE_PORT_CTRL_retrain : Fld := ⟨.LANE_PORT_CTRL, 62, 62⟩
abbrev LANE_PORT_CTRL_idle : Fld := ⟨.LANE_PORT_CTRL, 61, 61⟩
abbrev LANE_PORT_CTRL_wake : Fld := ⟨.LANE_PORT_CTRL, 60, 60⟩
abbrev LANE_PORT_CTRL_idle_timer : Fld := ⟨.LANE_PORT_CTRL, 47, 32⟩
abbrev LANE_PORT_STAT_state : Fld := ⟨.LANE_PORT_STAT, 63, 61⟩
abbrev LANE_PORT_STAT_rx_idle : Fld := ⟨.LANE_PORT_STAT, 60, 60⟩
abbrev LANE_PORT_STAT_cause : Fld := ⟨.LANE_PORT_STAT, 59, 57⟩
abbrev LANE_PORT_STAT_width : Fld := ⟨.LANE_PORT_STAT, 56, 55⟩
abbrev LANE_PORT_STAT_rtt : Fld := ⟨.LANE_PORT_STAT, 47, 32⟩
abbrev LANE_PORT_STAT_outstanding : Fld := ⟨.LANE_PORT_STAT, 22, 16⟩
abbrev LANE_PORT_STAT_next_seq : Fld := ⟨.LANE_PORT_STAT, 9, 0⟩
abbrev LANE_RETRY_requests : Fld := ⟨.LANE_RETRY, 63, 32⟩
abbrev LANE_RETRY_replays : Fld := ⟨.LANE_RETRY, 31, 0⟩
abbrev LANE_HB_STAT_sequence : Fld := ⟨.LANE_HB_STAT, 63, 32⟩
abbrev LANE_HB_STAT_rtt : Fld := ⟨.LANE_HB_STAT, 31, 16⟩
abbrev LANE_EVT_CNT_events : Fld := ⟨.LANE_EVT_CNT, 47, 0⟩
abbrev LANE_EVT_CLR_clear : Fld := ⟨.LANE_EVT_CLR, 9, 0⟩
abbrev LANE_LIVE_removed : Fld := ⟨.LANE_LIVE, 63, 63⟩
abbrev LANE_LIVE_mute : Fld := ⟨.LANE_LIVE, 62, 62⟩
abbrev LANE_LIVE_misses : Fld := ⟨.LANE_LIVE, 55, 48⟩
abbrev LANE_LIVE_streak : Fld := ⟨.LANE_LIVE, 43, 40⟩
abbrev LANE_LIVE_unlisted : Fld := ⟨.LANE_LIVE, 39, 32⟩
abbrev LANE_LIVE_removals : Fld := ⟨.LANE_LIVE, 31, 0⟩
abbrev D2D_ERR_FIRST_valid : Fld := ⟨.D2D_ERR_FIRST, 63, 63⟩
abbrev D2D_ERR_FIRST_code : Fld := ⟨.D2D_ERR_FIRST, 55, 48⟩
abbrev D2D_ERR_FIRST_bundle : Fld := ⟨.D2D_ERR_FIRST, 4, 0⟩
abbrev D2D_ERR_NEXT_seen : Fld := ⟨.D2D_ERR_NEXT, 6, 1⟩
abbrev D2D_ERR_COUNT_count : Fld := ⟨.D2D_ERR_COUNT, 31, 0⟩
abbrev D2D_STAT_peer : Fld := ⟨.D2D_STAT, 63, 63⟩
abbrev D2D_STAT_degraded : Fld := ⟨.D2D_STAT, 62, 62⟩
abbrev D2D_STAT_headless : Fld := ⟨.D2D_STAT, 61, 61⟩
abbrev D2D_STAT_timer : Fld := ⟨.D2D_STAT, 47, 32⟩
abbrev D2D_STAT_rx_up : Fld := ⟨.D2D_STAT, 31, 16⟩
abbrev D2D_STAT_tx_up : Fld := ⟨.D2D_STAT, 15, 0⟩
abbrev D2D_CTRL_retrain : Fld := ⟨.D2D_CTRL, 0, 0⟩
abbrev D2D_DROP_CNT_frames : Fld := ⟨.D2D_DROP_CNT, 47, 0⟩
abbrev D2D_BND_STAT_up : Fld := ⟨.D2D_BND_STAT, 63, 63⟩
abbrev D2D_BND_STAT_fused : Fld := ⟨.D2D_BND_STAT, 62, 59⟩
abbrev D2D_BND_STAT_added : Fld := ⟨.D2D_BND_STAT, 58, 55⟩
abbrev D2D_BND_STAT_repaired : Fld := ⟨.D2D_BND_STAT, 54, 51⟩
abbrev D2D_BND_STAT_last_wire : Fld := ⟨.D2D_BND_STAT, 50, 42⟩
abbrev D2D_BND_STAT_resends : Fld := ⟨.D2D_BND_STAT, 31, 0⟩
abbrev D2D_EVT_CNT_events : Fld := ⟨.D2D_EVT_CNT, 47, 0⟩
abbrev D2D_EVT_CLR_clear : Fld := ⟨.D2D_EVT_CLR, 5, 0⟩
abbrev CNT_TICK_ticks : Fld := ⟨.CNT_TICK, 63, 0⟩
abbrev CNT_CTRL_enable : Fld := ⟨.CNT_CTRL, 63, 63⟩
abbrev CNT_CTRL_restart : Fld := ⟨.CNT_CTRL, 62, 62⟩
abbrev CNT_CTRL_clear : Fld := ⟨.CNT_CTRL, 61, 61⟩
abbrev CNT_CTRL_sat : Fld := ⟨.CNT_CTRL, 60, 53⟩
abbrev CNT_SEL_port_en : Fld := ⟨.CNT_SEL, 51, 51⟩
abbrev CNT_SEL_port : Fld := ⟨.CNT_SEL, 50, 41⟩
abbrev CNT_SEL_class_en : Fld := ⟨.CNT_SEL, 40, 40⟩
abbrev CNT_SEL_class : Fld := ⟨.CNT_SEL, 39, 37⟩
abbrev CNT_SEL_event : Fld := ⟨.CNT_SEL, 11, 0⟩
abbrev CNT_VAL_count : Fld := ⟨.CNT_VAL, 47, 0⟩
abbrev CNT_EP_STAT_sequence : Fld := ⟨.CNT_EP_STAT, 63, 32⟩
abbrev CNT_EP_STAT_time : Fld := ⟨.CNT_EP_STAT, 31, 0⟩
abbrev CNT_EP_TICK_span : Fld := ⟨.CNT_EP_TICK, 63, 32⟩
abbrev CNT_EP_TICK_tick : Fld := ⟨.CNT_EP_TICK, 31, 0⟩
abbrev CNT_EP_VAL_count : Fld := ⟨.CNT_EP_VAL, 47, 0⟩
abbrev OE_ERR_FIRST_valid : Fld := ⟨.OE_ERR_FIRST, 63, 63⟩
abbrev OE_ERR_FIRST_code : Fld := ⟨.OE_ERR_FIRST, 55, 48⟩
abbrev OE_ERR_FIRST_fibre : Fld := ⟨.OE_ERR_FIRST, 10, 8⟩
abbrev OE_ERR_FIRST_wl : Fld := ⟨.OE_ERR_FIRST, 7, 4⟩
abbrev OE_ERR_FIRST_feed : Fld := ⟨.OE_ERR_FIRST, 0, 0⟩
abbrev OE_ERR_NEXT_seen : Fld := ⟨.OE_ERR_NEXT, 8, 1⟩
abbrev OE_ERR_COUNT_count : Fld := ⟨.OE_ERR_COUNT, 31, 0⟩
abbrev OE_ID_variant : Fld := ⟨.OE_ID, 11, 8⟩
abbrev OE_ID_quad : Fld := ⟨.OE_ID, 5, 4⟩
abbrev OE_ID_engine : Fld := ⟨.OE_ID, 3, 0⟩
abbrev OE_STATE_feed : Fld := ⟨.OE_STATE, 63, 63⟩
abbrev OE_STATE_a_en : Fld := ⟨.OE_STATE, 62, 62⟩
abbrev OE_STATE_b_en : Fld := ⟨.OE_STATE, 61, 61⟩
abbrev OE_STATE_ready : Fld := ⟨.OE_STATE, 60, 60⟩
abbrev OE_STATE_sub : Fld := ⟨.OE_STATE, 59, 58⟩
abbrev OE_STATE_sub_wl : Fld := ⟨.OE_STATE, 57, 54⟩
abbrev OE_STATE_warn : Fld := ⟨.OE_STATE, 53, 45⟩
abbrev OE_STATE_fade : Fld := ⟨.OE_STATE, 44, 36⟩
abbrev OE_STATE_down : Fld := ⟨.OE_STATE, 35, 27⟩
abbrev OE_STATE_in_service : Fld := ⟨.OE_STATE, 0, 0⟩
abbrev OE_CMD_busy : Fld := ⟨.OE_CMD, 63, 63⟩
abbrev OE_CMD_status : Fld := ⟨.OE_CMD, 62, 61⟩
abbrev OE_CMD_wl : Fld := ⟨.OE_CMD, 7, 4⟩
abbrev OE_CMD_op : Fld := ⟨.OE_CMD, 3, 0⟩
abbrev OE_SUB_STAT_fibres : Fld := ⟨.OE_SUB_STAT, 31, 0⟩
abbrev OE_THERM_case : Fld := ⟨.OE_THERM, 63, 48⟩
abbrev OE_THERM_die : Fld := ⟨.OE_THERM, 47, 32⟩
abbrev OE_THERM_slew : Fld := ⟨.OE_THERM, 31, 16⟩
abbrev OE_THERM_unlocks : Fld := ⟨.OE_THERM, 15, 0⟩
abbrev OE_FEED_PWR_clr_min : Fld := ⟨.OE_FEED_PWR, 32, 32⟩
abbrev OE_FEED_PWR_min : Fld := ⟨.OE_FEED_PWR, 31, 16⟩
abbrev OE_FEED_PWR_level : Fld := ⟨.OE_FEED_PWR, 15, 0⟩
abbrev OE_REF_ref : Fld := ⟨.OE_REF, 15, 0⟩
abbrev OE_TXF_PWR_ref : Fld := ⟨.OE_TXF_PWR, 31, 16⟩
abbrev OE_TXF_PWR_level : Fld := ⟨.OE_TXF_PWR, 15, 0⟩
abbrev OE_TUNE_locked : Fld := ⟨.OE_TUNE, 63, 63⟩
abbrev OE_TUNE_heater : Fld := ⟨.OE_TUNE, 31, 16⟩
abbrev OE_TUNE_bias : Fld := ⟨.OE_TUNE, 11, 0⟩
abbrev OE_CAL_CMD_confirm : Fld := ⟨.OE_CAL_CMD, 31, 16⟩
abbrev OE_CAL_CMD_recal : Fld := ⟨.OE_CAL_CMD, 1, 1⟩
abbrev OE_CAL_CMD_commit : Fld := ⟨.OE_CAL_CMD, 0, 0⟩
abbrev OE_CAL_STAT_user : Fld := ⟨.OE_CAL_STAT, 63, 63⟩
abbrev OE_CAL_STAT_busy : Fld := ⟨.OE_CAL_STAT, 62, 62⟩
abbrev OE_CAL_STAT_last : Fld := ⟨.OE_CAL_STAT, 61, 59⟩
abbrev OE_CAL_STAT_commits : Fld := ⟨.OE_CAL_STAT, 15, 0⟩
abbrev OE_EVT_CNT_events : Fld := ⟨.OE_EVT_CNT, 47, 0⟩
abbrev OE_EVT_CLR_clear : Fld := ⟨.OE_EVT_CLR, 10, 0⟩
abbrev BYP_ERR_FIRST_valid : Fld := ⟨.BYP_ERR_FIRST, 63, 63⟩
abbrev BYP_ERR_FIRST_code : Fld := ⟨.BYP_ERR_FIRST, 55, 48⟩
abbrev BYP_ERR_FIRST_input : Fld := ⟨.BYP_ERR_FIRST, 9, 5⟩
abbrev BYP_ERR_FIRST_output : Fld := ⟨.BYP_ERR_FIRST, 4, 0⟩
abbrev BYP_ERR_NEXT_seen : Fld := ⟨.BYP_ERR_NEXT, 7, 1⟩
abbrev BYP_ERR_COUNT_count : Fld := ⟨.BYP_ERR_COUNT, 31, 0⟩
abbrev BYP_ID_variant : Fld := ⟨.BYP_ID, 11, 8⟩
abbrev BYP_ID_quad : Fld := ⟨.BYP_ID, 1, 0⟩
abbrev BYP_CFG_keep : Fld := ⟨.BYP_CFG, 63, 63⟩
abbrev BYP_CFG_trim : Fld := ⟨.BYP_CFG, 0, 0⟩
abbrev BYP_CMD_busy : Fld := ⟨.BYP_CMD, 63, 63⟩
abbrev BYP_CMD_status : Fld := ⟨.BYP_CMD, 62, 60⟩
abbrev BYP_CMD_take : Fld := ⟨.BYP_CMD, 10, 10⟩
abbrev BYP_CMD_input : Fld := ⟨.BYP_CMD, 9, 5⟩
abbrev BYP_CMD_op : Fld := ⟨.BYP_CMD, 2, 0⟩
abbrev BYP_CMD_OUT_outputs : Fld := ⟨.BYP_CMD_OUT, 31, 0⟩
abbrev BYP_THERM_die : Fld := ⟨.BYP_THERM, 63, 48⟩
abbrev BYP_THERM_commit : Fld := ⟨.BYP_THERM, 47, 32⟩
abbrev BYP_THERM_trims : Fld := ⟨.BYP_THERM, 15, 0⟩
abbrev BYP_IN_active : Fld := ⟨.BYP_IN, 63, 63⟩
abbrev BYP_IN_state : Fld := ⟨.BYP_IN, 62, 60⟩
abbrev BYP_IN_fanout : Fld := ⟨.BYP_IN, 54, 52⟩
abbrev BYP_IN_level : Fld := ⟨.BYP_IN, 47, 32⟩
abbrev BYP_IN_outputs : Fld := ⟨.BYP_IN, 31, 0⟩
abbrev BYP_OUT_active : Fld := ⟨.BYP_OUT, 63, 63⟩
abbrev BYP_OUT_low : Fld := ⟨.BYP_OUT, 62, 62⟩
abbrev BYP_OUT_input : Fld := ⟨.BYP_OUT, 61, 57⟩
abbrev BYP_OUT_loss : Fld := ⟨.BYP_OUT, 47, 32⟩
abbrev BYP_OUT_drop : Fld := ⟨.BYP_OUT, 31, 16⟩
abbrev BYP_OUT_level : Fld := ⟨.BYP_OUT, 15, 0⟩
abbrev BYP_CAL_CMD_confirm : Fld := ⟨.BYP_CAL_CMD, 31, 16⟩
abbrev BYP_CAL_CMD_commit : Fld := ⟨.BYP_CAL_CMD, 0, 0⟩
abbrev BYP_CAL_STAT_user : Fld := ⟨.BYP_CAL_STAT, 63, 63⟩
abbrev BYP_CAL_STAT_busy : Fld := ⟨.BYP_CAL_STAT, 62, 62⟩
abbrev BYP_CAL_STAT_last : Fld := ⟨.BYP_CAL_STAT, 61, 59⟩
abbrev BYP_CAL_STAT_commits : Fld := ⟨.BYP_CAL_STAT, 15, 0⟩
abbrev BYP_EVT_CNT_events : Fld := ⟨.BYP_EVT_CNT, 47, 0⟩
abbrev BYP_EVT_CLR_clear : Fld := ⟨.BYP_EVT_CLR, 7, 0⟩

end Sys2Proof.Machine.F
end

