-- ==== Sys2Proof/Machine/Sparse.lean ====
section
/-! DEFINITION. Reading and writing the sparse tables. A write of the default removes the entry, so a table has one
canonical form: keys strictly rising and no entry equal to the default. -/

namespace Sys2Proof.Machine

/-- The entry of key `k`, if the table lists one. -/
def smFind {α : Type} : SMap α → Nat → Option α
  | [], _ => none
  | (k', v) :: t, k => if k' = k then some v else smFind t k

/-- The value at `k`, the default `d` where none is listed. -/
def smGet {α : Type} (m : SMap α) (k : Nat) (d : α) : α := (smFind m k).getD d

/-- Lists `v` at `k`, keeping the keys rising. -/
def smInsert {α : Type} : SMap α → Nat → α → SMap α
  | [], k, v => [(k, v)]
  | (k', v') :: t, k, v =>
    if k' = k then (k, v) :: t else if k < k' then (k, v) :: (k', v') :: t else (k', v') :: smInsert t k v

/-- Removes the entry of `k`. -/
def smErase {α : Type} (m : SMap α) (k : Nat) : SMap α := m.filter (fun e => e.1 != k)

/-- Writes `v` at `k` in a table whose default is `d`. -/
def smSet {α : Type} [DecidableEq α] (m : SMap α) (k : Nat) (v d : α) : SMap α :=
  if v = d then smErase m k else smInsert m k v

/-- Whether every listed key is below `k` (only used by `smWf`). -/
def smRising {α : Type} : Nat → SMap α → Bool
  | _, [] => true
  | lo, (k, _) :: t => decide (lo ≤ k) && smRising (k + 1) t

/-- The canonical form of a table whose default at key `k` is `d k`. -/
def smWf {α : Type} [DecidableEq α] (m : SMap α) (d : Nat → α) : Bool :=
  smRising 0 m && m.all (fun e => e.2 != d e.1)

end Sys2Proof.Machine
end

