-- ==== Sys2Proof/Machine/Bits.lean ====
section
/-! DEFINITION. Bit fields of a word (R6), bytes and words (R41, R452), the CRC-32C of R42 and the register store. -/

namespace Sys2Proof.Machine

/-- Bits [hi:lo] of a word as a number (R6). -/
def fget (w : Word) (hi lo : Nat) : Nat := (w.extractLsb' lo (hi + 1 - lo)).toNat

/-- The word that is 1 exactly in bits [hi:lo]. -/
def fmask (hi lo : Nat) : Word := (BitVec.allOnes (hi + 1 - lo)).setWidth 64 <<< lo

/-- `w` with bits [hi:lo] replaced by the low bits of `v`. -/
def fput (w : Word) (hi lo v : Nat) : Word :=
  (w &&& ~~~ fmask hi lo) ||| ((BitVec.ofNat (hi + 1 - lo) v).setWidth 64 <<< lo)

/-- Bit `n` of a word. -/
def wbit (w : Word) (n : Nat) : Bool := w.getLsbD n

/-- `w` with bit `n` set to `b`. -/
def wset (w : Word) (n : Nat) (b : Bool) : Word := fput w n n (if b then 1 else 0)

/-- A word built from fields: each triple is (hi, lo, value). -/
def wmk (fs : List (Nat × Nat × Nat)) : Word := fs.foldl (fun w f => fput w f.1 f.2.1 f.2.2) 0

/-- 1 for true, 0 for false. -/
def b2n (b : Bool) : Nat := if b then 1 else 0

/-- The eight bytes of a word, most significant first (R41, R452). -/
def wordBytes (w : Word) : List Byte :=
  [w.extractLsb' 56 8, w.extractLsb' 48 8, w.extractLsb' 40 8, w.extractLsb' 32 8,
   w.extractLsb' 24 8, w.extractLsb' 16 8, w.extractLsb' 8 8, w.extractLsb' 0 8]

/-- The number that bytes spell, most significant first. -/
def beNat (bs : List Byte) : Nat := bs.foldl (fun a b => a * 256 + b.toNat) 0

/-- The number that bytes spell, least significant first (R42, R452). -/
def leNat (bs : List Byte) : Nat := bs.foldr (fun b a => a * 256 + b.toNat) 0

/-- `n` bytes of a number, least significant first. -/
def leBytes : Nat → Nat → List Byte
  | 0, _ => []
  | n + 1, v => BitVec.ofNat 8 v :: leBytes n (v / 256)

/-- `n` bytes of a number, most significant first. -/
def beBytes (n v : Nat) : List Byte := (leBytes n v).reverse

/-- Word `i` of a payload laid out as words, most significant byte first (R452). -/
def payWord (bs : List Byte) (i : Nat) : Word := BitVec.ofNat 64 (beNat ((bs.drop (8 * i)).take 8))

/-- The payload that a list of words makes (R452). -/
def wordsPay (ws : List Word) : List Byte := ws.flatMap wordBytes

/-- One bit step of the reflected CRC-32C (R42). -/
def crcBit (c : Nat) : Nat := if c % 2 = 1 then (c / 2) ^^^ 0x82F63B78 else c / 2

/-- One byte of the reflected CRC-32C (R42). -/
def crcByte (c : Nat) (b : Byte) : Nat :=
  crcBit (crcBit (crcBit (crcBit (crcBit (crcBit (crcBit (crcBit (c ^^^ b.toNat))))))))

/-- CRC-32C of a string of bytes (R42). -/
def crc32c (bs : List Byte) : Nat := (bs.foldl crcByte 0xFFFFFFFF) ^^^ 0xFFFFFFFF

/-- CRC-32C over 32-bit values, each entering least significant byte first (R93, R121). -/
def crcWords32 (vs : List Nat) : Nat := crc32c (vs.flatMap (leBytes 4))

/-- The 32 header bytes and the payload of a frame in wire order (R41). -/
def frameBytes (f : Frame) : List Byte :=
  wordBytes f.w0 ++ wordBytes f.w1 ++ wordBytes f.w2 ++ wordBytes f.w3 ++ f.payload

/-- The frame on the wire with its trailer (R41, R42); a stomped trailer is the bitwise complement (R69). -/
def wireBytes (f : Frame) (stomped : Bool) : List Byte :=
  let c := crc32c (frameBytes f)
  frameBytes f ++ leBytes 4 (if stomped then c ^^^ 0xFFFFFFFF else c)

/-- The frame that a string of at least 36 received bytes spells, without its trailer (R41). -/
def parseFrame (bs : List Byte) : Frame :=
  { w0 := payWord bs 0, w1 := payWord bs 1, w2 := payWord bs 2, w3 := payWord bs 3,
    payload := (bs.drop 32).take (bs.length - 36) }

end Sys2Proof.Machine

namespace Sys2Proof

open Sys2Proof.Machine

/-- Frame length L in bytes (R41). -/
def Frame.len (f : Frame) : Nat := 36 + f.payload.length

-- Header fields of Tables 2.1 to 2.4.
def Frame.version (f : Frame) : Nat := fget f.w0 63 60
def Frame.ftype (f : Frame) : Nat := fget f.w0 59 56
def Frame.cls (f : Frame) : Nat := fget f.w0 55 53
def Frame.colour (f : Frame) : Nat := fget f.w0 52 51
def Frame.ecn (f : Frame) : Nat := fget f.w0 50 49
def Frame.epoch (f : Frame) : Nat := fget f.w0 48 48
def Frame.block (f : Frame) : Nat := fget f.w0 47 42
def Frame.dest (f : Frame) : Nat := fget f.w0 41 18
def Frame.flow (f : Frame) : Nat := fget f.w0 17 0
def Frame.srcDfid (f : Frame) : Nat := fget f.w1 63 40
def Frame.dstRank (f : Frame) : Nat := fget f.w1 39 20
def Frame.srcRank (f : Frame) : Nat := fget f.w1 19 0
def Frame.mseq (f : Frame) : Nat := fget f.w2 63 32
def Frame.paylen (f : Frame) : Nat := fget f.w2 31 16
def Frame.hop (f : Frame) : Nat := fget f.w2 15 8
def Frame.flags (f : Frame) : Nat := fget f.w2 7 0
def Frame.flag (f : Frame) (n : Nat) : Bool := wbit f.w2 n
def Frame.slotGroup (f : Frame) : Nat := fget f.w3 63 48
def Frame.chunk (f : Frame) : Nat := fget f.w3 47 32
def Frame.contrib (f : Frame) : Nat := fget f.w3 31 22
def Frame.fmt (f : Frame) : Nat := fget f.w3 21 18
def Frame.redop (f : Frame) : Nat := fget f.w3 17 15
def Frame.exact (f : Frame) : Bool := wbit f.w3 14
def Frame.step (f : Frame) : Nat := fget f.w3 13 0

end Sys2Proof

namespace Sys2Proof.Machine

/-- The register store: every register of the map by number, die (or engine, quad) and index; an unlisted register
holds its reset value (R12). -/
abbrev RegFile := SMap Word

/-- Key of a register in the store. The unit counts modulo 32 and the index modulo 2^21, more than any register has, so that no two
registers share a key. -/
def regKey (r : Reg) (unit idx : Nat) : Nat := (r.ctorIdx * 32 + unit % 32) * 2097152 + idx % 2097152

/-- Reset value by register number (R12). -/
def resetVal (r : Reg) : Word := smGet resetTable r.ctorIdx 0

/-- Reads a register. (DESIGN CHOICE, log 154) -/
def rget (m : RegFile) (r : Reg) (unit idx : Nat) : Word := smGet m (regKey r unit idx) (resetVal r)

/-- The bits of a register that are not reserved; of a multicast table word those of Table 3.2, of a descriptor word those of
Table 7.1. -/
def Reg.known (r : Reg) (idx : Nat) : Word :=
  match r with
  | .VM_MC =>
    let w := idx % 19
    if w < 16 then BitVec.allOnes 64 else if w = 16 then 3
    else (List.range 4).foldl (fun m i => m ||| fmask (16 * i + 15) (16 * i + 15) ||| fmask (16 * i + 9) (16 * i)) 0
  | .VM_DESC =>
    let w := idx % 27
    if w = 0 then fmask 63 18 else if w = 1 then fmask 63 9 else if w = 2 then fmask 63 38 else BitVec.allOnes 64
  | r => r.layout.foldl (fun m f => m ||| fmask f.hi f.lo) 0

/-- Writes a register. -/
def rset (m : RegFile) (r : Reg) (unit idx : Nat) (w : Word) : RegFile :=
  smSet m (regKey r unit idx) w (resetVal r)

end Sys2Proof.Machine
end

