-- ==== Sys2Proof/Machine/Dev.lean ====
section
/-! DEFINITION. The device's state outside the command queue, the fuses and the flash: the register store and, family
by family, what the manual gives the device besides registers. Plain data. -/

namespace Sys2Proof.Machine

/-- A queue's destination (R72): an egress port by first lane, or a sorus array of the device, 0-31
(16 times the die, plus the array). -/
inductive Dest where
  | port (lane : Nat)
  | array (a : Nat)
  deriving DecidableEq, Repr

/-- Where a frame came from (R93): an ingress port by first lane, a sorus array 0-31, or a die's shared origin. -/
inductive Origin where
  | port (lane : Nat)
  | array (a : Nat)
  | other (die : Nat)
  deriving DecidableEq, Repr

/-- The key of a chunk record (R177) with its home die. -/
structure ChunkKey where
  die : Nat
  desc : Nat
  chunk : Nat
  step : Nat
  deriving DecidableEq, Repr

/-- A frame descriptor of a VOQ or class 7 queue (R73). `cells` are the cells that hold the frame, in order;
`stamp` is the acceptance stamp of R113; `flip` is 1 or 2 when injected errors of one or two bits lie in
`flips` words of the frame's cells (R415); `result` names the chunk a result or partial copy belongs to (R186), `chunk` the
chunk whose record has admitted a contribution on its way to an array (R177). -/
structure Desc where
  id : Nat
  die : Nat
  origin : Origin
  dest : Dest
  cls : Nat
  frame : Frame
  cells : List Nat
  offset : Nat
  mrec : Option Nat
  stamp : Option Nat
  enq : Nat
  flip : Nat
  flips : Nat
  result : Option ChunkKey
  chunk : Option ChunkKey
  deriving DecidableEq, Repr

/-- What the device keeps of an allocated cell (R70): owner tag, audit mark, suspect mark of the last audit pass and
how many descriptors still read it. -/
structure CellInfo where
  owner : Nat
  mark : Bool
  suspect : Bool
  refs : Nat
  deriving DecidableEq, Repr

/-- The class credits a frame holds until its last cell is freed (R107). -/
structure CreditHold where
  id : Nat
  port : Nat
  cls : Nat
  credits : Nat
  cells : List Nat
  deriving DecidableEq, Repr

/-- A multicast record (R89): the cells of the frame, the copies not yet sent, and the requester charged. -/
structure McRecord where
  die : Nat
  requester : Option Nat
  cells : List Nat
  copies : Nat
  deriving DecidableEq, Repr

/-- A frame in transmission at an egress port: its descriptor, the cells in staging when it comes from the other die
(R82, R83), and whether it must leave with a stomped trailer (R69, R84). -/
structure Tx where
  desc : Desc
  staged : Nat
  stomp : Bool
  deriving DecidableEq, Repr

/-- A cell of a frame (by descriptor number, with its job block) acknowledged over the rhizoid links and not yet freed on the
ingress die (R24). -/
structure Ack where
  die : Nat
  frame : Nat
  block : Nat
  cell : Nat
  port : Option Nat
  cls : Nat
  deriving DecidableEq, Repr

/-- Thallus, queues, multicast, bundles (03_switch_core). Cells are keyed by `die * 2^20 + cell`, control buffer
cells by `die * 2^20 + 2^19 + cell`; an absent cell is free. -/
structure SwState where
  cells : SMap CellInfo
  queue : List Desc
  tx : SMap Tx
  acks : List Ack
  holds : List CreditHold
  opens : SMap (Nat × Nat)
  mrecs : SMap McRecord
  nextId : Nat
  rr : SMap Nat
  oldMap : SMap Word
  deriving DecidableEq, Repr

/-- A meter's buckets in bytes times 2^24 and the tick of its last frame (R100). `te` is the excess or peak bucket. -/
structure Meter where
  tc : Nat
  te : Nat
  last : Nat
  deriving DecidableEq, Repr

/-- A shaper's values in force and its tokens (R111); a register write waits for the refill boundary (R112). -/
structure Shaper where
  enable : Bool
  rate : Nat
  depth : Nat
  tokens : Int
  deriving DecidableEq, Repr

/-- One entry of a sampling ring (R116). -/
structure Sample where
  time : Nat
  depth : Nat
  delay : Nat
  deriving DecidableEq, Repr

/-- Traffic manager (04_traffic_management). Keys: meter `die*4096+m`; queue group `(die*1024+port)*8+class`;
shaper `port*8+shaper`; sampling entry `(port*8+class)*64+entry`; `quanta` the quanta of TM_SCH_CFG in force in a port's
present round. -/
structure TmState where
  meters : SMap Meter
  redAvg : SMap Nat
  peerDepth : SMap Nat
  lfsr : SMap (BitVec 32)
  lfsrLoaded : SMap Bool
  reserve : SMap Nat
  bulkTokens : SMap Int
  shapers : SMap Shaper
  shaperDirty : List Nat
  deficit : SMap Int
  drrClass : SMap Nat
  drrVoq : SMap Nat
  quanta : SMap Nat
  samples : SMap Sample
  satLatch : SMap Bool
  deriving DecidableEq, Repr

/-- A route entry (Table 5.1): kind 1 port, 2 bundle, 3 discard. `flip` marks injected errors (R415). -/
structure RouteEntry where
  poisoned : Bool
  len : Nat
  pfx : Nat
  kind : Nat
  target : Nat
  flip : Nat
  deriving DecidableEq, Repr

/-- A logical endpoint entry (Table 5.2): kind 0 static, 1 learned, 2 cached, 3 absent; target kind 1 port,
2 bundle, 0 none. -/
structure LogEntry where
  poisoned : Bool
  kind : Nat
  tkind : Nat
  target : Nat
  dfid : Nat
  block : Nat
  rank : Nat
  ts : Nat
  flip : Nat
  deriving DecidableEq, Repr

/-- A frame parked in the miss buffer (R126), or waiting for the home die's answer (R175). -/
structure Parked where
  die : Nat
  port : Nat
  key : Nat
  frame : Frame
  deriving DecidableEq, Repr

/-- A table change on its way to the other die (R131): the entry to write, or none to remove the key; `refresh`
changes only the timestamp; `tick` is the reference tick of the change. -/
structure CrossChange where
  from_ : Nat
  key : Nat
  entry : Option LogEntry
  refresh : Bool
  tick : Nat
  deriving DecidableEq, Repr

/-- A die's own latest change of a key (R131): its reference tick and, for a refresh, the timestamp it wrote. -/
structure OwnChange where
  tick : Nat
  refresh : Option Nat
  deriving DecidableEq, Repr

/-- The outcome of the table command that FWD_CMD still shows as busy (R136). -/
structure TblResult where
  status : Nat
  count : Nat
  deriving DecidableEq, Repr

/-- Forwarding tables (05_forwarding_tables). Keys: route `((die*2+bank)*32768+bucket)*8+slot`; on-die logical
`(die*32768+bucket)*8+slot`; backing `bucket*8+slot`; `lastChange` `die*2^26 + key`: the die's own last change of a key
(R131). -/
structure FwdState where
  routes : SMap RouteEntry
  active : SMap Nat
  swapPend : SMap Bool
  logical : SMap LogEntry
  backing : SMap LogEntry
  miss : List Parked
  fetches : List (Nat × Nat)
  homeWait : List Parked
  cross : List CrossChange
  cmd : SMap TblResult
  rebuild : SMap Bool
  lastChange : SMap OwnChange
  drainStart : SMap Nat
  written : List Nat
  deriving DecidableEq, Repr

/-- One element's accumulator (R153, R154, R158): special state, exact value at the format's weight, the FP32 or
32-bit word of fast sums and of min, max and bitwise operations, whether a contribution has been applied, and the residues
that its limbs carry, lowest limb first, 0 where none is listed (R146). -/
structure Acc where
  sp : Nat
  val : Int
  word : Nat
  init : Bool
  res : List Nat
  deriving DecidableEq, Repr

/-- States of a chunk record (Table 7.3); a free record is not listed. `held` is a completed chunk under R213. -/
inductive ChunkState where
  | onDie | spilled | passThrough | sending | closed | held
  deriving DecidableEq, Repr

/-- What is counted of one partial entry (R162, R177). -/
structure PartialCount where
  records : Nat
  last : Bool
  started : Bool
  deriving DecidableEq, Repr

/-- A chunk record with its accumulators (R177, Table 7.3). `units` are (cell, number) pairs of slot units;
`copies` counts copies of the emitted frames not yet done (R186); `flip` is 1 or 2 when injected errors of one or two bits
stand in the words of the cells `flips`, one entry a word (R415); `out` are the payloads of a completed chunk (R184). -/
structure ChunkRec where
  key : ChunkKey
  group : Nat
  block : Nat
  array : Nat
  state : ChunkState
  covered : BitVec 1024
  partials : SMap PartialCount
  admitted : Nat
  applied : Nat
  firstT : Nat
  lastT : Nat
  lastIdx : Nat
  lastApplied : Nat
  folded : Nat
  check : Nat
  accs : List Acc
  units : List (Nat × Nat)
  spillUnits : Nat
  resident : Bool
  fetching : Bool
  copies : Nat
  left : Bool
  verified : Bool
  retracted : Bool
  flip : Nat
  flips : List Nat
  recFlip : Nat
  out : List (List Byte)
  deriving DecidableEq, Repr

/-- A barrier counter's vector (R196); generation, weight and last member stand in SYNC_BAR_STAT. -/
abbrev BarVec := BitVec 1024

/-- One digest of a mirrored chunk with its snapshot: words L0 to L3 of Table 8.2. -/
structure Digest where
  l0 : Word
  l1 : Word
  l2 : Word
  l3 : Word
  deriving DecidableEq, Repr

/-- A pending entry of the lichen comparison (R212): key (slot group, chunk, step) and the digests seen. -/
structure LichenPend where
  die : Nat
  group : Nat
  chunk : Nat
  step : Nat
  own : Option Digest
  partner : Option Digest
  deriving DecidableEq, Repr

/-- Collectives and lichen (06, 07, 08). Closed records stand in `recs` in the order in which they closed;
`lichenDone` holds the resolved keys (die, slot group, chunk, step); `lichenOut` the digests of a die that wait for one of its 16
staged cells (R215); `arrIn` what each array has taken lately, as (tick, payload bytes); `descFlip` marks injected descriptor
errors by `die*32768 + descriptor`. -/
structure SyncState where
  recs : List ChunkRec
  claimPtr : SMap Nat
  barVec : SMap BarVec
  crzSeen : SMap (List Nat)
  lichen : List LichenPend
  lichenDone : List (Nat × Nat × Nat × Nat)
  lichenOut : List (Nat × Frame)
  arrIn : SMap (List (Nat × Nat))
  descFlip : SMap Nat
  deriving DecidableEq, Repr

/-- An event or error record: words E0 to E3 of Table 14.5. -/
structure EvRec where
  e0 : Word
  e1 : Word
  e2 : Word
  e3 : Word
  deriving DecidableEq, Repr

/-- What a flight-recorder record takes from the triggering die at the instant of the trigger (R427, Table 18.4): ticks (F3), input
of the array concerned and staging cells in use (F8), ERR_NEXT, ERR_COUNT and RED_CELL_STAT (F14 to F16). -/
structure Capture where
  ticks : Nat
  input : Nat
  staging : Nat
  next : Word
  count : Word
  cell : Word
  deriving DecidableEq, Repr

/-- What a flight-recorder record takes from each core die (R427, Table 18.4): HUB_AVS_STAT (F4, F5) and free Thallus cells (F7). -/
structure DieWords where
  avs : Word
  free : Nat
  deriving DecidableEq, Repr

/-- A flight-recorder record as its trigger fixes it (R427, Table 18.4): trigger, block, instance and code of F0, the triggering die
(2 the hub), the HUB_STRAP index of the die that holds it while the hub is in reset, the hall time, F2, the captures of the
triggering die and of both core dies, F18 to F22. A capture that was lost is none. -/
structure FlightTrig where
  trigger : Nat
  blk : Nat
  inst : Nat
  code : Nat
  unit : Nat
  hold : Nat
  time : Nat
  f2 : Word
  own : Option Capture
  die0 : Option DieWords
  die1 : Option DieWords
  lich : List Word
  deriving DecidableEq, Repr

/-- A record held by a die while the hub is in reset (R132, R411): index of HUB_STRAP, whether it is an error record, the record. -/
structure HeldRec where
  unit : Nat
  isErr : Bool
  record : EvRec
  deriving DecidableEq, Repr

/-- Events, the error ring and the flight recorder (R346 to R348, R409 to R411, R426). `lost` counts the records lost while the hub
is in reset, `lostErr` the error records among them. `firstAt` gives for a block instance, by `ctorIdx*32 + instance`, the tick at
which its ERR_FIRST latched (R408), `lastCorr` by 256 times that plus the code the last correctable error let through (R410).
`heldFlights` are the records whose captures wait for the hub (R427), `flightFlip` the injected errors of a stored record: bits
flipped and 64-byte words hit (R415). -/
structure EvState where
  seq : Nat
  history : List EvRec
  waiting : List EvRec
  held : List HeldRec
  lost : Nat
  lostErr : Nat
  ring : SMap EvRec
  firstAt : SMap Nat
  lastCorr : SMap Nat
  flight : SMap (List Word)
  flightFlip : SMap (Nat × Nat)
  flightSeq : Nat
  heldFlights : List FlightTrig
  deriving DecidableEq, Repr

/-- What the active image says of an attachment group (R19, R33, Table 1.3): electrical with its long-reach group 0-31 of
the same die, or optical; stage role or spine role. A group that is not listed is inactive. -/
structure GroupInfo where
  electrical : Bool
  longReach : Nat
  stage : Bool
  deriving DecidableEq, Repr

/-- What the active image says of a port (Table 1.3): lanes, the stage kind of R90: 0 endpoint, 1 row peer, 2 column peer,
3 uplink, and the job block mask of R56. -/
structure PortInfo where
  width : Nat
  kind : Nat
  blocks : Word
  deriving DecidableEq, Repr

/-- A cartridge site in section 12 of the image (R361): the owning device's ports on the electrical attachment groups it
carries, the expected part code and the largest insertion loss in 0.01 dB. -/
structure SiteCfg where
  ports : List Nat
  part : Nat
  maxLoss : Nat
  deriving DecidableEq, Repr

/-- Stage configuration, section 12 of the image (R360, R361, R364): priority, position, the positions of the peers on
SB0 to SB5, the stage's sites in use by 8 times the position plus the site, the temperature limit of a cartridge in 1/16 °C
where the section gives one, and the digest of the section. -/
structure StageCfg where
  prio : Nat
  pos : Nat
  links : List Nat
  sites : SMap SiteCfg
  tempLimit : Option Nat
  digest : List Byte
  deriving DecidableEq, Repr

/-- The temperature limit of a cartridge (R364): 70 °C where section 12 gives none. -/
def StageCfg.limit (c : StageCfg) : Nat := c.tempLimit.getD 1120

/-- The active image's structure that no register holds (R36, Table 1.3, Table 14.8): the chiplet allow-list and streams
of section 11 (R303), the stage configuration and the configuration digest D (R357, 48 bytes). -/
structure Cfg where
  active : Bool
  groups : SMap GroupInfo
  ports : SMap PortInfo
  bundles : SMap (List Nat)
  originHop : Nat
  allow : List (List Byte)
  streams : Nat
  stage : StageCfg
  digest : List Byte
  deriving DecidableEq, Repr

/-- The last time frame received on a port, kept for the next echo (R384): its T0, its sequence, its arrival time. -/
structure TimeRx where
  t0 : Word
  seq : Nat
  arrival : Nat
  deriving DecidableEq, Repr

/-- Fabric time (16_fabric_time). `hall` and `copies` are the counters in 32.32 fixed point (R380, R381), `inc` the
increment in force, `pendInc` and `pendAdj` what the next reference tick applies (R382). `txSeq`, `txTimes` (port, frame
sequence, departure time) and `rx` serve the frames and echoes of each port; `caps` are the capture rings by
`(source*16 + entry)*4 + word`, `capNext` their next entries. `valid` lists the sources (1 primary, 2 secondary) that deliver
valid frames, `good` counts the primary's valid frames in a row, `steps` are the steps of each source's last valid frame (R385).
`freq` is the servo's frequency term in units of 2^-49, `streak` its
streak (R386). `dropped` counts the frames each die dropped while the hub was in reset (R384). `epochK` is the boundary
bit in force (R390), `lastBoundary` the tick of a set's last boundary by unit, `due` the units whose boundary falls on
the present tick, `cntClear` the (unit, set) pairs that the next tick clears (R421), `cntEn` those whose CNT_CTRL enable changed in
this tick and acts from the next (Table 18.5). `copyInc` is the increment at which the copies run on by themselves from a hub reset to
the attach (R388). -/
structure TimeState where
  hall : Nat
  copies : SMap Nat
  inc : Nat
  pendInc : Option Nat
  pendAdj : Int
  txSeq : SMap Nat
  txTimes : List (Nat × Nat × Nat)
  rx : SMap TimeRx
  caps : SMap Word
  capNext : SMap Nat
  valid : List Nat
  good : Nat
  steps : SMap Nat
  freq : Int
  streak : Nat
  dropped : SMap Nat
  epochK : SMap Nat
  lastBoundary : SMap Nat
  due : List Nat
  cntClear : List (Nat × Nat)
  cntEn : List (Nat × Nat)
  copyInc : Option Nat
  deriving DecidableEq, Repr

/-- A 128-byte segment of a link block (R267, R269): full data, data up to the end of the last frame with its fill, a link-local
frame with its trailer and zero padding, idle. -/
inductive Seg where
  | data (bytes : List Byte)
  | last (bytes : List Byte)
  | ctl (bytes : List Byte)
  | idle
  deriving DecidableEq, Repr

/-- A link block (R267, R268): sequence, ack and ten segments for each lane of the port, lowest lane first. -/
structure LinkBlock where
  seq : Nat
  ack : Nat
  lanes : List (List Seg)
  deriving DecidableEq, Repr

/-- A link-local frame that waits for a segment, with the tick at which it was made (R270, R279). -/
structure Ctl where
  port : Nat
  f : Frame
  at_ : Nat
  deriving DecidableEq, Repr

/-- The transmit side of a port's link layer: the replay buffer, oldest block first (R271), the index of the next block
to replay, the consecutive replays of the oldest sequence without ack progress (R274), the bytes of frames that have
left the egress scheduler and stand in no block yet, the segments sent on the lowest lane since its last link-local
frame (R270), whether an idle command is pending (R285), the blocks sent since block 0 (R231), and the null blocks that a direction
leaving idle has still to send (Table 11.9). -/
structure TxLink where
  replay : List LinkBlock
  cursor : Option Nat
  rounds : Nat
  stream : List Byte
  since : Nat
  idleCmd : Bool
  blocks : Nat
  exit : Nat
  deriving DecidableEq, Repr

/-- The receive side: expected sequence, whether it waits for a replay (R272), the bytes of a frame not yet whole, the
consecutive blocks that did not decode (R284) and did decode (R281), and the blocks received since block 0. -/
structure RxLink where
  expected : Nat
  waiting : Bool
  stream : List Byte
  bad : Nat
  good : Nat
  blocks : Nat
  deriving DecidableEq, Repr

/-- A training attempt (R281) and the advertisement exchange (R278): the lanes whose training words have been found,
the lanes adapted, whether the round trip is known, whether a partner advertisement has arrived and one with ack set
has been sent. `fails` are consecutive failed trainings (R282), `rxFail` counts by
lane the consecutive failed trainings in which the partner set rx_fail (R283), `seenFail` are the lanes on which it did
in this attempt, `logged` that error code 1 was logged, `tried` that a first training has finished (R307). `starts` are the
lanes on which the partner has announced its block 0, `stamps` by lane the partner's last stamp and the tick of its arrival
(Table 11.7), `force` by lane the LANE_CFG precode of the training (R265), `asks` by lane what this end's receiver puts into its
words: the coefficient request, and whether it cannot lock or adapt. -/
structure Train where
  words : List Nat
  adapted : List Nat
  rtt : Bool
  gotAdv : Bool
  sentAck : Bool
  fails : Nat
  rxFail : SMap Nat
  seenFail : List Nat
  logged : Bool
  tried : Bool
  starts : List Nat
  stamps : SMap (Nat × Nat)
  force : SMap Nat
  asks : SMap (Nat × Bool)
  deriving DecidableEq, Repr

/-- A heartbeat request not yet judged (R393). -/
structure HbReq where
  seq : Nat
  answered : Bool
  deriving DecidableEq, Repr

/-- What a lane sends outside link blocks: the stream of a training attempt (R280), or on `exit` the waveform of an exit from idle
(Table 11.9). `sent` are its symbols so far, `place` that of its pattern, `word` what is left of a training word, `stop` the symbol
at which blocks begin once that is known. -/
structure Wave where
  exit : Bool
  sent : Nat
  place : Nat
  word : List Nat
  stop : Option Nat
  deriving DecidableEq, Repr

/-- A lane's pattern checker (R290): the latest symbols while it is not locked, at most 64, and the place in the pattern of
the next symbol once it is. -/
structure PatCheck where
  window : List Nat
  next : Nat
  deriving DecidableEq, Repr

/-- Lanes and links (11_lanes_and_links, and the liveness of 17), keyed by port, or `port*8+class`, or lane.
`partnerAdv` are the credits the partner advertised, `ownAdv` by port the credits of each class that this end has advertised
since the link last went down, `crTotal` the running totals returned to it, `crBase` the totals
last received. `ctl` are the link-local frames waiting for a segment, `delivered` the frames that the receiver has
handed to the parser (first byte first). By lane: `rxWl` the wavelength its receive filter serves (R281), `coef` the
pre- and post-cursor steps from the preset, `coefAck` the answer to the partner's last request and `preReq` this
receiver's own precoding request (Table 11.7), `inj`
the injections still to make and `injCtr` the blocks or bits since the last one (R291), `txPre` and `rxPre` the last precoded
symbol sent and received (R265), `gen` the place of the pattern generator in its pattern and `chk` the checker (R290), `wave` the
stream of a lane that trains or leaves idle. -/
structure LinkState where
  partnerAdv : SMap Nat
  ownAdv : SMap (List Nat)
  crTotal : SMap Nat
  crBase : SMap Nat
  tx : SMap TxLink
  rx : SMap RxLink
  train : SMap Train
  hb : SMap (List HbReq)
  ctl : List Ctl
  delivered : List (Nat × List Byte)
  rxWl : SMap Nat
  coef : SMap (Int × Int)
  coefAck : SMap Nat
  preReq : SMap Nat
  inj : SMap Nat
  injCtr : SMap Nat
  txPre : SMap Nat
  rxPre : SMap Nat
  gen : SMap Nat
  chk : SMap PatCheck
  wave : SMap Wave
  deriving DecidableEq, Repr

/-- The requesting end of a substitution or revert on one transmit fibre (R231): phase 1 awaiting ready, 2 training,
3 copying, 4 switch sent; `lock` the modulator's lock, `ready` the ready answer, `block` the block of the
switch message. -/
structure SubReq where
  seq : Nat
  op : Nat
  from_ : Nat
  to_ : Nat
  phase : Nat
  lock : Bool
  ready : Bool
  block : Nat
  deriving DecidableEq, Repr

/-- The far end of a negotiation on one receive fibre (R231): phase 1 tuning, 2 ready sent, 3 mirror request sent,
4 mirror good sent, 5 switch block known, 6 done, 7 refused. -/
structure SubFar where
  seq : Nat
  op : Nat
  from_ : Nat
  to_ : Nat
  phase : Nat
  block : Nat
  deriving DecidableEq, Repr

/-- A feed changeover or return in progress (Table 9.6): the feed it goes to, and whether the selector has switched. -/
structure FeedChange where
  to_ : Nat
  switched : Bool
  deriving DecidableEq, Repr

/-- Optical engines (09_optical_engines). `feed` and `txf` are the latest valid samples, newest first, at most 8, keyed
`engine*32 + 9*feed + wavelength` and by transmit fibre; `deep` are the wavelengths past -3.5 dB by engine (bit mask);
`minSet` the feed monitors whose minimum has a level; `carry` the wavelength of a lane moved from its own; `req` and
`far` the negotiations by transmit and receive fibre; `low` the transmit fibres reported under R225, `settling` the engines
whose first feed evaluation (R222) is still to come, `rounds` the samples since their calibration; `run` the samples in a row
that found a feed ready, keyed `engine*2 + feed` (Table 9.6 step 3); `cmd` the OE_CMD op that runs on an engine. -/
structure OeState where
  feed : SMap (List Int)
  ref : SMap Int
  txf : SMap (List Int)
  deep : SMap Nat
  minSet : List Nat
  carry : SMap Nat
  req : SMap SubReq
  far : SMap SubFar
  change : SMap FeedChange
  low : List Nat
  settling : List Nat
  rounds : SMap Nat
  run : SMap Nat
  cmd : SMap Nat
  deriving DecidableEq, Repr

/-- A section of the calibration store (R241, R243): whether its digest verifies, whether it holds user values, the commits
since the last restore, and its values: for an engine the references of 18 feed and 8 fibre monitors, then 144 heater
settings and 144 biases; for a quad 32 input and 32 output tap offsets, then the phase table; for a core die the presets. -/
structure CalSec where
  ok : Bool
  user : Bool
  commits : Nat
  data : List Nat
  deriving DecidableEq, Repr

/-- The circuit record that the bias cells hold for one mesh input (R258): outputs, state, verified losses and levels
by output. -/
structure BiasRec where
  outputs : Word
  state : Nat
  loss : SMap Nat
  level : SMap Int
  deriving DecidableEq, Repr

/-- A command that a bypass die runs (Table 10.2): op and input, and whether it is the setup of an image circuit (R259). -/
structure BypOp where
  op : Nat
  input : Nat
  image : Bool
  deriving DecidableEq, Repr

/-- Bypass dies (10_optical_bypass). `rec_` are the circuit records of the bias cells by `quad*32 + input`, `temp` the
die temperature of a quad at its last bias cell commit: both survive every reset and the loss of every supply. `inp`
and `outp` are the latest tap samples, newest first; `op` the running command of a quad; `read` the quads whose bias
cells have been read since they left reset, `noNew` those whose section failed (error code 3), `todo` the circuits
(quad, input, outputs) that an image activation still has to set up, `offs` the tap offsets (inputs, then outputs), `phases`
the working mesh phase table by quad, `await` the image's circuits of a quad whose records were not yet read at the
activation (R259). -/
structure BypState where
  rec_ : SMap BiasRec
  temp : SMap Nat
  inp : SMap (List Int)
  outp : SMap (List Int)
  op : SMap BypOp
  read : List Nat
  noNew : List Nat
  todo : List (Nat × Nat × Word)
  offs : SMap Nat
  phases : SMap (List Nat)
  await : SMap (List (Nat × Word))
  deriving DecidableEq, Repr

/-- The receive side of a rhizoid bundle (R297, R298): the expected flit sequence, whether it waits for a resend, and
how often the expected flit has failed. -/
structure RxBundle where
  expected : Nat
  waiting : Bool
  fails : Nat
  deriving DecidableEq, Repr

/-- A flit (R297): its sequence and acknowledgement, the destination cell indices and its two cells of 256 bytes. -/
structure Flit where
  seq : Nat
  ack : Nat
  idx0 : Nat
  idx1 : Nat
  cell0 : List Byte
  cell1 : List Byte
  deriving DecidableEq, Repr

/-- The transmit side of a rhizoid bundle (R298): the sequence of its next flit, and the flits sent and not acknowledged,
oldest first. -/
structure TxBundle where
  next : Nat
  retry : List Flit
  deriving DecidableEq, Repr

/-- Rhizoid links (12_package_and_boot), keyed `die*32 + bundle` by receiving die, 16 for the control bundle: `rx` and `tx`
the two ends of a data bundle, `fused` the wires that its fuses exclude, `wires` the wire that carries each data position, `bad` the wires taken out of use (R299);
`moved` by receiving die the flits of lost bundles that wait for another one (R300), `cells` by `die * 2^64 + index` the 256 bytes
that the last accepted flit brought to a cell of the die, `ctlDown` the dies whose control bundle is down. -/
structure D2dState where
  rx : SMap RxBundle
  tx : SMap TxBundle
  fused : SMap (List Nat)
  wires : SMap (List Nat)
  bad : SMap (List Nat)
  moved : SMap (List Flit)
  cells : SMap (List Byte)
  ctlDown : List Nat
  deriving DecidableEq, Repr

/-- Supplies, clocks, speed margin and resets (12, 13, 17, 20): PWRGOOD; the rails out of range by row of Table 20.2;
the reference clocks absent (0 and 1 the core dies, 2 the hub); whether a package reset waits for its start; the dies
without speed margin (R322), and by die the tick since which s105 has stood at or above its lower bound; the tick of each
die's last change of setpoint (R321); GDDR7 channels in self-refresh after a case trip (Table 13.6), the engines that a
thermal trip took out of service (Table 13.7); the open fatal windows by HUB_STRAP index (R413); the tick at which the
present start began; ticks spent in hold; the tick at which a core die went headless (R312); while the hub is in reset, the
blocks that core dies 0 and 1 admit (R311); the tick of the latest known reading of VDD_CORE_IN. -/
structure PwrState where
  good : Bool
  rails : List Nat
  clocks : List Nat
  restart : Bool
  margin : List Nat
  atLo : SMap Nat
  lastStep : SMap Nat
  hot : List Nat
  tripped : List Nat
  window : List Nat
  began : Nat
  holdTicks : Nat
  entered : SMap Nat
  admits : List Word
  railAt : Option Nat
  deriving DecidableEq, Repr

/-- What the device keeps of a requester (R340): the highest accepted sequence stands in MGT_REQ_STAT; bit i of `seen` is
sequence H - i; `cache` the latest answers, newest first, as (sequence, datagram). -/
structure Requester where
  seen : BitVec 64
  cache : List (Nat × List Byte)
  deriving DecidableEq, Repr

/-- An open file transfer (R351, R352): type, activate, total length, the data blocks of 1,408 bytes received by number,
by block the words of 64 B with one injected flipped bit (R415), and whether a commit is being verified. -/
structure Xfer where
  kind : Nat
  activate : Nat
  total : Nat
  data : SMap (List Byte)
  flips : SMap Nat
  verifying : Bool
  deriving DecidableEq, Repr

/-- Management (14): requesters, the open transfer, the job blocks that report quiesced (R349). -/
structure MgtState where
  reqs : SMap Requester
  xfer : Option Xfer
  quiesced : BitVec 64
  deriving DecidableEq, Repr

/-- A quote held or in progress (R378): bytes 0 to 351, and the signatures, empty while it is being signed; and the debug
access attempts that wait for the hub (R374). -/
structure SecState where
  quote : List Byte
  sigs : List Byte
  waiting : Nat
  deriving DecidableEq, Repr

/-- Presence, enable and state of a site as a status message gives them (R364). -/
structure SiteStat where
  present : Bool
  enable : Bool
  state : Nat
  deriving DecidableEq, Repr

/-- A status message's content (R364): serial, digest of section 12, HUB_THERM_STAT, traffic-ready, sites. -/
structure StageStat where
  serial : Nat
  digest : List Byte
  therm : Word
  ready : Bool
  sites : List SiteStat
  deriving DecidableEq, Repr

/-- What a peer sideband message says (R359, R360, R362, R364). The manual gives its size and CRC and no layout.
(DESIGN CHOICE, log 22) -/
inductive StageBody where
  | claim (epoch prio : Nat)
  | beacon (epoch prio : Nat)
  | status (s : StageStat)
  /-- The controller commands a site's power enable (R362). -/
  | enable (position site : Nat) (on : Bool)
  /-- The controller releases the groups of a site, or refuses it, with the state shown (R362). -/
  | result (position site : Nat) (state : Nat)
  deriving DecidableEq, Repr

/-- A peer sideband message: origin position, sequence and content. -/
structure StageMsg where
  origin : Nat
  seq : Nat
  body : StageBody
  deriving DecidableEq, Repr

/-- Stage control (R359 to R364): the highest epoch seen, the own key (epoch, priority, 15 - position), the last 64
messages seen as (origin, kind, sequence), the next own sequence, the peers' latest status, the peers reported
mismatched, the identity bytes read by site, the MGT_CART_STAT words of peers' sites as the controller checked them, the sites whose cartridge has its dynamic address (R361), the cartridges reported
at their temperature limit (position*8 + site), the sites of peers that the controller has started and whose status does not
show it yet, and the tick at which the controller last started a site. -/
structure StageState where
  epochSeen : Nat
  key : Nat × Nat × Nat
  seen : List (Nat × Nat × Nat)
  nextSeq : Nat
  peers : SMap StageStat
  mismatched : List Nat
  ident : SMap (List Byte)
  checked : SMap Word
  dynamic : List Nat
  hot : List Nat
  started : List Nat
  lastStart : Option Nat
  deriving DecidableEq, Repr

/-- What a network of the device sends under (R334): MAC address, IPv4 address, VLAN ID. -/
structure NetId where
  mac : Nat
  addr : Nat
  vid : Nat
  deriving DecidableEq, Repr

/-- A transfer on the I3C bus of a cartridge site (R361): every dynamic address reset, a dynamic address set from a static one, a
private read of `n` bytes from an offset. -/
inductive I3cOp where
  | rstdaa
  | setdasa (static dynamic : Nat)
  | read (dynamic off n : Nat)
  deriving DecidableEq, Repr

/-- What leaves the device. The log of these is the model's own. (DESIGN CHOICE, log 3) -/
inductive Output where
  /-- A frame on a fabric port; a stomped one carries the complemented trailer (R69). -/
  | frame (port : Nat) (f : Frame) (stomped : Bool)
  /-- A link block on a fabric port (R267 to R271), with the symbol values that each lane sends (R264 to R266, R291). -/
  | block (port : Nat) (b : LinkBlock) (symbols : List (List Nat))
  /-- Symbol values that a lane sends outside a link block: a test pattern (R290), what it loops back (R292), training
  (R280) or the waveform of an exit from idle (Table 11.9). -/
  | symbols (lane : Nat) (values : List Nat)
  /-- A training word whose symbols begin on a lane (R280). -/
  | trainWord (lane : Nat) (words : List Word)
  /-- A KXX-M datagram (R337) that leaves on a management port, from the network's MAC and IPv4 address with its VLAN ID (0
  untagged), to an IPv4 address and UDP port, by a next hop (R334). -/
  | dgram (port : Nat) (own : NetId) (addr udp via : Nat) (bytes : List Byte)
  /-- An ARP answer on a management port (R334). -/
  | arp (port : Nat) (own : NetId)
  /-- A transfer of a cartridge site's I3C bus (R361). -/
  | i3c (site : Nat) (op : I3cOp)
  /-- A message on a peer sideband link (R359). -/
  | side (link : Nat) (m : StageMsg)
  /-- A measurement request to the chiplet (R303). -/
  | ucieAsk
  /-- A request of a receiving die to resend a flit of a bundle (R298). -/
  | flitAsk (die bundle seq : Nat)
  deriving DecidableEq, Repr

/-- The device outside queue, fuses and flash. `release` holds the tick at which core die 0, 1 and the hub (2) left
reset (R419); `parserDrops` is keyed `port*16 + reason` (R60); `freeCtr` indexes the free values. -/
structure Dev where
  regs : RegFile
  tick : Nat
  release : SMap Nat
  freeCtr : Nat
  out : List Output
  cfg : Cfg
  time : TimeState
  ev : EvState
  sw : SwState
  tm : TmState
  fw : FwdState
  sy : SyncState
  ln : LinkState
  oe : OeState
  by_ : BypState
  d2 : D2dState
  pw : PwrState
  mg : MgtState
  se : SecState
  st : StageState
  parserDrops : SMap Nat
  deriving DecidableEq, Repr

end Sys2Proof.Machine
end

