-- ==== Sys2Proof/Machine/Arith.lean ====
section
/-! DEFINITION. What the sorus cells compute (06_reduction_arithmetic): decoding of elements (R149 to R151), exact and
fast accumulation (R153 to R155), rounding (R156, R157), minimum, maximum and bitwise operations (R158), exact
partials (R160 to R162), slot units (R163) and the known-answer patterns (R216). Values are exact integers. -/

namespace Sys2Proof.Machine

/-- Whether an element format is an MX format (codes 7 to 11). -/
def fmtMx (f : Nat) : Bool := 7 ≤ f && f ≤ 11

/-- Whether an element format is an integer format. -/
def fmtInt (f : Nat) : Bool := f ≤ 1

/-- Bits of an element (Table 6.1). -/
def fmtBits (f : Nat) : Nat :=
  match f with
  | 0 => 8 | 1 => 32 | 2 => 8 | 3 => 8 | 4 => 16 | 5 => 16 | 6 => 32 | 7 => 8 | 8 => 8 | 9 => 6 | 10 => 6 | _ => 4

/-- Fraction bits p of a floating-point format (Table 6.1). -/
def fmtFrac (f : Nat) : Nat :=
  match f with
  | 2 => 3 | 3 => 2 | 4 => 10 | 5 => 7 | 6 => 23 | 7 => 3 | 8 => 2 | 9 => 2 | 10 => 3 | _ => 1

/-- Exponent bias of a floating-point format (Table 6.1). -/
def fmtBias (f : Nat) : Nat :=
  match f with
  | 2 => 7 | 3 => 15 | 4 => 15 | 5 => 127 | 6 => 127 | 7 => 7 | 8 => 15 | 9 => 3 | _ => 1

/-- Largest unbiased exponent of a finite value; for MX formats e_elem of R157. -/
def fmtEmax (f : Nat) : Nat :=
  match f with
  | 2 => 8 | 3 => 15 | 4 => 15 | 5 => 127 | 6 => 127 | 7 => 8 | 8 => 15 | 9 => 4 | _ => 2

/-- Largest significand (p+1 bits) at the largest exponent: 448 in E4M3 leaves out the NaN code. -/
def fmtSigMax (f : Nat) : Nat := if f = 2 || f = 7 then 14 else 2 ^ (fmtFrac f + 1) - 1

/-- Weight exponent q of the exact accumulator's least significant bit (Table 6.1). -/
def fmtQ (f : Nat) : Int :=
  match f with
  | 0 => 0 | 1 => 0 | 2 => -16 | 3 => -16 | 4 => -160 | 5 => -160 | 6 => -320 | _ => -143

/-- Limbs of the exact accumulator (Table 6.1). -/
def fmtLimbs (f : Nat) : Nat :=
  match f with
  | 0 => 1 | 1 => 1 | 2 => 1 | 3 => 1 | 6 => 10 | _ => 5

/-- Value width W of the exact accumulator (R154). -/
def fmtWidth (f : Nat) : Nat := if fmtInt f then 64 else 64 * fmtLimbs f - 2

/-- A decoded element: special state (0 finite, 1 +infinity, 2 -infinity, 3 NaN), sign, magnitude `m * 2^k`, and the
element's own bits (R151, R155). -/
structure Dec where
  sp : Nat
  neg : Bool
  m : Nat
  k : Int
  raw : Nat
  deriving DecidableEq, Repr

/-- Decodes one element's bits (Table 6.1, R155). -/
def decodeElem (f raw : Nat) : Dec :=
  if fmtInt f then
    let w := fmtBits f
    let neg := 2 ^ (w - 1) ≤ raw
    ⟨0, neg, if neg then 2 ^ w - raw else raw, 0, raw⟩
  else
    let p := fmtFrac f
    let w := fmtBits f
    let neg := 2 ^ (w - 1) ≤ raw
    let mag := raw % 2 ^ (w - 1)
    let e := mag / 2 ^ p
    let fr := mag % 2 ^ p
    let top := 2 ^ (w - 1 - p) - 1
    if (f = 2 || f = 7) && e = top && fr = 2 ^ p - 1 then ⟨3, neg, 0, 0, raw⟩
    else if (f = 3 || f = 4 || f = 5 || f = 6 || f = 8) && e = top then
      ⟨if fr = 0 then (if neg then 2 else 1) else 3, neg, 0, 0, raw⟩
    else if e = 0 then ⟨0, neg, fr, 1 - (fmtBias f : Int) - p, raw⟩
    else ⟨0, neg, 2 ^ p + fr, (e : Int) - fmtBias f - p, raw⟩

/-- Bytes of a block's elements in an MX format (R150). -/
def mxBlockBytes (f : Nat) : Nat := 4 * fmtBits f

/-- Number of MX blocks in a payload of P bytes (R150). -/
def mxBlocks (f P : Nat) : Nat := P / (mxBlockBytes f + 1)

/-- Elements E of a payload of P bytes (R149, R150, R172). -/
def elemCount (f P : Nat) : Nat := if fmtMx f then 32 * mxBlocks f P else P / (fmtBits f / 8)

/-- Splits bytes into little-endian numbers of `n` bytes; `fuel` bounds their count. -/
def chunksLe (n : Nat) : Nat → List Byte → List Nat
  | 0, _ => []
  | fuel + 1, bs => if bs.length < n || n = 0 then [] else leNat (bs.take n) :: chunksLe n fuel (bs.drop n)

/-- The 32 elements of one MX block with its scale (R150, R151). -/
def mxBlockDec (f : Nat) (block scale : Nat) : List Dec :=
  (List.range 32).map fun j =>
    let e := decodeElem f (block / 2 ^ (fmtBits f * j) % 2 ^ fmtBits f)
    if scale = 255 then { e with sp := 3, m := 0, k := 0 } else { e with k := e.k + scale - 127 }

/-- The decoded elements of a payload (R149 to R151). -/
def decodePayload (f : Nat) (pay : List Byte) : List Dec :=
  if fmtMx f then
    let n := mxBlocks f pay.length
    let bb := mxBlockBytes f
    let blocks := chunksLe bb n pay
    let scales := (pay.drop (n * bb)).take n
    (List.zipWith (fun b (s : Byte) => mxBlockDec f b s.toNat) blocks scales).flatten
  else (chunksLe (fmtBits f / 8) pay.length pay).map (decodeElem f)

/-- The significand and exponent of a positive `v * 2^q` rounded to nearest even with p fraction bits and bias b
(the first part of R156). -/
def roundSig (p b : Nat) (q : Int) (v : Nat) : Nat × Int :=
  let t : Int := Nat.log2 v
  let e := max (t + q) (1 - (b : Int))
  let cut := e - p - q
  let sig :=
    if cut ≤ 0 then v * 2 ^ (-cut).toNat
    else
      let c := cut.toNat
      let s := v / 2 ^ c
      let guard := v / 2 ^ (c - 1) % 2
      let sticky := v % 2 ^ (c - 1)
      if guard = 1 && (sticky != 0 || s % 2 = 1) then s + 1 else s
  if sig = 2 ^ (p + 1) then (sig / 2, e + 1) else (sig, e)

/-- Encodes sign, exponent and significand in a floating-point format; `sig < 2^p` is a subnormal (R156). -/
def encodeFp (f : Nat) (neg : Bool) (sig : Nat) (e : Int) : Nat :=
  let p := fmtFrac f
  let s := if neg then 2 ^ (fmtBits f - 1) else 0
  if sig < 2 ^ p then s + sig else s + (e + fmtBias f).toNat * 2 ^ p + (sig - 2 ^ p)

/-- Canonical NaN of a format (R156). -/
def canonNaN (f : Nat) : Nat :=
  match f with
  | 2 => 0x7F | 3 => 0x7E | 4 => 0x7E00 | 5 => 0x7FC0 | _ => 0x7FC00000

/-- The code of an infinity (FP8 E5M2, FP16, BF16, FP32). -/
def infCode (f : Nat) (neg : Bool) : Nat :=
  encodeFp f neg (2 ^ fmtFrac f) (fmtEmax f + 1)

/-- An output element: its code and what it counts as: 3 integer saturation, 4 overflow, 5 NaN, 0 none (R156). -/
structure OutElem where
  code : Nat
  evt : Nat
  deriving DecidableEq, Repr

/-- Whether a rounded magnitude exceeds the largest finite value. -/
def overflows (f sig : Nat) (e : Int) : Bool :=
  decide ((fmtEmax f : Int) < e) || (decide (e = fmtEmax f) && decide (fmtSigMax f < sig))

/-- Rounds a value into a non-MX floating-point format (R156); `zneg` is the sign a zero takes. -/
def roundFp (f : Nat) (sp : Nat) (neg : Bool) (v : Nat) (q : Int) (zneg : Bool) : OutElem :=
  if sp = 3 then ⟨canonNaN f, 5⟩
  else if sp = 1 || sp = 2 then if f = 2 then ⟨canonNaN f, 5⟩ else ⟨infCode f (sp = 2), 0⟩
  else if v = 0 then ⟨if zneg then 2 ^ (fmtBits f - 1) else 0, 0⟩
  else
    let (sig, e) := roundSig (fmtFrac f) (fmtBias f) q v
    if overflows f sig e then
      ⟨if f = 2 then encodeFp f neg (fmtSigMax f) (fmtEmax f) else infCode f neg, 4⟩
    else ⟨encodeFp f neg sig e, 0⟩

/-- Rounds `v * 2^q` with a sign into FP32 (R153). -/
def f32Round (neg : Bool) (v : Nat) (q : Int) : Nat := (roundFp 6 0 neg v q neg).code

/-- The FP32 value of a decoded element (R153): exact for codes 2 to 6, rounded for MX. -/
def decToF32 (x : Dec) : Nat :=
  if x.sp = 3 then canonNaN 6 else if x.sp ≠ 0 then infCode 6 (x.sp = 2) else f32Round x.neg x.m x.k

/-- Signed magnitude of a finite decoded value at weight 2^q (q at most its own exponent). -/
def decInt (x : Dec) (q : Int) : Int :=
  let v : Int := x.m * 2 ^ (x.k - q).toNat
  if x.neg then -v else v

/-- IEEE 754 binary32 addition, nearest even (R153). -/
def f32Add (a b : Nat) : Nat :=
  let x := decodeElem 6 a
  let y := decodeElem 6 b
  if x.sp = 3 || y.sp = 3 then canonNaN 6
  else if x.sp ≠ 0 then (if y.sp ≠ 0 && y.sp ≠ x.sp then canonNaN 6 else a)
  else if y.sp ≠ 0 then b
  else
    let s := decInt x (-149) + decInt y (-149)
    if s = 0 then (if x.neg && y.neg then 2 ^ 31 else 0)
    else f32Round (s < 0) s.natAbs (-149)

/-- An accumulator before its first contribution. -/
def Acc.zero : Acc := ⟨0, 0, 0, false, []⟩

/-- An integer as a two's complement value of `w` bits: a carry out is discarded (R154, Table 6.7). -/
def wrapTo (w : Nat) (v : Int) : Int := (v + 2 ^ (w - 1)) % 2 ^ w - 2 ^ (w - 1)

/-- The long accumulator as one number of 64 times L bits (R154): W value bits in two's complement, the special state above them. -/
def accRaw (f : Nat) (a : Acc) : Nat := (a.val % 2 ^ fmtWidth f).toNat + (if fmtInt f then 0 else a.sp * 2 ^ fmtWidth f)

/-- The 64-bit limbs of a number, lowest first. -/
def limbs64 : Nat → Nat → List Nat
  | 0, _ => []
  | n + 1, v => v % 2 ^ 64 :: limbs64 n (v / 2 ^ 64)

/-- The number that limbs make. -/
def ofLimbs64 (ls : List Nat) : Nat := ls.foldr (fun l n => l + 2 ^ 64 * n) 0

/-- The limbs of an exact accumulator, lowest first (R154). -/
def accLimbs (f : Nat) (a : Acc) : List Nat := limbs64 (fmtLimbs f) (accRaw f a)

/-- The residues of limbs (R146). -/
def residues (ls : List Nat) : List Nat := ls.map (· % 3)

/-- An accumulator with the residues of its limbs (R146). -/
def Acc.sealed (f : Nat) (a : Acc) : Acc := { a with res := residues (accLimbs f a) }

/-- An accumulator that reads as the given limbs; the residues it carries stay. -/
def Acc.ofLimbs (f : Nat) (a : Acc) (ls : List Nat) : Acc :=
  let n := ofLimbs64 ls
  let w := fmtWidth f
  { a with val := wrapTo w (n % 2 ^ w : Nat), sp := if fmtInt f then 0 else n / 2 ^ w }

/-- The check of R164 on a read: every limb against the residue it carries. -/
def accReadOk (f : Nat) (a : Acc) : Bool :=
  let ls := accLimbs f a
  (List.range ls.length).all fun i => ls.getD i 0 % 3 == a.res.getD i 0

/-- The check of R164 on an update: the residues of the result's limbs against those that the old limbs carry plus that of
the addend, less the carry out of the top limb, modulo 3. -/
def accAddOk (f : Nat) (old : Acc) (x : Int) (new : List Nat) : Bool :=
  let carry := (old.val % 2 ^ fmtWidth f + x) / 2 ^ fmtWidth f
  ((residues new).sum : Int) % 3 == ((old.res.sum : Int) + x - carry) % 3

/-- Folds a special state into an accumulator (R155). -/
def mergeSp (a b : Nat) : Nat := if b = 0 then a else if a = 0 then b else if a = b then a else 3

/-- Exact addition of an element (R155). -/
def accExact (f : Nat) (a : Acc) (x : Dec) : Acc :=
  if x.sp ≠ 0 then Acc.sealed f { a with sp := mergeSp a.sp x.sp, init := true }
  else Acc.sealed f { a with val := wrapTo (fmtWidth f) (a.val + decInt x (fmtQ f)), init := true }

/-- Fast floating-point addition of an element (R153). -/
def accFast (a : Acc) (x : Dec) : Acc :=
  if a.init then { a with word := f32Add a.word (decToF32 x) } else { a with word := decToF32 x, init := true }

/-- Whether decoded `x` is ordered before `y`, -0 below +0 and infinities at the ends (R158). -/
def decLt (f : Nat) (x y : Dec) : Bool :=
  if x.sp = 2 then y.sp ≠ 2 else if y.sp = 2 then false
  else if y.sp = 1 then x.sp ≠ 1 else if x.sp = 1 then false
  else
    let a := decInt x (fmtQ f)
    let b := decInt y (fmtQ f)
    decide (a < b) || (a = b && x.neg && !y.neg)

/-- The format of the 4 bytes that hold an element of min, max, and, or or xor (R158): INT32 for integers, FP32 else. -/
def heldFmt (f : Nat) : Nat := if fmtInt f then 1 else 6

/-- An element as those 4 bytes hold it (R158): sign-extended to INT32, or as its exact FP32 value; a NaN as the canonical
one. -/
def heldWord (f : Nat) (x : Dec) : Nat :=
  if fmtInt f then (if x.neg then x.raw + 2 ^ 32 - 2 ^ fmtBits f else x.raw) else decToF32 x

/-- The element of the input format that held bytes are (R158). Bytes that an undetected error made into no value of the format
give a free value. (DESIGN CHOICE, log 188) -/
def pickedCode (f word : Nat) : Nat :=
  let code := if fmtInt f then word % 2 ^ fmtBits f
    else let x := decodeElem 6 word; (roundFp f x.sp x.neg x.m x.k x.neg).code
  if heldWord f (decodeElem f code) = word then code else (Config.pickedCode f word).toNat % 2 ^ fmtBits f

/-- Minimum, maximum or bitwise combination of an element (R158). -/
def accPick (f op : Nat) (a : Acc) (x : Dec) : Acc :=
  let w := heldWord f x
  let held := decodeElem (heldFmt f) a.word
  let new := decodeElem (heldFmt f) w
  if a.init = false then { a with word := w, init := true }
  else if held.sp = 3 then a
  else if new.sp = 3 then { a with word := w }
  else match op with
    | 1 => if decLt (heldFmt f) new held then { a with word := w } else a
    | 2 => if decLt (heldFmt f) held new then { a with word := w } else a
    | 3 => { a with word := a.word &&& w }
    | 4 => { a with word := a.word ||| w }
    | _ => { a with word := a.word ^^^ w }

/-- Whether a chunk accumulates in long accumulators of limbs: exact sums and integer sums (R153, R154). -/
def accLong (f op : Nat) (exact : Bool) : Bool := op == 0 && (exact || fmtInt f)

/-- How a chunk accumulates: exact sums and integer sums exactly, floating-point fast sums in FP32, the other
operations by picking or combining (R153, R154, R158). -/
def accStep (f op : Nat) (exact : Bool) (a : Acc) (x : Dec) : Acc :=
  if op ≠ 0 then accPick f op a x
  else if exact || fmtInt f then accExact f a x
  else accFast a x

/-- Applies a contribution's elements to the accumulators, element by element. -/
def accApply (f op : Nat) (exact : Bool) : List Acc → List Dec → List Acc
  | a :: as, x :: xs => accStep f op exact a x :: accApply f op exact as xs
  | as, [] => as
  | [], _ => []

/-- The final value of an accumulator: special state, sign, magnitude, weight and the sign of a zero (R156). -/
def accValue (f : Nat) (exact : Bool) (a : Acc) : Nat × Bool × Nat × Int × Bool :=
  if exact || fmtInt f then (a.sp, decide (a.val < 0), a.val.natAbs, fmtQ f, false)
  else let x := decodeElem 6 a.word; (x.sp, x.neg, x.m, x.k, x.neg)

/-- An output integer, saturated (R156). -/
def outInt (f : Nat) (neg : Bool) (v : Nat) : OutElem :=
  let w := fmtBits f
  let lim := 2 ^ (w - 1)
  if neg then (if lim < v then ⟨lim, 3⟩ else ⟨(2 ^ w - v) % 2 ^ w, 0⟩)
  else (if lim ≤ v then ⟨lim - 1, 3⟩ else ⟨v, 0⟩)

/-- One output element of a non-MX format from a sum (R156). -/
def outSum (inF outF : Nat) (exact : Bool) (a : Acc) : OutElem :=
  let (sp, neg, v, q, zneg) := accValue inF exact a
  if fmtInt outF then outInt outF neg v else roundFp outF sp neg v q zneg

/-- One output element of min, max, and, or or xor (R158). -/
def outPick (f : Nat) (a : Acc) : OutElem :=
  if (decodeElem (heldFmt f) a.word).sp = 3 then ⟨canonNaN f, 5⟩ else ⟨pickedCode f a.word, 0⟩

/-- One MX block of 32 output elements and its scale (R157). -/
def outMxBlock (inF outF : Nat) (exact : Bool) (as : List Acc) : List OutElem × Nat :=
  let vs := as.map (accValue inF exact)
  if vs.any (fun v => v.1 != 0) then (as.map fun _ => ⟨0, 5⟩, 255)
  else
    let exps : List Int := vs.filterMap fun v => if v.2.2.1 = 0 then none else some ((Nat.log2 v.2.2.1 : Int) + v.2.2.2.1)
    let x : Int := match exps with
      | [] => 0
      | e :: es => max (-127) (min 127 (es.foldl max e - fmtEmax outF))
    (vs.map fun v =>
      if v.2.2.1 = 0 then ⟨if v.2.2.2.2 then 2 ^ (fmtBits outF - 1) else 0, 0⟩
      else
        let (sig, e) := roundSig (fmtFrac outF) (fmtBias outF) (v.2.2.2.1 - x) v.2.2.1
        if overflows outF sig e then ⟨encodeFp outF v.2.1 (fmtSigMax outF) (fmtEmax outF), 4⟩
        else ⟨encodeFp outF v.2.1 sig e, 0⟩,
     (x + 127).toNat)

/-- Splits a list into groups of 32; `fuel` bounds their count. -/
def groups32 {α : Type} : Nat → List α → List (List α)
  | 0, _ => []
  | fuel + 1, l => match l with
    | [] => []
    | _ => l.take 32 :: groups32 fuel (l.drop 32)

/-- Pads a payload with zero bytes to a multiple of 64 (R149, R160). -/
def pad64 (bs : List Byte) : List Byte := bs ++ List.replicate ((64 - bs.length % 64) % 64) 0

/-- The bits of MX elements packed into a block's bytes (R150). -/
def packMx (f : Nat) (codes : List Nat) : List Byte :=
  leBytes (mxBlockBytes f) (codes.foldr (fun c a => a * 2 ^ fmtBits f + c) 0)

/-- The result payload of a chunk and its counted elements (R156 to R158, R172). -/
def resultPayload (inF outF op : Nat) (exact : Bool) (as : List Acc) : List Byte × List OutElem :=
  if op ≠ 0 then
    let es := as.map (outPick inF)
    (pad64 (es.flatMap fun e => leBytes (fmtBits inF / 8) e.code), es)
  else if fmtMx outF then
    let bs := (groups32 as.length as).map (outMxBlock inF outF exact)
    (pad64 (bs.flatMap (fun b => packMx outF (b.1.map OutElem.code)) ++ bs.map fun b => BitVec.ofNat 8 b.2),
     bs.flatMap (·.1))
  else
    let es := as.map (outSum inF outF exact)
    (pad64 (es.flatMap fun e => leBytes (fmtBits outF / 8) e.code), es)

/-- How many output elements count under an index of RED_EVT_CNT (R156). -/
def evtOf (k : Nat) (es : List OutElem) : Nat := (es.filter fun e => e.evt == k).length

/-- 32-bit limbs of a magnitude, lowest first, without zero limbs above the highest; `fuel` bounds them. -/
def limbs32 : Nat → Nat → List Nat
  | 0, _ => []
  | fuel + 1, v => if v = 0 then [] else v % 2 ^ 32 :: limbs32 fuel (v / 2 ^ 32)

/-- Number of leading zero limbs of a list of limbs. -/
def lowZeros : List Nat → Nat
  | 0 :: t => lowZeros t + 1
  | _ => 0

/-- The record of one element of an exact partial (R161, Table 6.5). -/
def encodeRecord (a : Acc) : List Byte :=
  if a.sp ≠ 0 then leBytes 2 (a.sp * 2 ^ 13)
  else
    let ls := limbs32 20 a.val.natAbs
    let base := lowZeros ls
    let ls := ls.drop base
    let base := if ls.isEmpty then 0 else base
    leBytes 2 (b2n (decide (a.val < 0)) * 2 ^ 15 + ls.length * 2 ^ 8 + base) ++ ls.flatMap (leBytes 4)

/-- Groups records into frames of at most 4,088 record bytes (R160): each group is (first element, records). -/
def groupRecords : List (List Byte) → Nat → List (Nat × List (List Byte)) → List (Nat × List (List Byte))
  | [], _, acc => acc.reverse.map fun g => (g.1, g.2.reverse)
  | r :: rs, i, [] => groupRecords rs (i + 1) [(i, [r])]
  | r :: rs, i, (f, g) :: acc =>
    if (g.map List.length).sum + r.length ≤ 4088 then groupRecords rs (i + 1) ((f, r :: g) :: acc)
    else groupRecords rs (i + 1) ((i, [r]) :: (f, g) :: acc)

/-- The payloads of a chunk's exact partial (R160, R161, Table 6.4). -/
def encodePartial (f folded : Nat) (as : List Acc) : List (List Byte) :=
  let gs := groupRecords (as.map encodeRecord) 0 []
  (List.zip (List.range gs.length) gs).map fun (i, g) =>
    let h := wmk [(63, 40, folded), (36, 36, b2n (i + 1 == gs.length)), (35, 32, f), (31, 16, g.2.length), (15, 0, g.1)]
    pad64 (leBytes 8 h.toNat ++ g.2.flatten)

/-- One decoded record: special state and signed value. -/
structure PRec where
  sp : Nat
  val : Int
  deriving DecidableEq, Repr

/-- Decodes one record of an exact partial (R161, R162); none when it is malformed. -/
def decodeRecord (f : Nat) (bs : List Byte) : Option (PRec × List Byte) :=
  if bs.length < 2 then none else
  let h := leNat (bs.take 2)
  let neg := h / 2 ^ 15 % 2
  let sp := h / 2 ^ 13 % 4
  let n := h / 2 ^ 8 % 32
  let base := h % 32
  let rest := bs.drop 2
  if h / 2 ^ 5 % 8 ≠ 0 || 20 < n || (sp ≠ 0 && (n ≠ 0 || neg ≠ 0)) || (sp ≠ 0 && fmtInt f)
      || rest.length < 4 * n then none
  else
    let mag := leNat (rest.take (4 * n)) * 2 ^ (32 * base)
    if (mag = 0 && neg ≠ 0) || 2 ^ (fmtWidth f - 1) ≤ mag then none
    else some (⟨sp, if neg = 1 then -(mag : Int) else mag⟩, rest.drop (4 * n))

/-- Decodes `n` records in a row. -/
def decodeRecords (f : Nat) : Nat → List Byte → Option (List PRec)
  | 0, _ => some []
  | n + 1, bs => match decodeRecord f bs with
    | none => none
    | some (r, rest) => (decodeRecords f n rest).map (r :: ·)

/-- The header of an exact-partial frame (Table 6.4). -/
structure PHeader where
  folded : Nat
  rsv : Nat
  last : Bool
  fmt : Nat
  count : Nat
  first : Nat
  deriving DecidableEq, Repr

/-- Reads the header of an exact-partial payload (Table 6.4). -/
def partialHeader (pay : List Byte) : PHeader :=
  let h := BitVec.ofNat 64 (leNat (pay.take 8))
  ⟨fget h 63 40, fget h 39 37, fget h 36 36 == 1, fget h 35 32, fget h 31 16, fget h 15 0⟩

/-- Adds the records of a format-12 frame from element `first` on (R162). -/
def accRecords (f : Nat) (as : List Acc) (first : Nat) (rs : List PRec) : List Acc :=
  as.take first ++ List.zipWith (fun a (r : PRec) =>
    if r.sp ≠ 0 then Acc.sealed f { a with sp := mergeSp a.sp r.sp, init := true }
    else Acc.sealed f { a with val := wrapTo (fmtWidth f) (a.val + r.val), init := true }) (as.drop first) rs ++
    as.drop (first + rs.length)

/-- Accumulator bytes per element (R163). -/
def accBytes (f op : Nat) (exact : Bool) : Nat :=
  if op ≠ 0 then 4
  else if fmtInt f then 8
  else if exact = false then 4
  else if f = 2 || f = 3 then 8
  else if f = 6 then 80 else 40

/-- Elements per slot unit (R163). -/
def elemsPerUnit (f op : Nat) (exact : Bool) : Nat := 4096 / accBytes f op exact

/-- Slot units of a chunk of E elements (R163). -/
def unitsFor (f op : Nat) (exact : Bool) (e : Nat) : Nat :=
  (e + elemsPerUnit f op exact - 1) / elemsPerUnit f op exact

/-- Whether a format, operation and output format form a row of Table 6.2 (R152, R173). -/
def rowOk (inF outF op : Nat) : Bool :=
  if op = 0 then
    match inF with
    | 0 => outF == 0 || outF == 1
    | 1 => outF == 1
    | 2 => outF == 2 || outF == 4 || outF == 5 || outF == 6
    | 3 => outF == 3 || outF == 4 || outF == 5 || outF == 6
    | 4 => outF == 4 || outF == 6
    | 5 => outF == 5 || outF == 6
    | 6 => outF == 6
    | 7 | 8 | 9 | 10 | 11 => outF == inF || outF == 5 || outF == 6
    | _ => false
  else if op ≤ 2 then inF ≤ 6 && outF == inF
  else op ≤ 5 && inF ≤ 1 && outF == inF

/-- Bytes of E elements in a format, without padding (R149, R150). -/
def payBytes (f e : Nat) : Nat :=
  if fmtMx f then (e / 32) * (mxBlockBytes f + 1) else e * (fmtBits f / 8)

/-- One step of the known-answer pattern generator: a 32-bit Galois LFSR with taps 0x8020_0003, shifting out its
least significant bit (R216). -/
def katStep (s : Nat) : Nat := if s % 2 = 1 then (s / 2) ^^^ 0x80200003 else s / 2

/-- Takes `n` bits from the generator, least significant first: the number and the next state (R216). -/
def katBits : Nat → Nat → Nat × Nat
  | 0, s => (0, s)
  | n + 1, s => let r := katBits n (katStep s); (s % 2 + 2 * r.1, r.2)

/-- `n` elements of `w` bits from the generator (R216). -/
def katElems (w : Nat) : Nat → Nat → List Nat × Nat
  | 0, s => ([], s)
  | n + 1, s => let r := katBits w s; let t := katElems w n r.2; (r.1 :: t.1, t.2)

/-- `n` MX blocks from the generator: 32 elements, then a scale of 112 plus 8 bits modulo 32 (R216). -/
def katBlocks (f : Nat) : Nat → Nat → List Dec × Nat
  | 0, s => ([], s)
  | n + 1, s =>
    let es := katElems (fmtBits f) 32 s
    let sc := katBits 8 es.2
    let t := katBlocks f n sc.2
    (mxBlockDec f (es.1.foldr (fun c a => a * 2 ^ fmtBits f + c) 0) (112 + sc.1 % 32) ++ t.1, t.2)

/-- Elements of a known-answer chunk (R216). -/
def katCount (f op : Nat) (exact : Bool) : Nat :=
  let e := elemsPerUnit f op exact
  if fmtMx f then e / 32 * 32 else e

/-- Accumulates `n` synthetic contributors in order (R216). -/
def katRun (f op : Nat) (exact : Bool) : Nat → List Acc → Nat → List Acc
  | 0, as, _ => as
  | n + 1, as, s =>
    let e := katCount f op exact
    let r : List Dec × Nat :=
      if fmtMx f then katBlocks f (e / 32) s
      else let t := katElems (fmtBits f) e s; (t.1.map (decodeElem f), t.2)
    katRun f op exact n (accApply f op exact as r.1) r.2

/-- The reference unit's output payload of a known-answer test (R216, R217). -/
def katReference (f op : Nat) (exact : Bool) (contrib seed : Nat) : List Byte :=
  (resultPayload f f op exact (katRun f op exact contrib (List.replicate (katCount f op exact) Acc.zero) seed)).1

end Sys2Proof.Machine
end

