-- ==== Sys2Proof/Machine/Ops.lean ====
section
/-! DEFINITION. The shared operations: reading and writing a register field, counting (R97, R420), raising events
(R346 to R348), logging errors (R408 to R411) and writing flight-recorder records (R426, R427). -/

namespace Sys2Proof.Machine

/-- Reads a whole register. -/
def Dev.rdw (d : Dev) (r : Reg) (u i : Nat) : Word := rget d.regs r u i

/-- Writes a whole register. -/
def Dev.wrw (d : Dev) (r : Reg) (u i : Nat) (w : Word) : Dev := { d with regs := rset d.regs r u i w }

/-- Reads a field of a register store. -/
def fldGet (m : RegFile) (f : Fld) (u i : Nat) : Nat := fget (rget m f.reg u i) f.hi f.lo

/-- Writes a field of a register store. -/
def fldPut (m : RegFile) (f : Fld) (u i v : Nat) : RegFile :=
  rset m f.reg u i (fput (rget m f.reg u i) f.hi f.lo v)

/-- Reads a field. -/
def Dev.rd (d : Dev) (f : Fld) (u i : Nat) : Nat := fldGet d.regs f u i

/-- Whether a one-bit field reads 1. -/
def Dev.on (d : Dev) (f : Fld) (u i : Nat) : Bool := d.rd f u i == 1

/-- Writes a field. -/
def Dev.wr (d : Dev) (f : Fld) (u i v : Nat) : Dev := { d with regs := fldPut d.regs f u i v }

/-- Largest value of a field. -/
def Fld.max (f : Fld) : Nat := 2 ^ (f.hi + 1 - f.lo) - 1

/-- A store with a field raised by `n`, saturating at the field's largest value. -/
def fldInc (m : RegFile) (f : Fld) (u i n : Nat) : RegFile :=
  fldPut m f u i (Nat.min f.max (fldGet m f u i + n))

/-- Raises a field by `n`, saturating. -/
def Dev.inc (d : Dev) (f : Fld) (u i n : Nat) : Dev := { d with regs := fldInc d.regs f u i n }

/-- Raises a field by `n`, wrapping. -/
def Dev.incWrap (d : Dev) (f : Fld) (u i n : Nat) : Dev := d.wr f u i (d.rd f u i + n)

/-- Lowers a field by `n`, stopping at 0. -/
def Dev.dec (d : Dev) (f : Fld) (u i n : Nat) : Dev := d.wr f u i (d.rd f u i - n)

/-- Raises a "most since reset" field to a value. -/
def Dev.peak (d : Dev) (f : Fld) (u i v : Nat) : Dev := if d.rd f u i < v then d.wr f u i v else d

/-- Appends to the log of what leaves the device. -/
def Dev.emit (d : Dev) (o : Output) : Dev := { d with out := d.out ++ [o] }

-- States of the dies (HUB_STRAP state): 0 in reset, 1 running, 2 parked, 3 out of service, 4 headless.
-- Indices: core dies 0 and 1, engines 2-17, bypass dies 18-21, hub 22 (Table 12.1).

/-- State of the die with HUB_STRAP index `i`. -/
def Dev.dieState (d : Dev) (i : Nat) : Nat := d.rd F.HUB_STRAP_state 0 i

/-- Whether a core die runs, attached or headless (R312). -/
def Dev.dieRuns (d : Dev) (die : Nat) : Bool := d.dieState die == 1 || d.dieState die == 4

/-- Whether the I/O hub runs. -/
def Dev.hubRuns (d : Dev) : Bool := d.dieState 22 == 1

/-- Whether the core dies run by themselves: from a hub reset to the attach that ends it (R312, R388), also while the hub's ROM serves
recovery mode (R372). -/
def Dev.alone (d : Dev) : Bool := d.time.copyInc.isSome

/-- Whether the hub runs and is attached to the core dies. -/
def Dev.attached (d : Dev) : Bool := d.hubRuns && !d.alone

/-- Whether engine `e` is in service. -/
def Dev.engineRuns (d : Dev) (e : Nat) : Bool := d.dieState (2 + e) == 1

/-- The shedding step in force (Table 13.5). -/
def Dev.shed (d : Dev) : Nat := d.rd F.HUB_PWR_STAT_step 0 0

/-- Core die of a lane (R18). -/
def laneDie (lane : Nat) : Nat := lane / 512

/-- Hall time in whole nanoseconds modulo 2^32, from a die's copy, or the hub's counter for unit 2. -/
def Dev.hallNs (d : Dev) (u : Nat) : Nat :=
  ((if u = 2 then d.time.hall else smGet d.time.copies u 0) / 2 ^ 32) % 2 ^ 32

/-- Reference ticks since the release of core die 0, 1 or the hub (2) from reset (R419). -/
def Dev.ticksOf (d : Dev) (u : Nat) : Nat := d.tick - smGet d.release u 0

/-- A counter set: unit 0 and 1 the core dies, 2 the hub, and set number s of R418. -/
structure CntSet where
  unit : Nat
  set : Nat
  deriving DecidableEq, Repr

/-- One programmable counter's step (R420). -/
def cntOne (m : RegFile) (c : CntSet) (ev : Nat) (port cls : Option Nat) (n : Nat) (i : Nat) : RegFile :=
  let k := 32 * c.set + i
  let portOk := fldGet m F.CNT_SEL_port_en c.unit k = 0 || port == some (fldGet m F.CNT_SEL_port c.unit k)
  let clsOk := fldGet m F.CNT_SEL_class_en c.unit k = 0 || cls == some (fldGet m F.CNT_SEL_class c.unit k)
  if fldGet m F.CNT_SEL_event c.unit k = ev && ev != 0 && portOk && clsOk then
    let v := fldGet m F.CNT_VAL_count c.unit k + n
    let m := fldPut m F.CNT_VAL_count c.unit k (Nat.min v (2 ^ 48 - 1))
    if 2 ^ 48 - 1 < v then
      fldPut m F.CNT_CTRL_sat c.unit (32 * c.set) (fldGet m F.CNT_CTRL_sat c.unit (32 * c.set) ||| 2 ^ i)
    else m
  else m

/-- Counts `n` occurrences of an event in an enabled counter set (R420). -/
def cntRegs (m : RegFile) (c : CntSet) (ev : Nat) (port cls : Option Nat) (n : Nat) : RegFile :=
  (List.range 8).foldl (fun m i => cntOne m c ev port cls n i) m

/-- Whether a counter set counts in this tick: CNT_CTRL enable as it stood before a change in this tick (Table 18.5: "Applies from the
next tick"). (DEDUCED, log 79) -/
def Dev.cntRuns (d : Dev) (c : CntSet) : Bool :=
  (fldGet d.regs F.CNT_CTRL_enable c.unit (32 * c.set) == 1) != d.time.cntEn.contains (c.unit, c.set)

/-- Counts `n` occurrences of an event with its port and class (R420). -/
def Dev.cntPC (d : Dev) (c : CntSet) (ev : Nat) (port cls : Option Nat) (n : Nat) : Dev :=
  if d.cntRuns c then { d with regs := cntRegs d.regs c ev port cls n } else d

/-- Counts one occurrence of an event that carries no port or class. -/
def Dev.cnt (d : Dev) (c : CntSet) (ev : Nat) : Dev := d.cntPC c ev none none 1

/-- Blocks with error registers (Table 17.6). -/
inductive ErrBlk where
  | HUB | MGT | SEC | TIME | D2D | FWD | SWC | TM | RED | SYNC | LANE | OE | BYP
  deriving DecidableEq, Repr

/-- Block number of E0 (Table 14.5); SYNC stands under RED. -/
def ErrBlk.num : ErrBlk → Nat
  | .HUB => 0 | .MGT => 1 | .SEC => 2 | .TIME => 3 | .D2D => 5 | .FWD => 6 | .SWC => 7 | .TM => 8 | .RED => 9
  | .SYNC => 9 | .LANE => 10 | .OE => 11 | .BYP => 12

/-- The block's ERR_FIRST register. -/
def ErrBlk.first : ErrBlk → Reg
  | .HUB => .HUB_ERR_FIRST | .MGT => .MGT_ERR_FIRST | .SEC => .SEC_ERR_FIRST | .TIME => .TIME_ERR_FIRST
  | .D2D => .D2D_ERR_FIRST | .FWD => .FWD_ERR_FIRST | .SWC => .SWC_ERR_FIRST | .TM => .TM_ERR_FIRST
  | .RED => .RED_ERR_FIRST | .SYNC => .SYNC_ERR_FIRST | .LANE => .LANE_ERR_FIRST | .OE => .OE_ERR_FIRST
  | .BYP => .BYP_ERR_FIRST

/-- The block's ERR_NEXT register. -/
def ErrBlk.next : ErrBlk → Reg
  | .HUB => .HUB_ERR_NEXT | .MGT => .MGT_ERR_NEXT | .SEC => .SEC_ERR_NEXT | .TIME => .TIME_ERR_NEXT
  | .D2D => .D2D_ERR_NEXT | .FWD => .FWD_ERR_NEXT | .SWC => .SWC_ERR_NEXT | .TM => .TM_ERR_NEXT
  | .RED => .RED_ERR_NEXT | .SYNC => .SYNC_ERR_NEXT | .LANE => .LANE_ERR_NEXT | .OE => .OE_ERR_NEXT
  | .BYP => .BYP_ERR_NEXT

/-- The block's ERR_COUNT register. -/
def ErrBlk.count : ErrBlk → Reg
  | .HUB => .HUB_ERR_COUNT | .MGT => .MGT_ERR_COUNT | .SEC => .SEC_ERR_COUNT | .TIME => .TIME_ERR_COUNT
  | .D2D => .D2D_ERR_COUNT | .FWD => .FWD_ERR_COUNT | .SWC => .SWC_ERR_COUNT | .TM => .TM_ERR_COUNT
  | .RED => .RED_ERR_COUNT | .SYNC => .SYNC_ERR_COUNT | .LANE => .LANE_ERR_COUNT | .OE => .OE_ERR_COUNT
  | .BYP => .BYP_ERR_COUNT

/-- The counter set of a block instance (R418). -/
def ErrBlk.set (b : ErrBlk) (u : Nat) : CntSet :=
  match b with
  | .HUB => ⟨2, 0⟩ | .MGT => ⟨2, 1⟩ | .SEC => ⟨2, 2⟩ | .TIME => ⟨2, 3⟩
  | .FWD => ⟨u, 0⟩ | .SWC => ⟨u, 1⟩ | .TM => ⟨u, 2⟩ | .RED => ⟨u, 3⟩ | .SYNC => ⟨u, 4⟩ | .LANE => ⟨u, 5⟩
  | .D2D => ⟨u, 6⟩ | .OE => ⟨u / 8, 8 + u % 8⟩ | .BYP => ⟨u / 2, 16 + u % 2⟩

/-- Counts `n` events in the block's EVT_CNT[k] and under selection 0x200 + k with the port and class they carry (Table 18.1). -/
def Dev.evtAt (d : Dev) (b : ErrBlk) (u k : Nat) (port cls : Option Nat) (n : Nat) : Dev :=
  let f : Fld := match b with
    | .FWD => F.FWD_EVT_CNT_events | .RED => F.RED_EVT_CNT_events | .SYNC => F.SYNC_EVT_CNT_events
    | .LANE => F.LANE_EVT_CNT_events | .D2D => F.D2D_EVT_CNT_events | .OE => F.OE_EVT_CNT_events
    | .BYP => F.BYP_EVT_CNT_events | .TIME => F.TIME_EVT_CNT_events | _ => F.HUB_PWR_EVT_CNT_events
  if n = 0 then d else (d.inc f u k n).cntPC (b.set u) (0x200 + k) port cls n

/-- Counts `n` events that carry no port or class. -/
def Dev.evtCntN (d : Dev) (b : ErrBlk) (u k n : Nat) : Dev := d.evtAt b u k none none n

/-- Counts one event that carries no port or class. -/
def Dev.evtCnt (d : Dev) (b : ErrBlk) (u k : Nat) : Dev := d.evtAt b u k none none 1

/-- The HUB_STRAP index of the die that holds a block instance. -/
def ErrBlk.unit (b : ErrBlk) (u : Nat) : Nat :=
  match b with
  | .HUB | .MGT | .SEC | .TIME => 22
  | .OE => 2 + u
  | .BYP => 18 + u
  | _ => u

/-- Whether an error code is correctable (Table 17.6). -/
def ErrBlk.correctable (b : ErrBlk) (code : Nat) : Bool :=
  match b with
  | .SWC => code == 1 || code == 4 || code == 5
  | .TM => code == 1 || code == 2 || code == 3 || code == 4
  | .FWD => code == 2 || code == 4
  | .OE => code == 7
  | .TIME => code == 2
  | _ => false

/-- First word of a record (Table 14.5), its sequence still 0. -/
def evE0 (blk inst kind : Nat) (more : Bool) (code : Nat) : Word :=
  wmk [(31, 28, blk), (27, 23, inst), (19, 18, kind), (17, 17, b2n more), (15, 0, code)]

/-- Gives a record its sequence and boot count and lets it wait for a message (R346, R347, R348). -/
def Dev.sendRec (d : Dev) (r : EvRec) : Dev :=
  let boot := d.rd F.MGT_BOOT_CNT_count 0 0
  let r := { r with e0 := fput r.e0 63 32 d.ev.seq, e1 := fput r.e1 31 0 boot }
  { d with ev := { d.ev with seq := (d.ev.seq + 1) % 2 ^ 32,
                             history := (r :: d.ev.history).take 4096,
                             waiting := d.ev.waiting ++ [r] } }

/-- How many records a die holds while the hub is in reset: a core die 256 error records and 4,096 others, an engine
256, a bypass die 64 (R132, R245, R411, Table 10.3). -/
def heldLimit (unit : Nat) (isErr : Bool) : Nat :=
  if unit < 2 then (if isErr then 256 else 4096) else if unit < 18 then 256 else 64

/-- The die, core die 0 or 1 or hub 2, whose counters and copy of the hall time a unit uses. -/
def unitDie (unit : Nat) : Nat :=
  if unit < 2 then unit else if unit < 18 then (unit - 2) / 8 else if unit < 22 then (unit - 18) / 2 else 2

/-- The die that holds a unit's records while the hub is in reset: its own, and of what concerns the hub a running core die's, none
when none runs. (DEDUCED, log 96) -/
def Dev.holder (d : Dev) (unit : Nat) : Nat :=
  if unit < 22 then unit else if d.dieRuns 0 then 0 else if d.dieRuns 1 then 1 else 22

/-- Whether the hub takes records of a unit: its own while it runs, those of other dies once it has attached. -/
def Dev.hears (d : Dev) (unit : Nat) : Bool := if unit = 22 then d.hubRuns else d.attached

/-- Whether a holder has room for one more record (R132, R411). -/
def Dev.holdRoom (d : Dev) (unit : Nat) (isErr : Bool) : Bool :=
  decide (unit < 22) && decide ((d.ev.held.filter (fun h => h.unit == unit && (unit ≥ 2 || h.isErr == isErr))).length < heldLimit unit isErr)

/-- Holds a record at the die `unit` while the hub is in reset, or loses it (R411). A full store at an engine or a bypass
die also counts the loss in the block (index 10 of OE_EVT_CNT, index 7 of BYP_EVT_CNT). -/
def Dev.holdRec (d : Dev) (unit : Nat) (isErr : Bool) (r : EvRec) : Dev :=
  if d.holdRoom unit isErr then { d with ev := { d.ev with held := d.ev.held ++ [⟨unit, isErr, r⟩] } }
  else
    let d := { d with ev := { d.ev with lost := d.ev.lost + 1, lostErr := d.ev.lostErr + b2n isErr } }
    if unit < 2 then d
    else if unit < 18 then d.evtCnt .OE (unit - 2) 10
    else if unit < 22 then d.evtCnt .BYP (unit - 18) 7
    else d

/-- Raises a record from the die with HUB_STRAP index `unit`: sent at once, or held while the hub is in reset.
(DEDUCED, log 96) -/
def Dev.raiseRec (d : Dev) (unit : Nat) (isErr : Bool) (e0 e2 e3 : Word) : Dev :=
  let unit := if d.hubRuns then unit else d.holder unit
  let r : EvRec := ⟨e0, wmk [(63, 32, d.hallNs (unitDie unit))], e2, e3⟩
  if d.hears unit then d.sendRec r else d.holdRec unit isErr r

/-- Raises a record of kind 2 (Table 14.6, Table 17.2) from a block instance. -/
def Dev.event (d : Dev) (b : ErrBlk) (inst code : Nat) (e2 e3 : Word) : Dev :=
  d.raiseRec (b.unit inst) false (evE0 b.num inst 2 false code) e2 e3

/-- Raises a record of kind 1 for count index `k` of a block instance (Table 14.5). -/
def Dev.countEvent (d : Dev) (b : ErrBlk) (inst k : Nat) (detail : Word) : Dev :=
  d.raiseRec (b.unit inst) false (evE0 b.num inst 1 false k) (fput detail 63 48 0) 0

/-- What a flight-recorder record names of the reduction state concerned: core die, array and, if known, cell. -/
abbrev Concern := Option (Nat × Nat × Option Nat)

/-- Injected errors for `words` words written into a target memory of a die (R415): bits flipped and words hit. -/
def Dev.injectHit (d : Dev) (target die words : Nat) : Dev × Nat × Nat :=
  if d.on F.HUB_INJ_CTRL_busy 0 0 && d.rd F.HUB_INJ_CTRL_target 0 0 = target
      && (target = 8 || d.rd F.HUB_INJ_CTRL_die 0 0 = die) then
    let left := d.rd F.HUB_INJ_STAT_remaining 0 0
    let n := Nat.min words left
    let d := (d.wr F.HUB_INJ_STAT_remaining 0 0 (left - n)).inc F.HUB_INJ_STAT_done 0 0 n
    (if left ≤ n then d.wr F.HUB_INJ_CTRL_busy 0 0 0 else d, d.rd F.HUB_INJ_CTRL_bits 0 0, n)
  else (d, 0, 0)

/-- Whether the flight recorder writes (R426). -/
def Dev.flightRuns (d : Dev) : Bool :=
  d.rd F.MEM_FR_CTRL_freeze 0 0 == 0 && d.shed == 0 && d.hubRuns && !d.on F.SEC_STAT_recovery 0 0

/-- Case temperatures of engines 4w to 4w+3, 16 bits each (Table 18.4). -/
def Dev.caseWord (d : Dev) (w : Nat) : Word :=
  wmk ((List.range 4).map (fun j => (16 * j + 15, 16 * j, d.rd F.OE_THERM_case (4 * w + j) 0)))

/-- HUB_BOOT_STAT as it reads: degraded follows the dies once the device is ready (Table 12.6). -/
def Dev.bootStat (d : Dev) : Word :=
  let bad := (List.range 2).any (fun i => !d.dieRuns i) || (List.range 20).any fun i => d.dieState (2 + i) == 3
  fput (d.rdw .HUB_BOOT_STAT 0 0) 62 62 (b2n (d.on F.HUB_BOOT_STAT_ready 0 0 && bad))

/-- HUB_PWR_EST as it reads: updated every millisecond, 0 until the hub has run for one (R332). -/
def Dev.pwrEst (d : Dev) : Word :=
  if d.tick < smGet d.release 2 0 + 156250 then 0 else Config.powerEst (d.tick / 156250)

/-- VDD_CORE_IN as HUB_PWR_STAT shows it: the reading that a command of this tick brought, else a free one; 0 until the monitors
have averaged for 200 ns (R325, R332). -/
def Dev.railNow (d : Dev) : Nat :=
  if d.pw.railAt = some d.tick then d.rd F.HUB_PWR_STAT_rail 0 0
  else if d.tick < smGet d.release 2 0 + 32 then 0 else (Config.railMv d.tick).toNat

/-- Free Thallus cells of a core die. -/
def Dev.freeCells (d : Dev) (die : Nat) : Nat := d.rd F.SWC_FREE_STAT_free_cells die 0

/-- Index of RED_CELL_STAT of a cell. -/
def cellIdx (array cell : Nat) : Nat := array * 32 + cell

/-- Input of a sorus array 0-31 over the last 1 µs in GB/s, 0-400 (Table 8.2, Table 18.4): the payload bytes of the frames it has
taken. (DEDUCED, log 10) -/
def Dev.arrayInput (d : Dev) (a : Nat) : Nat :=
  Nat.min 400 ((((smGet d.sy.arrIn a []).filter fun e => 4 * (d.tick - e.1) < 625).map Prod.snd).sum / 1000)

/-- What the triggering die `u`, 2 for the hub, captures for a flight-recorder record. -/
def Dev.dieCapture (d : Dev) (u : Nat) (c : Concern) (errs : Word × Word) : Capture :=
  { ticks := d.ticksOf u,
    input := match c with
      | some (die, a, _) => d.arrayInput (die * 16 + a)
      | none => 0,
    staging := if u < 2 then d.rd F.SWC_STAGE_STAT_in_use u 0 else 0, next := errs.1, count := errs.2,
    cell := match c with
      | some (die, a, some cell) => d.rdw .RED_CELL_STAT die (cellIdx a cell)
      | _ => 0 }

/-- What a core die captures for every flight-recorder record. -/
def Dev.dieWords (d : Dev) (die : Nat) : DieWords := ⟨d.rdw .HUB_AVS_STAT 0 die, d.freeCells die⟩

/-- The 32 words of a flight-recorder record (Table 18.4); the words of a capture that was lost read 0.
(DEDUCED, log 150) -/
def Dev.flightWords (d : Dev) (x : FlightTrig) : List Word :=
  let cap := x.own.getD ⟨0, 0, 0, 0, 0, 0⟩
  let w0 := x.die0.getD ⟨0, 0⟩
  let w1 := x.die1.getD ⟨0, 0⟩
  [wmk [(63, 32, d.ev.flightSeq), (31, 24, x.trigger), (23, 20, x.blk), (19, 15, x.inst), (14, 0, x.code)],
   wmk [(63, 32, x.time), (31, 0, d.rd F.MGT_BOOT_CNT_count 0 0)],
   x.f2, BitVec.ofNat 64 cap.ticks, w0.avs, w1.avs,
   wmk [(63, 50, d.railNow), (49, 47, d.shed), (35, 0, d.rd F.HUB_THERM_STAT_state 0 0)],
   wmk [(37, 19, w1.free), (18, 0, w0.free)],
   wmk [(63, 52, cap.input), (51, 32, cap.staging), (31, 0, fget cap.cell 7 0)],
   d.pwrEst, d.caseWord 0, d.caseWord 1, d.caseWord 2, d.caseWord 3,
   cap.next, cap.count, cap.cell, 0] ++ (x.lich ++ List.replicate 8 0).take 8 ++ List.replicate 6 0

/-- Writes one flight-recorder record (R427), four words of 64 B of GDDR7 (R415). (DEDUCED, log 150) -/
def Dev.flightWrite (d : Dev) (x : FlightTrig) : Dev :=
  if d.flightRuns = false then d else
  let ws := d.flightWords x
  let head := d.rd F.MEM_FR_STAT_head 0 0
  let d := if (smFind d.ev.flight head).isSome then d.inc F.MEM_FR_STAT_overwritten 0 0 1 else d
  let h := d.injectHit 8 0 4
  let d := h.1
  let d := { d with ev := { d.ev with
    flight := smInsert d.ev.flight head ws,
    flightFlip := if h.2.2 = 0 then smErase d.ev.flightFlip head else smInsert d.ev.flightFlip head h.2,
    flightSeq := (d.ev.flightSeq + 1) % 2 ^ 32 } }
  (d.wr F.MEM_FR_STAT_head 0 0 (head + 1)).cntPC ⟨2, 4⟩ 2 none none 4

/-- Holds the trigger of a flight-recorder record while the hub is in reset. A core die holds up to 16 captures; those beyond are lost
(R427). (DEDUCED, log 150) -/
def Dev.flightHold (d : Dev) (x : FlightTrig) : Dev :=
  let full := fun (u : Nat) => decide (16 ≤ (d.ev.heldFlights.filter fun y => if u = 0 then y.die0.isSome else y.die1.isSome).length)
  let lose := (x.unit == 0 && full 0) || (x.unit == 1 && full 1)
  let x := { x with own := if lose then none else x.own, die0 := if full 0 then none else x.die0, die1 := if full 1 then none else x.die1 }
  { d with ev := { d.ev with heldFlights := d.ev.heldFlights ++ [x] } }

/-- The trigger of a flight-recorder record at this instant: with the hub running the record is written, otherwise the die `hold` keeps
it for the hub. -/
def Dev.flight (d : Dev) (trigger blk inst code u hold : Nat) (f2 : Word) (c : Concern) (errs : Word × Word)
    (lich : List Word) : Dev :=
  let x : FlightTrig := ⟨trigger, blk, inst, code, u, hold, d.hallNs u, f2, some (d.dieCapture u c errs), some (d.dieWords 0),
    some (d.dieWords 1), lich⟩
  if d.hears hold then d.flightWrite x else d.flightHold x

/-- Enters a record into the error ring (R409); the record carries the boot count of its time, and the sequence that it
takes as the event record sent with it (R346, R410). (DEDUCED, log 140) -/
def Dev.ringEnter (d : Dev) (r : EvRec) : Dev :=
  let head := d.rd F.HUB_ERING_STAT_head 0 0
  let held := d.rd F.HUB_ERING_STAT_held 0 0
  let r := { r with e0 := fput r.e0 63 32 d.ev.seq, e1 := fput r.e1 31 0 (d.rd F.MGT_BOOT_CNT_count 0 0) }
  let d := { d with ev := { d.ev with ring := smInsert d.ev.ring head r } }
  let d := d.wr F.HUB_ERING_STAT_head 0 0 (head + 1)
  let d := if held < 1024 then d.wr F.HUB_ERING_STAT_held 0 0 (held + 1)
    else d.inc F.HUB_ERING_STAT_overwritten 0 0 1
  d.cnt ⟨2, 0⟩ 1

/-- The value ERR_FIRST latches for an error (R408): valid, code, detail in [47:0]. -/
def errWord (code : Nat) (detail : Word) : Word := fput (fput (fput detail 63 56 0) 55 48 code) 63 63 1

/-- The key of a block instance in `firstAt` and `lastCorr`. -/
def ErrBlk.key (b : ErrBlk) (u : Nat) : Nat := b.ctorIdx * 32 + u

/-- Latches an error in the block's registers (R408): the first one, or of several of one reference tick the one with the lowest code,
in ERR_FIRST, any other as its bit of ERR_NEXT. (DEDUCED, log 182) -/
def Dev.latchErr (d : Dev) (b : ErrBlk) (u code : Nat) (detail : Word) : Dev :=
  let d := d.inc ⟨b.count, 31, 0⟩ u 0 1
  let old := d.rdw b.first u 0
  if wbit old 63 = false then
    ({ d with ev := { d.ev with firstAt := smInsert d.ev.firstAt (b.key u) d.tick } } : Dev).wrw b.first u 0 (errWord code detail)
  else if code < fget old 55 48 && smFind d.ev.firstAt (b.key u) = some d.tick then
    (d.wrw b.first u 0 (errWord code detail)).wrw b.next u 0 (wset (d.rdw b.next u 0) (fget old 55 48) true)
  else d.wrw b.next u 0 (wset (d.rdw b.next u 0) code true)

/-- The port that an error carries for the filter of a counter (R420): that in the detail of a LANE error, and of a TM error but the
meter's. (DEDUCED, log 183) -/
def ErrBlk.errPort (b : ErrBlk) (code : Nat) (detail : Word) : Option Nat :=
  match b with
  | .LANE => some (fget detail 9 0)
  | .TM => if code = 3 then none else some (fget detail 9 0)
  | _ => none

/-- Whether a correctable error is kept out of the ring: the same code of the same block instance entered less than
1 ms (156,250 ticks) ago (R410). (DEDUCED, log 141) -/
def Dev.rateLimited (d : Dev) (b : ErrBlk) (u code : Nat) : Bool :=
  b.correctable code &&
    (match smFind d.ev.lastCorr (b.key u * 256 + code) with
     | some t => decide (d.tick < t + 156250)
     | none => false)

/-- An error record of core die 0 or 1 or the hub, `u`, enters the ring, goes out as an event and makes its flight-recorder record
(R410, R427). While the hub is in reset the die with HUB_STRAP index `hold` holds it, or it is lost (R411). E1 takes the die's
time. -/
def Dev.recordErr (d : Dev) (hold u blk inst code : Nat) (r : EvRec) (c : Concern) (errs : Word × Word) : Dev :=
  let r := { r with e1 := wmk [(63, 32, d.hallNs u)] }
  if d.hears hold then ((d.ringEnter r).sendRec r).flight 1 blk inst code u hold r.e2 c errs []
  else
    let room := d.holdRoom hold true
    let d := d.holdRec hold true r
    if room then d.flight 1 blk inst code u hold r.e2 c errs [] else d

/-- Logs an error (R408, R410, R411, R427): registers, programmable counters, ring, event and flight recorder. -/
def Dev.logErrC (d : Dev) (b : ErrBlk) (u code : Nat) (detail : Word) (c : Concern) : Dev :=
  let limited := d.rateLimited b u code
  let d := (d.latchErr b u code detail).cntPC (b.set u) (0x300 + code) (b.errPort code detail) none 1
  if limited then d else
  let d := if b.correctable code then
      { d with ev := { d.ev with lastCorr := smInsert d.ev.lastCorr (b.key u * 256 + code) d.tick } }
    else d
  let e0 := evE0 b.num u 0 false code
  let e2 := errWord code detail
  let unit := if d.hubRuns then b.unit u else d.holder (b.unit u)
  d.recordErr unit (unitDie unit) b.num u code ⟨e0, 0, e2, 0⟩ c (d.rdw b.next u 0, d.rdw b.count u 0)

/-- Logs an error that concerns no sorus cell. -/
def Dev.logErr (d : Dev) (b : ErrBlk) (u code : Nat) (detail : Word) : Dev := d.logErrC b u code detail none

/-- Counts a drop in the block's DROP_CNT[k] and under selection 0x100 + k (Table 18.1). -/
def Dev.dropCnt (d : Dev) (b : ErrBlk) (u k : Nat) (port cls : Option Nat) : Dev :=
  let f : Fld := match b with
    | .SWC => F.SWC_DROP_CNT_frames | .TM => F.TM_DROP_CNT_frames | .FWD => F.FWD_DROP_CNT_frames
    | .SYNC => F.SYNC_DROP_CNT_frames | _ => F.MGT_DROP_CNT_frames
  (d.inc f u k 1).cntPC (b.set u) (0x100 + k) port cls 1

/-- Runs `f` over a list, threading the device. -/
def Dev.each {α : Type} (d : Dev) (l : List α) (f : Dev → α → Dev) : Dev := l.foldl f d

/-- Changes the setpoint of a die (R321). -/
def Dev.setpoint (d : Dev) (die mv : Nat) : Dev :=
  ({ d with pw := { d.pw with lastStep := smInsert d.pw.lastStep die d.tick } } : Dev).wr F.HUB_AVS_STAT_setpoint 0 die mv

/-- A running die in forced mode takes its next 5 mV step toward the forced setpoint, 2 µs (312.5 ticks) after the last one
(R323). (DEDUCED, log 98) -/
def Dev.forcedStep (d : Dev) (die : Nat) : Dev :=
  let v := d.rd F.HUB_AVS_STAT_setpoint 0 die
  let f := d.rd F.HUB_AVS_CTRL_forced 0 die
  if !d.dieRuns die || !d.on F.HUB_AVS_CTRL_mode 0 die || v = f || d.tick < smGet d.pw.lastStep die 0 + 313 then d
  else d.setpoint die (if v < f then v + 5 else v - 5)

/-- Takes a fresh index for a free value. (DESIGN CHOICE, log 4) -/
def Dev.fresh (d : Dev) : Dev × Nat := ({ d with freeCtr := d.freeCtr + 1 }, d.freeCtr)

end Sys2Proof.Machine
end

