-- ==== Sys2Proof/Machine/Chunks.lean ====
section
/-! DEFINITION. Collective descriptors (R172), chunk records (R177, R178) and the slot and spill units they hold
(R148, R179, R186), as far as the switch core needs them. -/

namespace Sys2Proof.Machine

/-- Word `w` of descriptor `n` of a die (Table 7.1). -/
def Dev.dscW (d : Dev) (die n w : Nat) : Word := d.rdw .VM_DESC die (n * 27 + w)

/-- The fields of a collective descriptor (Table 7.1). -/
structure Dsc where
  valid : Bool
  block : Nat
  inF : Nat
  outF : Nat
  op : Nat
  exact : Bool
  spill : Bool
  parentKind : Nat
  parent : Nat
  group : Nat
  timeout : Nat
  units64 : Nat
  lastChunk : Nat
  members : Nat
  partials : Nat
  ownIdx : Nat
  leaf : BitVec 1024
  entries : List (Bool × Nat × Nat × Nat)
  deriving DecidableEq, Repr

/-- Reads a descriptor from its 27 words (Table 7.1). -/
def dscOfWords (w : Nat → Word) : Dsc :=
  let d0 := w 0
  let d1 := w 1
  let d2 := w 2
  { valid := wbit d0 63, block := fget d0 62 57, inF := fget d0 56 53, outF := fget d0 52 49, op := fget d0 48 46,
    exact := wbit d0 45, spill := wbit d0 44, parentKind := fget d0 43 42, parent := fget d0 41 18,
    group := fget d1 63 48, timeout := fget d1 47 32, units64 := fget d1 31 25, lastChunk := fget d1 24 9,
    members := fget d2 63 53, partials := fget d2 52 48, ownIdx := fget d2 47 38,
    leaf := BitVec.ofNat 1024 ((List.range 16).foldl (fun a k => a + (w (3 + k)).toNat * 2 ^ (64 * k)) 0),
    entries := (List.range 16).map fun i =>
      let e := w (19 + i / 2)
      let lo := if i % 2 = 0 then 0 else 32
      (wbit e (lo + 31), fget e (lo + 30) (lo + 21), fget e (lo + 20) (lo + 11), fget e (lo + 10) lo) }

/-- Descriptor `n` of a die. -/
def Dev.dsc (d : Dev) (die n : Nat) : Dsc := dscOfWords (fun w => d.dscW die n w)

/-- Elements of a chunk (R172). -/
def Dsc.elems (c : Dsc) : Nat := elemCount c.inF (c.units64 * 64)

/-- Slot units of a chunk (R163). -/
def Dsc.units (c : Dsc) : Nat := unitsFor c.inF c.op c.exact c.elems

/-- The set bits of a leaf mask from `first` on over `span` leaves. -/
def rangeMask (first span : Nat) : BitVec 1024 := BitVec.ofNat 1024 ((2 ^ span - 1) * 2 ^ first)

/-- Number of the valid partial entry with an index, if any (R176). -/
def Dsc.entryOf (c : Dsc) (idx : Nat) : Option Nat :=
  (List.range 16).find? fun i => match c.entries[i]? with
    | some (v, x, _, _) => v && x == idx
    | none => false

/-- The leaves a contributor index covers (R176). -/
def Dsc.coverage (c : Dsc) (idx : Nat) : BitVec 1024 :=
  if c.leaf.getLsbD idx then BitVec.twoPow 1024 idx
  else match c.entryOf idx with
    | some i => match c.entries[i]? with
      | some (_, _, first, span) => c.leaf &&& rangeMask first span
      | none => 0
    | none => 0

/-- The record of a chunk, if one is not free (R177). -/
def Dev.chunk? (d : Dev) (k : ChunkKey) : Option ChunkRec := d.sy.recs.find? fun r => r.key == k

/-- Replaces the record of a chunk. -/
def Dev.putChunk (d : Dev) (r : ChunkRec) : Dev :=
  { d with sy := { d.sy with recs := d.sy.recs.map fun x => if x.key == r.key then r else x } }

/-- Returns one cell's slot units (R148). -/
def freeUnits (m : RegFile) (die array : Nat) (u : Nat × Nat) : RegFile :=
  let i := cellIdx array u.1
  let m := fldPut m F.RED_CELL_STAT_free die i (fldGet m F.RED_CELL_STAT_free die i + u.2)
  fldPut m F.RED_ARRAY_STAT_free die array (fldGet m F.RED_ARRAY_STAT_free die array + u.2)

/-- Releases the slot, window and spill units a record holds (R186, R189). -/
def Dev.releaseUnits (d : Dev) (r : ChunkRec) : Dev :=
  let die := r.key.die
  let n := (r.units.map Prod.snd).sum
  let m := r.units.foldl (fun m u => freeUnits m die r.array u) d.regs
  let m := if r.units.isEmpty then m else
    fldPut m F.RED_ARRAY_STAT_chunks die r.array (fldGet m F.RED_ARRAY_STAT_chunks die r.array - 1)
  let m := fldPut m F.SYNC_BLK_STAT_in_use die r.block (fldGet m F.SYNC_BLK_STAT_in_use die r.block - n)
  let m := fldPut m F.SYNC_BLK_STAT_spill_in_use die r.block
    (fldGet m F.SYNC_BLK_STAT_spill_in_use die r.block - r.spillUnits)
  let m := fldPut m F.SYNC_SPILL_STAT_in_use die 0 (fldGet m F.SYNC_SPILL_STAT_in_use die 0 - r.spillUnits)
  let m := if r.resident then
      fldPut m F.SYNC_SPILL_STAT_resident die 0 (fldGet m F.SYNC_SPILL_STAT_resident die 0 - r.spillUnits) else m
  let m := if r.fetching then
      fldPut m F.SYNC_SPILL_STAT_pending die 0 (fldGet m F.SYNC_SPILL_STAT_pending die 0 - 1) else m
  { d with regs := m }

/-- Closes a record: its units go, and it takes the last place among the closed (R178, R189). What its cells held is still what a
read under way finds. -/
def Dev.closeChunk (d : Dev) (r : ChunkRec) : Dev :=
  let d := d.releaseUnits r
  let r' := { r with state := .closed, units := [], spillUnits := 0, resident := false, fetching := false, out := [] }
  { d with sy := { d.sy with recs := (d.sy.recs.filter fun x => x.key != r.key) ++ [r'] } }

/-- A sending chunk leaves that state once its verification and its last copy are done (R186). -/
def Dev.settleChunk (d : Dev) (k : ChunkKey) : Dev :=
  match d.chunk? k with
  | some r => if r.state = .sending && r.verified && r.copies = 0 then d.closeChunk r else d
  | none => d

/-- One copy of a chunk's emitted frames is done: sent, flushed, dropped or withdrawn (R186). -/
def Dev.copyDone (d : Dev) (k : Option ChunkKey) (left : Bool) : Dev :=
  match k with
  | none => d
  | some k => match d.chunk? k with
    | none => d
    | some r => (d.putChunk { r with copies := r.copies - 1, left := r.left || left }).settleChunk k

end Sys2Proof.Machine
end

