-- ==== Sys2Proof/Machine/Switch.lean ====
section
/-! DEFINITION. The switch core's operations (03_switch_core): cells and their bitmap (R68, R79, R80), requesters and
pools (R75 to R78), queues (R71 to R74), the pull across the die boundary (R82, R83), credits (R107), bundles (R92 to
R95), queue depths (R102) and acceptance (R113). -/

namespace Sys2Proof.Machine

/-- Number of an origin: ports 0-1023, arrays from 1,024, shared origins from 1,056. -/
def Origin.num : Origin → Nat
  | .port l => l
  | .array a => 1024 + a
  | .other d => 1056 + d

/-- Core die of an origin. -/
def Origin.die : Origin → Nat
  | .port l => laneDie l
  | .array a => a / 16
  | .other d => d

/-- Core die of the origin with a number. -/
def originDie (n : Nat) : Nat := if n < 1024 then laneDie n else if n < 1056 then (n - 1024) / 16 else n - 1056

/-- Place of an origin in the order of R110: die 0 ports, arrays, other origin, then die 1 likewise. -/
def Origin.rank : Origin → Nat
  | .port l => (l / 512) * 1024 + l % 512
  | .array a => (a / 16) * 1024 + 600 + a % 16
  | .other d => d * 1024 + 700

/-- The ingress port of an origin, if it is one. -/
def Origin.port? : Origin → Option Nat
  | .port l => some l
  | _ => none

/-- Number of a destination: ports 0-1023, arrays from 1,024. -/
def Dest.num : Dest → Nat
  | .port l => l
  | .array a => 1024 + a

/-- Core die of a destination. -/
def Dest.die : Dest → Nat
  | .port l => laneDie l
  | .array a => a / 16

/-- The egress port of a destination, if it is one. -/
def Dest.port? : Dest → Option Nat
  | .port l => some l
  | .array _ => none

/-- Key of a VOQ: origin, destination and class (R72). -/
def voqKey (o : Origin) (t : Dest) (cls : Nat) : Nat := (o.num * 2048 + t.num) * 8 + cls

/-- Key of a descriptor's VOQ. -/
def Desc.voq (x : Desc) : Nat := voqKey x.origin x.dest x.cls

/-- Whether a lane is the first lane of a port of the active image (R20). -/
def Dev.isPort (d : Dev) (l : Nat) : Bool := (smFind d.cfg.ports l).isSome

/-- Width in lanes of a port. -/
def Dev.portWidth (d : Dev) (l : Nat) : Nat :=
  match smFind d.cfg.ports l with
  | some p => p.width
  | none => 1

/-- LANE_PORT_STAT state of a port: 0 down, 1 training, 2 up, 3 transmit idle, 4 held, 5 leaving idle. -/
def Dev.portState (d : Dev) (l : Nat) : Nat := d.rd F.LANE_PORT_STAT_state (laneDie l) (l % 512)

/-- Whether a port's link is up, in idle or not. -/
def Dev.linkUp (d : Dev) (l : Nat) : Bool :=
  let s := d.portState l
  s == 2 || s == 3 || s == 5

/-- Key of a queue group, or of a port's class in per-die tables. -/
def pcKey (port cls : Nat) : Nat := port * 8 + cls

/-- Whether a port's receiver gives credits for a class: its advertised count is not 0 (R105, R107). -/
def Dev.advert (d : Dev) (port cls : Nat) : Nat := d.rd F.TM_CRD_CFG_advert (laneDie port) (pcKey (port % 512) cls)

/-- Credits of a frame of length L (R105). -/
def creditsFor (len : Nat) : Nat := (len + 255) / 256

/-- Owes credits to the link partner (R107). Before the advertisement of a link that went down has left there is nothing to return:
the cells freed until then are in it (R108). (DEDUCED, log 166) -/
def Dev.owe (d : Dev) (port cls n : Nat) : Dev :=
  if d.advert port cls = 0 || (!d.linkUp port && (smFind d.ln.ownAdv port).isNone) then d else d.inc F.TM_CRD_STAT_owed (laneDie port) (pcKey (port % 512) cls) n

/-- Returns the credit of a dropped frame to the partner of its ingress port (R61, R78). -/
def Dev.oweFrame (d : Dev) (o : Origin) (cls len : Nat) : Dev :=
  match o with
  | .port p => d.owe p cls (creditsFor len)
  | _ => d

/-- Key of Thallus cell `c` of a die. -/
def thKey (die c : Nat) : Nat := die * 1048576 + c

/-- Key of control buffer cell `c` of a die. -/
def ctlKey (die c : Nat) : Nat := die * 1048576 + 524288 + c

/-- Whether a cell key names a control buffer cell. -/
def isCtl (k : Nat) : Bool := 524288 ≤ k % 1048576

/-- The lowest free cell key from `k` on, looking at `n` cells. -/
def lowestFree (m : SMap CellInfo) : Nat → Nat → Option Nat
  | _, 0 => none
  | k, n + 1 => if (smFind m k).isNone then some k else lowestFree m (k + 1) n

/-- The bank walk of R68 and R79: the lowest free cell of bank b, else of the next bank, over `n` banks. -/
def bankWalk (m : SMap CellInfo) (die b : Nat) : Nat → Option Nat
  | 0 => none
  | n + 1 => match lowestFree m (thKey die (b % 64 * 6144)) 6144 with
    | some k => some k
    | none => bankWalk m die (b + 1) n

/-- Takes `n` cells one by one (R77, R79); none when the walk finds no free cell (R80). -/
def takeCells (die b owner : Nat) (ctl : Bool) : Nat → SMap CellInfo → Option (List Nat × SMap CellInfo)
  | 0, m => some ([], m)
  | n + 1, m =>
    match (if ctl then lowestFree m (ctlKey die 0) 4096 else bankWalk m die b 64) with
    | none => none
    | some k => match takeCells die b owner ctl n (smInsert m k ⟨owner, true, false, 0⟩) with
      | none => none
      | some (ks, m) => some (k :: ks, m)

/-- Requester index of a frame (Table 3.1). (DEDUCED, log 25) -/
def requester (o : Origin) (cls : Nat) : Nat :=
  match o with
  | .port l => cls * 128 + l / 4 % 128
  | .array a => 896 + a % 16
  | .other _ => 896

/-- Whether a requester's frames are lossless: classes 5 to 7 always, a bulk class by its pool's kind (R76). -/
def Dev.lossless (d : Dev) (die req cls : Nat) : Bool :=
  5 ≤ cls || d.on F.SWC_POOL_CFG_kind die (d.rd F.SWC_REQ_CFG_pool die req)

/-- Raises or lowers a requester's and its pool's counts by the cells taken (R77). -/
def Dev.charge (d : Dev) (die req n : Nat) : Dev :=
  let p := d.rd F.SWC_REQ_CFG_pool die req
  let r := d.rd F.SWC_REQ_STAT_in_use die req + n
  let q := d.rd F.SWC_POOL_STAT_in_use die p + n
  let d := (d.wr F.SWC_REQ_STAT_in_use die req r).peak F.SWC_REQ_STAT_peak die req r
  (d.wr F.SWC_POOL_STAT_in_use die p q).peak F.SWC_POOL_STAT_peak die p q

/-- Detail of an SWC error: requester and cell (Table 3.7). -/
def swcDetail (req cell : Nat) : Word := wmk [(28, 19, req), (18, 0, cell)]

/-- The requester an SWC error names: none for a frame of class 7, whose cells have no requester (R81, Table 3.7). -/
def errReq (o : Origin) (cls : Nat) : Nat := if cls = 7 then 0 else requester o cls

/-- The number by which registers name a cell: Thallus cells by R68, control buffer cell c as 393,216 + c.
(DESIGN CHOICE, log 156) -/
def cellNo (k : Nat) : Nat := if isCtl k then 393216 + k % 524288 else k % 524288

/-- The cell of a die that a number names. -/
def cellOf (die n : Nat) : Nat := if 393216 ≤ n then ctlKey die (n - 393216) else thKey die n

/-- A cell that is freed no longer counts against the credits of the frames it held; a frame whose last cell goes
returns its credits (R107). -/
def Dev.creditCell (d : Dev) (k : Nat) : Dev :=
  let (hit, rest) := d.sw.holds.partition fun h => h.cells.contains k
  let hit := hit.map fun h => { h with cells := h.cells.filter (· != k) }
  let (gone, kept) := hit.partition fun h => h.cells.isEmpty
  let d := { d with sw := { d.sw with holds := rest ++ kept } }
  d.each gone fun d h => d.owe h.port h.cls h.credits

/-- Frees a cell (R79): credited to its owner's requester and pool; a cell already free is error code 1. -/
def Dev.freeCell (d : Dev) (k : Nat) (port cls : Option Nat) : Dev :=
  let die := k / 1048576
  match smFind d.sw.cells k with
  | none => d.logErr .SWC die 1 (swcDetail 0 (cellNo k))
  | some i =>
    let d := { d with sw := { d.sw with cells := smErase d.sw.cells k,
                                        opens := d.sw.opens.filter fun o => o.2.1 != k } }
    let d := if isCtl k then d else
      let p := d.rd F.SWC_REQ_CFG_pool die i.owner
      (((d.dec F.SWC_REQ_STAT_in_use die i.owner 1).dec F.SWC_POOL_STAT_in_use die p 1).wr
        F.SWC_FREE_STAT_free_cells die 0 (d.freeCells die + 1)).cntPC ⟨die, 1⟩ 3 port cls 1
    d.creditCell k

/-- One reader of a cell is done; the last one frees it (R73). A cell that is free already is a double free (R79). -/
def Dev.unrefCell (d : Dev) (k : Nat) (port cls : Option Nat) : Dev :=
  match smFind d.sw.cells k with
  | none => d.freeCell k port cls
  | some i =>
    if i.refs ≤ 1 then d.freeCell k port cls
    else { d with sw := { d.sw with cells := smInsert d.sw.cells k { i with refs := i.refs - 1 } } }

/-- One more reader of each of some cells. -/
def refCells (m : SMap CellInfo) (ks : List Nat) : SMap CellInfo :=
  ks.foldl (fun m k => match smFind m k with
    | some i => smInsert m k { i with refs := i.refs + 1 }
    | none => m) m

/-- One copy of a multicast record of a die is sent, flushed or dropped; the last frees the frame's cells (R89). A record
without copies left is error code 8. -/
def Dev.recordDone (d : Dev) (die id : Nat) (port cls : Option Nat) : Dev :=
  match smFind d.sw.mrecs id with
  | none => d.logErr .SWC die 8 0
  | some r =>
    if r.copies ≤ 1 then
      let d := { d with sw := { d.sw with mrecs := smErase d.sw.mrecs id } }
      let d := match r.requester with
        | some q => d.dec F.SWC_REQ_STAT_rec_in_use r.die q 1
        | none => d
      d.each r.cells fun d k => d.unrefCell k port cls
    else { d with sw := { d.sw with mrecs := smInsert d.sw.mrecs id { r with copies := r.copies - 1 } } }

/-- The accepted bytes of a port fall when a frame's last bit leaves or the frame is flushed or dropped (R113); a
fall below 0 is TM error code 1 (R114). -/
def Dev.admFall (d : Dev) (x : Desc) : Dev :=
  match x.dest, x.stamp with
  | .port p, some _ =>
    let c := d.rd F.TM_ADM_STAT_count x.die p
    if c < x.frame.len then (d.wr F.TM_ADM_STAT_count x.die p 0).logErr .TM x.die 1 (wmk [(9, 0, p)])
    else d.wr F.TM_ADM_STAT_count x.die p (c - x.frame.len)
  | _, _ => d

/-- A queued frame's cells or its record's copy are given back (R73, R89). -/
def Dev.releaseCells (d : Dev) (x : Desc) : Dev :=
  match x.mrec with
  | some id => d.recordDone x.die id x.dest.port? (some x.cls)
  | none => d.each x.cells fun d k => d.unrefCell k x.dest.port? (some x.cls)

/-- Cells that a die holds toward a queue group (R102). -/
def Dev.ownDepth (d : Dev) (die port cls : Nat) : Nat :=
  let q := (d.sw.queue.filter fun x => x.die == die && x.dest == .port port && x.cls == cls).flatMap (·.cells)
  let t := match smFind d.sw.tx port with
    | some t =>
      if t.desc.die = die && t.desc.cls = cls then
        (if die = laneDie port || t.desc.mrec.isSome then t.desc.cells else t.desc.cells.drop t.staged)
      else []
    | none => []
  let a := (d.sw.acks.filter fun a => a.die == die && a.port == some port && a.cls == cls).map (·.cell)
  (((q ++ t ++ a).eraseDups).filter fun k => (smFind d.sw.cells k).isSome).length

/-- Key of a die's view of a queue group. -/
def qgKey (die port cls : Nat) : Nat := (die * 1024 + port) * 8 + cls

/-- Depth of a queue group as a die holds it: its own cells and the peer's count as last refreshed (R102). -/
def Dev.depth (d : Dev) (die port cls : Nat) : Nat :=
  d.ownDepth die port cls + smGet d.tm.peerDepth (qgKey die port cls) 0

/-- Clears the saturation latch of each group whose depth has fallen below its threshold (R117). -/
def Dev.satSweep (d : Dev) : Dev :=
  let keep := fun (e : Nat × Bool) =>
    let p := e.1 / 8
    decide (d.rd F.TM_Q_CFG_sat_thr (laneDie p) (pcKey (p % 512) (e.1 % 8)) ≤ d.depth (laneDie p) p (e.1 % 8))
  { d with tm := { d.tm with satLatch := d.tm.satLatch.filter keep } }

/-- A frame is flushed or dropped out of a queue: counted under an SWC reason, its cells freed, its credit returned
with them, its admission count and its multicast or result copy released (R74). -/
def Dev.discard (d : Dev) (x : Desc) (reason : Nat) : Dev :=
  (((d.dropCnt .SWC x.die reason x.dest.port? (some x.cls)).releaseCells x).admFall x).copyDone x.result false

/-- Flushes the queued frames that a test picks, counting each under an SWC reason. -/
def Dev.flush (d : Dev) (pick : Desc → Bool) (reason : Nat) : Dev :=
  let gone := d.sw.queue.filter pick
  let d := { d with sw := { d.sw with queue := d.sw.queue.filter fun x => !pick x } }
  (d.each gone fun d x => d.discard x reason).satSweep

/-- Flushes every VOQ of an egress port on both dies, and the frame in transmission there (R74). -/
def Dev.flushPort (d : Dev) (port reason : Nat) : Dev :=
  let d := d.flush (fun x => x.dest == .port port) reason
  match smFind d.sw.tx port with
  | none => d
  | some t =>
    let rest := t.desc.cells.drop (if t.desc.die = laneDie port || t.desc.mrec.isSome then 0 else t.staged)
    let d := { d with sw := { d.sw with tx := smErase d.sw.tx port } }
    let d := d.wr F.SWC_STAGE_STAT_in_use (laneDie port) 0
      (d.rd F.SWC_STAGE_STAT_in_use (laneDie port) 0 - t.staged)
    (d.discard { t.desc with cells := rest } reason).satSweep

/-- Whether the two core dies reach each other (R84, R301): each holds the other present over the control bundle. -/
def Dev.peerOk (d : Dev) : Bool := d.on F.D2D_STAT_peer 0 0 && d.on F.D2D_STAT_peer 1 0

/-- Whether a port lies on a die or on a peer die that it reaches. -/
def Dev.reach (d : Dev) (die p : Nat) : Bool := laneDie p == die || d.peerOk

/-- Whether member `m` of a bundle has its link up and is not removed for heartbeats (SWC_BND_LIVE, R92). -/
def Dev.liveMember (d : Dev) (b m : Nat) : Bool :=
  match (smGet d.cfg.bundles b [])[m]? with
  | some p => d.linkUp p && !d.on F.LANE_LIVE_removed (laneDie p) (p % 512)
  | none => false

/-- The live mask of a bundle: SWC_BND_LIVE (Table 3.22). -/
def Dev.liveMask (d : Dev) (b : Nat) : Word :=
  (List.range 64).foldl (fun w m => if d.liveMember b m then wset w m true else w) 0

/-- The live members of a bundle that a die reaches: those of a lost peer have left it (R84, R94). -/
def Dev.reachMask (d : Dev) (die b : Nat) : Word :=
  let far := if d.peerOk then BitVec.allOnes 64 else
    (List.range 64).foldl (fun w m => match (smGet d.cfg.bundles b [])[m]? with
      | some p => if laneDie p = die then wset w m true else w
      | none => w) 0
  d.liveMask b &&& far

/-- The selectable members of a bundle on a die (R92). -/
def Dev.selMask (d : Dev) (die b : Nat) : Word := d.reachMask die b &&& d.rdw .SWC_BND_ADMIN die b

/-- Key of a pair of origin and bundle. -/
def rrKey (o : Origin) (b : Nat) : Nat := o.num * 1024 + b

/-- The mask a pinned frame's member is chosen from: the old mapping's live members while the pair settles, else the
selectable members (R95). -/
def Dev.pinMask (d : Dev) (o : Origin) (b : Nat) : Word :=
  match smFind d.sw.oldMap (rrKey o b) with
  | some old => let m := old &&& d.reachMask o.die b; if m = 0 then d.selMask o.die b else m
  | none => d.selMask o.die b

/-- The first selectable member at or after `m` in ring order, looking at `fuel` members; `bad` is not selectable. -/
def ringFind (mask : Word) (n : Nat) (bad : Nat → Bool) : Nat → Nat → Option Nat
  | _, 0 => none
  | m, fuel + 1 =>
    if wbit mask (m % n) && !bad (m % n) then some (m % n) else ringFind mask n bad (m + 1) fuel

/-- The pinning hash of R93; `dest0` is W0 [41:18] as the frame arrives. -/
def pinHash (seed : Nat) (f : Frame) (dest0 : Nat) : Nat := crcWords32 [seed, f.flow, f.srcDfid, dest0]

/-- Chooses a bundle member (R93): spraying by the origin's round-robin pointer, pinning by the hash. `avoid` is the
arrival port of a multicast frame (R89). -/
def Dev.chooseMember (d : Dev) (o : Origin) (b : Nat) (f : Frame) (dest0 : Nat) (avoid : Option Nat) :
    Dev × Option Nat :=
  let ms := smGet d.cfg.bundles b []
  let n := ms.length
  let bad := fun m => avoid.isSome && ms[m]? == avoid
  if n = 0 then (d, none)
  else if f.ftype ≤ 2 && f.flag 1 then
    let cur := smGet d.sw.rr (rrKey o b) (n - 1)
    match ringFind (d.selMask o.die b) n bad (cur + 1) n with
    | some m => ({ d with sw := { d.sw with rr := smInsert d.sw.rr (rrKey o b) m } }, ms[m]?)
    | none => (d, none)
  else
    let h := pinHash (d.rd F.SWC_HASH_SEED_seed o.die 0) f dest0 % n
    match ringFind (d.pinMask o b) n bad h n with
    | some m => (d, ms[m]?)
    | none => (d, none)

/-- Whether a VOQ of classes 0 to 6 from an origin toward a member of a bundle holds a frame (R95). -/
def Dev.pairBusy (d : Dev) (o : Origin) (b : Nat) : Bool :=
  let ms := smGet d.cfg.bundles b []
  d.sw.queue.any fun x => x.origin == o && x.cls < 7 &&
    (match x.dest with | .port p => ms.contains p | _ => false)

/-- The origins of a die with frames queued toward a bundle. -/
def Dev.busyOrigins (d : Dev) (die b : Nat) : List Origin :=
  ((d.sw.queue.map (·.origin)).eraseDups).filter fun o => o.die == die && d.pairBusy o b

/-- After a change of the selectable set of a bundle on a die, each pair with queued frames keeps its old mapping
(R95); `old` is the selectable mask before the change. (DEDUCED, log 33) -/
def Dev.settle (d : Dev) (die b : Nat) (old : Word) : Dev :=
  if old = d.selMask die b then d else
  d.each (d.busyOrigins die b) fun d o =>
    if (smFind d.sw.oldMap (rrKey o b)).isSome then d
    else { d with sw := { d.sw with oldMap := smInsert d.sw.oldMap (rrKey o b) old } }

/-- Bundles that have a port as member. -/
def Dev.bundlesOf (d : Dev) (port : Nat) : List Nat :=
  (d.cfg.bundles.filter fun b => b.2.contains port).map Prod.fst

/-- Settling at a member that becomes selectable again (R95); `before` is the device before the change. -/
def Dev.settlePort (d before : Dev) (port : Nat) : Dev :=
  d.each (d.bundlesOf port) fun d b => (d.settle 0 b (before.selMask 0 b)).settle 1 b (before.selMask 1 b)

/-- Settling of every bundle of both dies after a change of what they reach (R95). -/
def Dev.settleAll (d before : Dev) : Dev :=
  d.each (d.cfg.bundles.map Prod.fst) fun d b => (d.settle 0 b (before.selMask 0 b)).settle 1 b (before.selMask 1 b)

/-- A removal acts on the old mappings too: the member leaves them, and a pair whose old mapping has no selectable member left
switches at once (R95). -/
def Dev.dropDeadMaps (d : Dev) : Dev :=
  { d with sw := { d.sw with oldMap := d.sw.oldMap.filterMap fun e =>
      let m := e.2 &&& d.reachMask (originDie (e.1 / 1024)) (e.1 % 1024)
      if m = 0 then none else some (e.1, m) } }

/-- Accepts a frame of class 5 to 7 at its ingress die if the share allows (R113): stamp and count. -/
def Dev.tryAccept (d : Dev) (x : Desc) : Option (Dev × Desc) :=
  match x.dest with
  | .array _ => none
  | .port p =>
    let c := d.rd F.TM_ADM_STAT_count x.die p + x.frame.len
    if c ≤ d.rd F.TM_ADM_CFG_share x.die p then
      let d := (d.wr F.TM_ADM_STAT_count x.die p c).peak F.TM_ADM_STAT_peak x.die p c
      some (d.cntPC ⟨x.die, 2⟩ 6 x.origin.port? (some x.cls) 1, { x with stamp := some d.tick })
    else none

/-- Puts a descriptor at the tail of its VOQ; a frame of class 5 to 7 toward a port is accepted now or waits, counted
once in TM_ADM_WAIT_CNT (R113). A frame behind a waiting one of its VOQ waits too. -/
def Dev.enqueue (d : Dev) (x : Desc) : Dev :=
  let waits := d.sw.queue.any fun y => y.voq == x.voq && y.stamp.isNone
  let (d, x) :=
    if x.cls < 5 || x.dest.port?.isNone then (d, x)
    else if waits then (d.inc F.TM_ADM_WAIT_CNT_frames x.die 0 1, x)
    else match d.tryAccept x with
      | some r => r
      | none => (d.inc F.TM_ADM_WAIT_CNT_frames x.die 0 1, x)
  { d with sw := { d.sw with queue := d.sw.queue ++ [x] } }

/-- How an admission ends (R77, R78, R80). -/
inductive AdmFail where
  | quota | pool | record | noCell
  deriving DecidableEq, Repr

/-- A failed admission (R78, R80, R81): a lossy frame is dropped and counted, a lossless one also returns its credit and
logs an error; a Thallus walk without a free cell logs code 3, a full control buffer is the lossless case. -/
def Dev.failAdmit (d : Dev) (die : Nat) (o : Origin) (cls len : Nat) (why : AdmFail) (lossless : Bool) : Dev :=
  let d := d.dropCnt .SWC die (if lossless then 10 else match why with
    | .quota => 0 | .pool => 1 | .record => 2 | .noCell => 1) o.port? (some cls)
  let d := if lossless then d.oweFrame o cls len else d
  if why = .noCell && cls != 7 then d.logErr .SWC die 3 (swcDetail (errReq o cls) 0)
  else if lossless then d.logErr .SWC die 2 (swcDetail (errReq o cls) 0) else d

/-- Multicast records that a die has in use, of the 32,768 it holds (Table 3.18). -/
def Dev.mrecsOf (d : Dev) (die : Nat) : Nat := (d.sw.mrecs.filter fun e => e.2.die == die).length

/-- Reserves and takes `need` cells and, for a multicast frame, one record (R77, R79, R80, R81). -/
def Dev.reserve (d : Dev) (die : Nat) (o : Origin) (cls need : Nat) (mc : Bool) : Dev × Except AdmFail (List Nat) :=
  let (d, fv) := d.fresh
  let ctl := decide (cls = 7)
  let req := requester o cls
  let p := d.rd F.SWC_REQ_CFG_pool die req
  if !ctl && d.rd F.SWC_REQ_CFG_quota die req < d.rd F.SWC_REQ_STAT_in_use die req + need then (d, .error .quota)
  else if !ctl && d.rd F.SWC_POOL_CFG_size die p < d.rd F.SWC_POOL_STAT_in_use die p + need then (d, .error .pool)
  else if mc && (32768 ≤ d.mrecsOf die ||
      (!ctl && d.rd F.SWC_REQ_CFG_rec_quota die req ≤ d.rd F.SWC_REQ_STAT_rec_in_use die req)) then (d, .error .record)
  else match takeCells die (Config.pipeline fv).val (if ctl then 0 else req) ctl need d.sw.cells with
    | none => (d, .error .noCell)
    | some (ks, m) =>
      let d := { d with sw := { d.sw with cells := m } }
      if ctl then (d, .ok ks) else
      let d := d.charge die req need
      let f := d.freeCells die - need
      let d := d.wr F.SWC_FREE_STAT_free_cells die 0 f
      let d := if f < d.rd F.SWC_FREE_STAT_min_free die 0 then d.wr F.SWC_FREE_STAT_min_free die 0 f else d
      (d.cntPC ⟨die, 1⟩ 2 o.port? (some cls) need, .ok ks)

/-- Whether the next frame of a VOQ has reached stage 6 when the Thallus write of a frame completes (R23), where no operand says
it: a frame that the device originates or that waited for an answer. A free choice. -/
def Dev.packFree (d : Dev) : Dev × Bool := (d.fresh.1, Config.packs d.freeCtr)

/-- An open cell is committed as soon as the last byte written into it has been read (R23): cell `c` of a frame has been read. -/
def Dev.commitRead (d : Dev) (x : Desc) (c : Nat) : Dev :=
  if x.cells.getLast? = some c then
    { d with sw := { d.sw with opens := d.sw.opens.filter fun o =>
        !(o.1 == x.voq && o.2.1 == c && o.2.2 == (x.offset + x.frame.len) % 256) } }
  else d

/-- Admits a unicast frame to the Thallus or control buffer of a die and queues it (R71, R77, R81). `followed` says
that the next frame of the VOQ has reached stage 6 by the end of this write, so a partly filled cell stays open
(R23). `res` names the chunk that a result copy belongs to or, toward an array, the chunk of the contribution. -/
def Dev.admitUnicast (d : Dev) (die : Nat) (o : Origin) (t : Dest) (f : Frame) (res : Option ChunkKey)
    (followed : Bool) : Dev :=
  let cls := f.cls
  let vk := voqKey o t cls
  let req := requester o cls
  let (out, own) := match t with
    | .port _ => (res, none)
    | .array _ => (none, res)
  let (oc, fill) := match smFind d.sw.opens vk with
    | some (c, n) => ([c], n)
    | none => ([], 0)
  let need := (fill + f.len + 255) / 256 - (if fill = 0 then 0 else 1)
  match d.reserve die o cls need false with
  | (d, .error why) =>
    (d.failAdmit die o cls f.len why (d.lossless die req cls)).copyDone out false
  | (d, .ok ks) =>
    let used := oc ++ ks
    let (d, flip, flips) := d.injectHit (if cls = 7 then 2 else 1) die ((f.len + 7) / 8)
    let last := (fill + f.len) % 256
    let d := if cls = 7 then d else d.cntPC ⟨die, 1⟩ 1 o.port? (some cls) 1
    let opens := if followed && last != 0 then smInsert d.sw.opens vk (used.getLastD 0, last)
      else smErase d.sw.opens vk
    let holds := match o with
      | .port p => d.sw.holds ++ [⟨d.sw.nextId, p, cls, creditsFor f.len, used⟩]
      | _ => d.sw.holds
    let x : Desc := ⟨d.sw.nextId, die, o, t, cls, f, used, fill, none, none, d.tick, flip, flips, out, own⟩
    { d with sw := { d.sw with cells := refCells d.sw.cells used, opens := opens, holds := holds,
                               nextId := d.sw.nextId + 1 } }.enqueue x

/-- Admits a multicast frame: one write, one record, one descriptor for each destination port (R77, R89).
(DEDUCED, log 30) -/
def Dev.admitMulticast (d : Dev) (die : Nat) (o : Origin) (ports : List Nat) (f : Frame) (res : Option ChunkKey) :
    Dev :=
  let cls := f.cls
  let req := requester o cls
  let need := (f.len + 255) / 256
  if ports.isEmpty then (d.oweFrame o cls f.len).copyDone res false else
  match d.reserve die o cls need true with
  | (d, .error why) =>
    (d.failAdmit die o cls f.len why (d.lossless die req cls)).copyDone res false
  | (d, .ok ks) =>
    let (d, flip, flips) := d.injectHit (if cls = 7 then 2 else 1) die ((f.len + 7) / 8)
    let id := d.sw.nextId
    let d := if cls = 7 then d else (d.inc F.SWC_REQ_STAT_rec_in_use die req 1).cntPC ⟨die, 1⟩ 1 o.port? (some cls) 1
    let holds := match o with
      | .port p => d.sw.holds ++ [⟨id, p, cls, creditsFor f.len, ks⟩]
      | _ => d.sw.holds
    let d := { d with sw := { d.sw with
      cells := refCells d.sw.cells ks, holds := holds, nextId := id + 1,
      mrecs := smInsert d.sw.mrecs id ⟨die, if cls = 7 then none else some req, ks, ports.length⟩ } }
    let d := d.each ports fun d p =>
      (d.cntPC ⟨die, 1⟩ 4 (some p) (some cls) 1).enqueue
        ⟨id, die, o, .port p, cls, f, ks, 0, some id, none, d.tick, flip, flips, res, none⟩
    match res with
    | none => d
    | some k => match d.chunk? k with
      | none => d
      | some r => d.putChunk { r with copies := r.copies + ports.length - 1 }

end Sys2Proof.Machine
end

