-- ==== Sys2Proof/Machine/Fwd.lean ====
section
/-! DEFINITION. Forwarding tables (05_forwarding_tables): route lookup (R120 to R123), logical endpoint tables (R124 to
R128), learning and aging (R129 to R132), fences (R133), table commands (R135 to R137) and route banks (R139, R140). -/

namespace Sys2Proof.Machine

/-- The two hash values of R121 for a prefix or key `p` of length `n`. -/
def Dev.hash1 (d : Dev) (die p n : Nat) : Nat := crcWords32 [d.rd F.FWD_SEED_seed die 0, p, n]
def Dev.hash2 (d : Dev) (die p n : Nat) : Nat := crcWords32 [d.rd F.FWD_SEED_seed die 0, p ^^^ 0xFFFFFF, n]

/-- Key of a route entry in the store. -/
def rtKey (die bank bucket slot : Nat) : Nat := ((die * 2 + bank) * 32768 + bucket) * 8 + slot

/-- The two buckets of a prefix in its length's region (R120, R121). -/
def Dev.rtBuckets (d : Dev) (die p n : Nat) : List Nat :=
  let base := d.rd F.FWD_RT_GEOM_base die n
  let size := 2 ^ d.rd F.FWD_RT_GEOM_size die n
  [base + d.hash1 die p n % size, base + d.hash2 die p n % size]

/-- Whether an entry of length `len` and prefix `pfx` covers a filter index of `w` bits (R122). -/
def coversIdx (len pfx w idx : Nat) : Bool :=
  let m := Nat.min len w
  pfx / 2 ^ (24 - m) == idx / 2 ^ (w - m)

/-- Filter bit `n` of an index in a bank (R122): 1 exactly when a valid entry of length `n` covers the index. While the
bank's filter is rebuilt, every enabled length is probed (R143). -/
def Dev.filterBit (d : Dev) (die bank dfid n : Nat) : Bool :=
  let w := if d.on F.FWD_FILTER_CFG_doubled die 0 then 9 else 8
  let lo := rtKey die bank 0 0
  if smGet d.fw.rebuild (die * 2 + bank) false then d.on F.FWD_RT_GEOM_enable die n
  else d.fw.routes.any fun e =>
    lo ≤ e.1 && e.1 < lo + 262144 && e.2.len == n && coversIdx n e.2.pfx w (dfid / 2 ^ (24 - w))

/-- Reads one stored route entry (R143): a one-bit error is corrected and counted, an uncorrectable one poisons the
entry and logs code 1. -/
def Dev.readRoute (d : Dev) (die k dfid : Nat) : Dev :=
  match smFind d.fw.routes k with
  | none => d
  | some e =>
    if e.flip = 0 then d
    else
      let e' := { e with flip := 0, poisoned := e.poisoned || e.flip == 2 }
      let d := { d with fw := { d.fw with routes := smInsert d.fw.routes k e' } }
      if e.flip = 1 then d.cnt ⟨die, 0⟩ 5 else d.logErr .FWD die 1 (BitVec.ofNat 64 dfid)

/-- What a route lookup finds. -/
inductive RouteRes where
  | target (kind tgt : Nat)
  | poisoned
  | none
  deriving DecidableEq, Repr

/-- The lookup of one prefix length (R123). -/
def Dev.probe (d : Dev) (die bank dfid n : Nat) : Dev × RouteRes :=
  let p := dfid / 2 ^ (24 - n) * 2 ^ (24 - n)
  let ks := (d.rtBuckets die p n).flatMap fun b => (List.range 8).map fun s => rtKey die bank b s
  let d := d.each ks fun d k => d.readRoute die k dfid
  match ks.findSome? fun k => match smFind d.fw.routes k with
      | some e => if e.len = n && e.pfx = p then some e else none
      | none => none with
  | some e => (d, if e.poisoned then .poisoned else .target e.kind e.target)
  | none => (d, .none)

/-- Longest-prefix lookup from length `n` down (R123). -/
def Dev.lpm (d : Dev) (die bank dfid : Nat) : Nat → Dev × RouteRes
  | 0 => if d.filterBit die bank dfid 0 then d.probe die bank dfid 0 else (d, .none)
  | n + 1 =>
    if d.filterBit die bank dfid (n + 1) then
      match d.probe die bank dfid (n + 1) with
      | (d, .none) => d.lpm die bank dfid n
      | r => r
    else d.lpm die bank dfid n

/-- The bank that serves a frame's epoch bit on a die, if any (R139). (DEDUCED, log 38) -/
def Dev.bankFor (d : Dev) (die epoch : Nat) : Option Nat :=
  let a := smGet d.fw.active die 0
  if epoch = d.rd F.FWD_EPOCH_epoch die 0 then some a
  else if d.on F.FWD_EPOCH_draining die 0 then some (1 - a) else none

/-- Key of a logical address: job block and rank (R124). -/
def logKey (block rank : Nat) : Nat := block * 1048576 + rank

/-- Key of a logical entry. -/
def LogEntry.key (e : LogEntry) : Nat := logKey e.block e.rank

/-- Positions (bucket times 8 plus slot) of a key in a table of `nb` buckets (R121, R124). -/
def Dev.logPos (d : Dev) (die key nb : Nat) : List Nat :=
  [d.hash1 die key 26 % nb, d.hash2 die key 26 % nb].flatMap fun b => (List.range 8).map fun s => b * 8 + s

/-- First position of a die's on-die logical table in the store. -/
def lgBase (die : Nat) : Nat := die * 262144

/-- The on-die position and entry of a key (R124). -/
def Dev.findLog (d : Dev) (die key : Nat) : Option (Nat × LogEntry) :=
  (d.logPos die key 32768).findSome? fun p => match smFind d.fw.logical (lgBase die + p) with
    | some e => if e.key = key then some (p, e) else none
    | none => none

/-- Reads one stored logical entry (R143). -/
def Dev.readLog (d : Dev) (die pos key : Nat) : Dev :=
  match smFind d.fw.logical (lgBase die + pos) with
  | none => d
  | some e =>
    if e.flip = 0 then d
    else
      let e' := { e with poisoned := e.poisoned || e.flip == 2, flip := 0 }
      let d := { d with fw := { d.fw with logical := smInsert d.fw.logical (lgBase die + pos) e' } }
      if e.flip = 1 then d.cnt ⟨die, 0⟩ 5 else d.logErr .FWD die 1 (BitVec.ofNat 64 key)

/-- A read of a key's entries in a die's on-die table: whatever errors they hold are met (R143). -/
def Dev.readKey (d : Dev) (die key : Nat) : Dev := d.each (d.logPos die key 32768) fun d p => d.readLog die p key

/-- Reads one stored backing entry (R143): GDDR7 counts a corrected error, an uncorrectable one poisons the entry. -/
def Dev.readBack (d : Dev) (die pos : Nat) : Dev :=
  match smFind d.fw.backing pos with
  | none => d
  | some e =>
    if e.flip = 0 then d
    else
      let e' := { e with poisoned := e.poisoned || e.flip == 2, flip := 0 }
      let d := { d with fw := { d.fw with backing := smInsert d.fw.backing pos e' } }
      if e.flip = 1 then d.cnt ⟨2, 4⟩ 3 else d.logErr .FWD die 1 (BitVec.ofNat 64 e.key)

/-- A read of a key's entries in the backing table (R143). -/
def Dev.readBackKey (d : Dev) (die key : Nat) : Dev := d.each (d.logPos die key 2097152) fun d p => d.readBack die p

/-- The backing entry of a key (R124). -/
def Dev.findBack (d : Dev) (die key : Nat) : Option (Nat × LogEntry) :=
  (d.logPos die key 2097152).findSome? fun p => match smFind d.fw.backing p with
    | some e => if e.key = key then some (p, e) else none
    | none => none

/-- Writes an entry at an on-die position; the write may meet an armed injection (R415). -/
def Dev.putLog (d : Dev) (die pos : Nat) (e : LogEntry) : Dev :=
  let (d, bits, _) := d.injectHit 4 die 2
  { d with fw := { d.fw with logical := smInsert d.fw.logical (lgBase die + pos) { e with flip := bits } } }

/-- Current age tick of a die (R130). -/
def Dev.ageTick (d : Dev) (die : Nat) : Nat := d.rd F.FWD_AGE_CFG_tick die 0

/-- Age of a timestamp in ticks, modulo 2^16 (R130). -/
def Dev.ageOf (d : Dev) (die ts : Nat) : Nat := (d.ageTick die + 65536 - ts) % 65536

/-- The cached or absent entry with the oldest timestamp among some positions; ties to the lower position (R128). -/
def Dev.victim (d : Dev) (die : Nat) (ps : List Nat) : Option Nat :=
  let cand := (ps.eraseDups).filterMap fun p => match smFind d.fw.logical (lgBase die + p) with
    | some e => if e.kind = 2 || e.kind = 3 then some (p, d.ageOf die e.ts) else none
    | none => none
  (cand.foldl (fun (acc : Option (Nat × Nat)) (c : Nat × Nat) => match acc with
    | none => some c
    | some b => if b.2 < c.2 || (b.2 = c.2 && c.1 < b.1) then some c else some b) none).map Prod.fst

/-- Sends a change of a key to the other die (R131); a change meant for a die that is not running is discarded
(R142). A refresh in the tick of the die's own whole change of the key takes nothing from that change. -/
def Dev.sendChange (d : Dev) (die key : Nat) (e : Option LogEntry) (refresh : Bool) : Dev :=
  let whole := smFind d.fw.lastChange (die * 67108864 + key) == some ⟨d.tick, none⟩
  let own : OwnChange := ⟨d.tick, if refresh && !whole then e.map fun e => e.ts else none⟩
  let d := { d with fw := { d.fw with lastChange := smInsert d.fw.lastChange (die * 67108864 + key) own } }
  if d.dieRuns (1 - die) then
    { d with fw := { d.fw with cross := d.fw.cross ++ [⟨die, key, e, refresh, d.tick⟩] } }
  else d

/-- Inserts an on-die logical entry (R121, R128): status 3 when it replaces an entry of its key, 2 when both buckets
are full and hold nothing to evict. An eviction goes to the other die (R131). -/
def Dev.insertLog (d : Dev) (die : Nat) (e : LogEntry) : Dev × Nat :=
  match d.findLog die e.key with
  | some (p, _) => (d.putLog die p e, 3)
  | none =>
    let ps := d.logPos die e.key 32768
    match ps.find? fun p => (smFind d.fw.logical (lgBase die + p)).isNone with
    | some p => (d.putLog die p e, 0)
    | none => match d.victim die ps with
      | some p =>
        let d := d.evtCnt .FWD die 9
        let d := match smFind d.fw.logical (lgBase die + p) with
          | some old => d.sendChange die old.key none false
          | none => d
        (d.putLog die p e, 0)
      | none => (d, 2)

/-- Whether an insert of a key would find room (R128, R136). -/
def Dev.roomLog (d : Dev) (die key : Nat) : Bool :=
  let ps := d.logPos die key 32768
  (d.findLog die key).isSome || (ps.any fun p => (smFind d.fw.logical (lgBase die + p)).isNone) ||
    (d.victim die ps).isSome

/-- Removes the on-die entry of a key. -/
def Dev.removeLog (d : Dev) (die key : Nat) : Dev :=
  match d.findLog die key with
  | some (p, _) => { d with fw := { d.fw with logical := smErase d.fw.logical (lgBase die + p) } }
  | none => d

/-- Raises a learning record (R132, Table 14.6 code 1): kind 0 learn, 1 move, 2 age, 3 static conflict. A record that
finds the die's queue full is counted under index 5 and lost. -/
def Dev.learnRecord (d : Dev) (die kind : Nat) (old new : Option LogEntry) (key : Nat) : Dev :=
  let t := fun (e : Option LogEntry) => match e with
    | some e => e.tkind * 1024 + e.target
    | none => 0
  let f := fun (e : Option LogEntry) => match e with
    | some e => e.dfid
    | none => 0
  let full := !d.attached && 4096 ≤ (d.ev.held.filter fun h => h.unit == die && !h.isErr).length
  if full then d.evtCnt .FWD die 5
  else d.event .FWD die 1
    (wmk [(63, 62, kind), (61, 56, key / 1048576), (55, 36, key % 1048576), (35, 24, t old), (23, 12, t new),
      (11, 11, die)])
    (wmk [(63, 40, f old), (39, 16, f new)])

/-- Whether the device learns from a frame (R129). -/
def Dev.learns (d : Dev) (port : Nat) (f : Frame) : Bool :=
  let die := laneDie port
  d.on F.FWD_PORT_CFG_learn die (port % 512) && d.on F.FWD_BLK_CFG_learn die f.block &&
    (f.ftype == 0 || (f.ftype == 1 && !f.flag 4 && !f.flag 5)) && f.srcRank != 0xFFFFF

/-- Learning from a frame at its ingress port (R129). A move rewrites the entry, so a poisoned one is poisoned no longer
(R143). (DEDUCED, log 162) -/
def Dev.learn (d : Dev) (port : Nat) (f : Frame) : Dev :=
  if d.learns port f = false then d else
  let die := laneDie port
  let key := logKey f.block f.srcRank
  let t := d.ageTick die
  let tk := d.rd F.FWD_PORT_CFG_tgt_kind die (port % 512)
  let tg := d.rd F.FWD_PORT_CFG_target die (port % 512)
  let d := d.readKey die key
  let new : LogEntry := ⟨false, 1, tk, tg, f.srcDfid, f.block, f.srcRank, t, 0⟩
  let evt := fun (d : Dev) (k : Nat) => d.evtAt .FWD die k (some port) (some f.cls) 1
  let insert := fun (old : Option LogEntry) =>
    match d.insertLog die new with
    | (_, 2) => evt d 3
    | (d, _) => ((evt d 0).learnRecord die 0 old (some new) key).sendChange die key (some new) false
  match d.findLog die key with
  | none => insert none
  | some (p, e) =>
    let moved := e.tkind != tk || e.target != tg || e.dfid != f.srcDfid
    if e.kind = 3 then insert none
    else if e.kind = 0 then
      if moved then (evt d 4).learnRecord die 3 (some e) (some new) key else d
    else if moved then
      ((evt (d.putLog die p new) 1).learnRecord die 1 (some e) (some new)
        key).sendChange die key (some new) false
    else if e.ts = t then d
    else (d.putLog die p { e with ts := t }).sendChange die key (some { e with ts := t }) true

/-- AGE_TICK (R130): the tick advances and the sweep removes aged entries. -/
def Dev.ageTickStep (d : Dev) (die : Nat) : Dev :=
  let d := d.incWrap F.FWD_AGE_CFG_tick die 0 1
  let seen := d.fw.logical.filter fun e => e.1 / 262144 == die && e.2.kind != 0 && e.2.flip != 0
  let d := d.each seen fun d e => d.readLog die (e.1 - lgBase die) e.2.key
  let mine := d.fw.logical.filter fun e => e.1 / 262144 == die && e.2.kind != 0
  let old := mine.filter fun e =>
    let lim := d.rd F.FWD_BLK_CFG_age_limit die e.2.block
    lim != 0 && lim < d.ageOf die e.2.ts
  d.each old fun d e =>
    let d := { d with fw := { d.fw with logical := smErase d.fw.logical e.1 } }
    ((d.evtCnt .FWD die 2).learnRecord die 2 (some e.2) none e.2.key).sendChange die e.2.key none false

/-- Copies a die's logical table over the other's (R131, R142). -/
def copyLog (m : SMap LogEntry) (src dst : Nat) : SMap LogEntry :=
  let mine := m.filter fun e => e.1 / 262144 == src
  mine.foldl (fun m e => smInsert m (lgBase dst + e.1 % 262144) e.2) (m.filter fun e => e.1 / 262144 != dst)

/-- Whether a die's own change of a key comes after one from the other die (R131): it is of a later tick, or of the same tick
and die 0's. -/
def OwnChange.after (own : OwnChange) (die : Nat) (c : CrossChange) : Bool :=
  c.tick < own.tick || (own.tick == c.tick && die == 0)

/-- What a die applies of a change from the other die where its own last change of the key comes after it (R131): its own
insert, move or removal stands, and its own refresh gives the changed entry its timestamp. -/
def Dev.inOrder (d : Dev) (die : Nat) (c : CrossChange) : Option CrossChange :=
  match smFind d.fw.lastChange (die * 67108864 + c.key) with
  | none => some c
  | some own =>
    if own.after die c = false then some c
    else match own.refresh with
      | none => none
      | some t => some { c with entry := c.entry.map fun e => { e with ts := t } }

/-- What a die does of a change that its own stands over. Where die 0's own of the same tick has reached die 1 already, die 0
sends its entry again, so that both dies end with it (R131); a change of an earlier tick reached the other die before it. -/
def Dev.ownStands (d : Dev) (die : Nat) (c : CrossChange) : Dev :=
  let again := (smFind d.fw.lastChange (die * 67108864 + c.key)).any fun own => own.tick == c.tick
  if !again || d.fw.cross.any fun x => x.from_ == die && x.key == c.key then d
  else d.sendChange die c.key ((d.findLog die c.key).map Prod.snd) false

/-- Copies the logical table from die 0 to die 1 (R131): what either die has sent and the other has not applied is settled
by the copy. -/
def Dev.tableCopy (d : Dev) : Dev :=
  { d with fw := { d.fw with logical := copyLog d.fw.logical 0 1, cross := [] } }

/-- What a table command of scope both does of changes that a die has sent and the other has not applied (R131, R136): the
command writes or removes the key on both dies at once, so an earlier change of that key is spent. -/
def Dev.dropChanges (d : Dev) (scope key : Nat) : Dev :=
  if scope = 0 then d else { d with fw := { d.fw with cross := d.fw.cross.filter fun c => c.key != key } }

/-- The same of a flush of scope both: an entry on its way that the flush removes arrives as the removal of the one before it. -/
def Dev.flushChanges (d : Dev) (scope : Nat) (pick : LogEntry → Bool) : Dev :=
  if scope = 0 then d
  else { d with fw := { d.fw with cross := d.fw.cross.map fun c => if c.entry.any pick then { c with entry := none } else c } }

/-- CROSS_DIE_TABLE_CHANGE (R131): die `die` applies the oldest change that the other die sent; `lost` says the change
did not arrive, which logs code 4 and copies the table from die 0 to die 1. A static entry stays and counts a conflict.
The entry is read before it is changed (R143). (DEDUCED, log 42) -/
def Dev.crossChange (d : Dev) (die : Nat) (lost : Bool) : Dev :=
  match d.fw.cross.find? fun c => c.from_ != die with
  | none => d
  | some c =>
    let d := { d with fw := { d.fw with cross := d.fw.cross.eraseP fun x => x.from_ != die } }
    if lost then
      (d.logErr .FWD die 4 (BitVec.ofNat 64 c.key)).tableCopy
    else match d.inOrder die c with
    | none => d.ownStands die c
    | some c =>
      let d := d.readKey die c.key
      let own := d.findLog die c.key
      let isStatic := match own with
        | some (_, e) => e.kind == 0
        | none => false
      if isStatic then d.evtCnt .FWD die 4
      else match c.entry with
        | none => d.removeLog die c.key
        | some e =>
          if c.refresh then match own with
            | some (p, o) => d.putLog die p { o with ts := e.ts }
            | none => d
          else (d.insertLog die e).1

/-- Whether the backing table is available (R127): the hub runs its firmware and GDDR7 is not shed. -/
def Dev.gddrUp (d : Dev) : Bool := d.hubRuns && !d.on F.SEC_STAT_recovery 0 0 && d.shed < 2

/-- Whether a position of the backing table can be read: its channel is not in self-refresh (R329). -/
def Dev.backUp (d : Dev) (pos : Nat) : Bool := d.gddrUp && !d.pw.hot.contains (Config.backChannel pos).val

/-- Whether a key can be looked up in the backing table. -/
def Dev.keyUp (d : Dev) (die key : Nat) : Bool := (d.logPos die key 2097152).all d.backUp

/-- A key of a route entry as FWD_KEY gives it (Table 5.14). -/
structure RtArg where
  len : Nat
  pfx : Nat
  deriving DecidableEq, Repr

/-- Whether a route key is well formed: length at most 24 and no bit below it (Table 5.4, status 5). -/
def rtArgOk (a : RtArg) : Bool := a.len ≤ 24 && a.pfx % 2 ^ (24 - a.len) == 0

/-- Position of a route key's entry in a bank. -/
def Dev.findRoute (d : Dev) (die bank : Nat) (a : RtArg) : Option Nat :=
  ((d.rtBuckets die a.pfx a.len).flatMap fun b => (List.range 8).map fun s => rtKey die bank b s).find? fun k =>
    match smFind d.fw.routes k with
    | some e => e.len == a.len && e.pfx == a.pfx
    | none => false

/-- A read of the buckets of a route key: whatever errors their entries hold are met (R143). -/
def Dev.readRt (d : Dev) (die bank : Nat) (a : RtArg) : Dev :=
  d.each ((d.rtBuckets die a.pfx a.len).flatMap fun b => (List.range 8).map fun s => rtKey die bank b s) fun d k =>
    d.readRoute die k a.pfx

/-- Inserts a route entry into a bank (R121): 0 done, 3 replaced, 2 full, 5 length not enabled. -/
def Dev.insertRoute (d : Dev) (die bank : Nat) (e : RouteEntry) : Dev × Nat :=
  if d.on F.FWD_RT_GEOM_enable die e.len = false then (d, 5) else
  let put := fun (k : Nat) =>
    let (d, bits, _) := d.injectHit 3 die 1
    { d with fw := { d.fw with routes := smInsert d.fw.routes k { e with flip := bits } } }
  match d.findRoute die bank ⟨e.len, e.pfx⟩ with
  | some k => (put k, 3)
  | none =>
    let ks := (d.rtBuckets die e.pfx e.len).flatMap fun b => (List.range 8).map fun s => rtKey die bank b s
    match ks.find? fun k => (smFind d.fw.routes k).isNone with
    | some k => (put k, 0)
    | none => (d, 2)

/-- FWD_RES as a table search or next shows a route entry (Table 5.14). -/
def resOfRoute (e : RouteEntry) : Word :=
  wmk [(63, 63, 1), (62, 62, b2n e.poisoned), (59, 58, e.kind), (57, 48, e.target)]

/-- FWD_RES as a table search or next shows a logical entry (Table 5.14). -/
def resOfLog (e : LogEntry) : Word :=
  wmk [(63, 63, 1), (62, 62, b2n e.poisoned), (61, 60, e.kind), (59, 58, e.tkind), (57, 48, e.target),
    (47, 24, e.dfid), (15, 0, e.ts)]

/-- The route key in FWD_KEY. -/
def Dev.rtArg (d : Dev) (die : Nat) : RtArg := ⟨d.rd F.FWD_KEY_length die 0, d.rd F.FWD_KEY_prefix die 0⟩

/-- The logical key in FWD_KEY. -/
def Dev.logArg (d : Dev) (die : Nat) : Nat := logKey (d.rd F.FWD_KEY_block die 0) (d.rd F.FWD_KEY_rank die 0)

/-- The shadow bank of a die: the one that is not active (R139, R140). (DEDUCED, log 39) -/
def Dev.shadow (d : Dev) (die : Nat) : Nat := 1 - smGet d.fw.active die 0

/-- Op 1, search (Table 5.3); a read meets the errors of what it reads (R143). A route of a length that is not enabled is not
found: status 1, as of a delete. (DESIGN CHOICE, log 186) -/
def Dev.tblSearch (d : Dev) (die tbl : Nat) : Dev × Nat :=
  if tbl ≤ 1 then
    let a := d.rtArg die
    if rtArgOk a = false then (d, 5)
    else
      let bank := if tbl = 0 then d.shadow die else 1 - d.shadow die
      let d := d.readRt die bank a
      match d.findRoute die bank a with
      | some k => match smFind d.fw.routes k with
        | some e => (d.wrw .FWD_RES die 0 (resOfRoute e), 0)
        | none => (d, 1)
      | none => (d, 1)
  else if tbl = 2 then
    let d := d.readKey die (d.logArg die)
    match d.findLog die (d.logArg die) with
    | some (_, e) => (d.wrw .FWD_RES die 0 (resOfLog e), 0)
    | none => (d, 1)
  else if d.keyUp die (d.logArg die) = false then (d, 7)
  else
    let d := d.readBackKey die (d.logArg die)
    match d.findBack die (d.logArg die) with
    | some (_, e) => ((d.wrw .FWD_RES die 0 (resOfLog e)).cnt ⟨2, 4⟩ 1, 0)
    | none => (d.cnt ⟨2, 4⟩ 1, 1)

/-- Op 2, next (Table 5.3, R137): the first valid entry at or after the cursor, read as R143 says. -/
def Dev.tblNext (d : Dev) (die tbl : Nat) : Dev × Nat :=
  let cur := d.rd F.FWD_CURSOR_pos die 0
  let logOut := fun (d : Dev) (pos : Nat) (e : LogEntry) =>
    let k := fput (fput (d.rdw .FWD_KEY die 0) 57 52 e.block) 51 32 e.rank
    ((d.wrw .FWD_KEY die 0 k).wrw .FWD_RES die 0 (resOfLog e)).wr F.FWD_CURSOR_pos die 0 (pos + 1)
  if tbl ≤ 1 then
    let bank := if tbl = 0 then d.shadow die else 1 - d.shadow die
    let base := rtKey die bank 0 0
    match d.fw.routes.find? fun e => base + cur ≤ e.1 && e.1 < base + 262144 with
    | some (k, e) =>
      let d := d.readRoute die k e.pfx
      let e := (smFind d.fw.routes k).getD e
      let kw := fput (fput (d.rdw .FWD_KEY die 0) 28 24 e.len) 23 0 e.pfx
      (((d.wrw .FWD_KEY die 0 kw).wrw .FWD_RES die 0 (resOfRoute e)).wr F.FWD_CURSOR_pos die 0 (k - base + 1), 0)
    | none => (d, 6)
  else if tbl = 2 then
    match d.fw.logical.find? fun e => lgBase die + cur ≤ e.1 && e.1 < lgBase die + 262144 with
    | some (k, e) =>
      let d := d.readLog die (k - lgBase die) e.key
      (logOut d (k - lgBase die) ((smFind d.fw.logical k).getD e), 0)
    | none => (d, 6)
  else if d.gddrUp = false then (d, 7)
  else match d.fw.backing.find? fun e => cur ≤ e.1 with
    | some (k, e) =>
      if d.backUp k = false then (d, 7) else
      let d := d.readBack die k
      ((logOut d k ((smFind d.fw.backing k).getD e)).cnt ⟨2, 4⟩ 1, 0)
    | none => (d, 6)

/-- The entry that FWD_KEY and FWD_RES describe for a logical table (Table 5.3 op 3). -/
def Dev.argEntry (d : Dev) (die kind ts : Nat) : LogEntry :=
  ⟨false, kind, d.rd F.FWD_RES_tgt_kind die 0, d.rd F.FWD_RES_target die 0, d.rd F.FWD_RES_dfid die 0,
    d.rd F.FWD_KEY_block die 0, d.rd F.FWD_KEY_rank die 0, ts, 0⟩

/-- The dies a command of scope 0 or 1 works on; what is meant for a die in reset is discarded without error (R142). -/
def Dev.scopeDies (d : Dev) (die scope : Nat) : List Nat :=
  if scope = 0 then [die] else [0, 1].filter fun x => d.dieRuns x

/-- Inserts a backing entry (R121, R124). -/
def Dev.insertBack (d : Dev) (die : Nat) (e : LogEntry) : Dev × Nat :=
  let put := fun (p : Nat) =>
    let (d, bits, _) := d.injectHit 8 0 2
    { d with fw := { d.fw with backing := smInsert d.fw.backing p { e with flip := bits },
                               written := d.fw.written.filter (· != p) ++ [p] } }.cnt ⟨2, 4⟩ 2
  match d.findBack die e.key with
  | some (p, _) => (put p, 3)
  | none => match (d.logPos die e.key 2097152).find? fun p => (smFind d.fw.backing p).isNone with
    | some p => (put p, 0)
    | none => (d, 2)

/-- Op 3, insert (Table 5.3, R136): with scope both, neither die changes when either would return full or invalid. The buckets
are read first (R143); an entry takes the current tick as its timestamp (Table 5.14). FWD_RES valid takes no part: what is
inserted exists. (DEDUCED, log 163) -/
def Dev.tblInsert (d : Dev) (die tbl scope : Nat) : Dev × Nat :=
  let tk := d.rd F.FWD_RES_tgt_kind die 0
  if tbl = 0 then
    let a := d.rtArg die
    let e : RouteEntry := ⟨false, a.len, a.pfx, tk, d.rd F.FWD_RES_target die 0, 0⟩
    if rtArgOk a = false || tk = 0 then (d, 5)
    else
      let d := d.each (d.scopeDies die scope) fun d x => d.readRt x (d.shadow x) a
      let sts := (d.scopeDies die scope).map fun x => (d.insertRoute x (d.shadow x) e).2
      match sts.find? fun s => s == 2 || s == 5 with
      | some s => (d, s)
      | none => (d.each (d.scopeDies die scope) fun d x => (d.insertRoute x (d.shadow x) e).1, sts.headD 0)
  else if tbl = 2 then
    let kind := d.rd F.FWD_RES_kind die 0
    if !(kind = 0 || kind = 2) || !(tk = 1 || tk = 2) then (d, 5)
    else
      let d := d.each (d.scopeDies die scope) fun d x => d.readKey x (d.logArg die)
      if (d.scopeDies die scope).any fun x => !d.roomLog x (d.logArg die) then (d, 2)
      else
        let sts := (d.scopeDies die scope).map fun x => (d.insertLog x (d.argEntry die kind (d.ageTick x))).2
        let d := d.dropChanges scope (d.logArg die)
        (d.each (d.scopeDies die scope) fun d x => (d.insertLog x (d.argEntry die kind (d.ageTick x))).1, sts.headD 0)
  else if tbl = 3 then
    if !(tk = 1 || tk = 2) then (d, 5)
    else if d.keyUp die (d.logArg die) = false then (d, 7)
    else (d.readBackKey die (d.logArg die)).insertBack die (d.argEntry die 0 (d.ageTick die))
  else (d, 5)

/-- Op 4, delete (Table 5.3): the buckets are read first (R143). -/
def Dev.tblDelete (d : Dev) (die tbl scope : Nat) : Dev × Nat :=
  if tbl = 0 then
    let a := d.rtArg die
    if rtArgOk a = false then (d, 5)
    else
      let d := d.each (d.scopeDies die scope) fun d x => d.readRt x (d.shadow x) a
      let first := (d.scopeDies die scope).headD die
      let st := if (d.findRoute first (d.shadow first) a).isSome then 0 else 1
      (d.each (d.scopeDies die scope) fun d x => match d.findRoute x (d.shadow x) a with
        | some k => { d with fw := { d.fw with routes := smErase d.fw.routes k } }
        | none => d, st)
  else if tbl = 2 then
    let first := (d.scopeDies die scope).headD die
    let d := d.each (d.scopeDies die scope) fun d x => d.readKey x (d.logArg die)
    let st := if (d.findLog first (d.logArg die)).isSome then 0 else 1
    let d := d.dropChanges scope (d.logArg die)
    (d.each (d.scopeDies die scope) fun d x => d.removeLog x (d.logArg die), st)
  else if tbl = 3 then
    if d.keyUp die (d.logArg die) = false then (d, 7)
    else
      let d := d.readBackKey die (d.logArg die)
      match d.findBack die (d.logArg die) with
      | some (p, _) => ({ d with fw := { d.fw with
          backing := smErase d.fw.backing p, written := d.fw.written.filter (· != p) } }, 0)
      | none => (d, 1)
  else (d, 5)

/-- Removes the on-die entries of some dies that a test picks, having read every entry of those dies (R143); the count is the
first die's. -/
def Dev.flushLog (d : Dev) (dies : List Nat) (pick : LogEntry → Bool) : Dev × Nat :=
  let seen := d.fw.logical.filter fun e => dies.contains (e.1 / 262144) && e.2.flip != 0
  let d := d.each seen fun d e => d.readLog (e.1 / 262144) (e.1 % 262144) e.2.key
  let n := (d.fw.logical.filter fun e => e.1 / 262144 == dies.headD 0 && pick e.2).length
  ({ d with fw := { d.fw with logical := d.fw.logical.filter fun e => !(dies.contains (e.1 / 262144) && pick e.2) } }, n)

/-- Ops 5 and 6, flush by port and by block (Table 5.3): status and count of removed entries. -/
def Dev.tblFlush (d : Dev) (die tbl scope op : Nat) : Dev × Nat × Nat :=
  let withStatic := d.on F.FWD_KEY_static die 0
  let fk := d.rd F.FWD_KEY_flush_kind die 0
  let tgt := d.rd F.FWD_KEY_prefix die 0 % 1024
  let blk := d.rd F.FWD_KEY_block die 0
  if op = 5 then
    if tbl ≠ 2 || fk = 0 || fk = 3 then (d, 5, 0)
    else
      let pick := fun (e : LogEntry) => e.tkind == fk && e.target == tgt && (withStatic || e.kind != 0)
      let (d, n) := (d.flushChanges scope pick).flushLog (d.scopeDies die scope) pick
      (d, 0, n)
  else if tbl = 2 then
    let pick := fun (e : LogEntry) => e.block == blk && (withStatic || e.kind != 0)
    let (d, n) := (d.flushChanges scope pick).flushLog (d.scopeDies die scope) pick
    (d, 0, n)
  else if tbl = 3 then
    if d.gddrUp = false || !d.pw.hot.isEmpty then (d, 7, 0)
    else
      let d := d.each (d.fw.backing.filter fun e => e.2.flip != 0) fun d e => d.readBack die e.1
      let gone := (d.fw.backing.filter fun e => e.2.block == blk).map Prod.fst
      ({ d with fw := { d.fw with
          backing := d.fw.backing.filter fun e => e.2.block != blk, written := d.fw.written.filter fun p => !gone.contains p } }, 0,
        gone.length)
  else (d, 5, 0)

/-- Starts the operation written to FWD_CMD (R135 to R137, R140): the table changes now, the status shows at
completion. With scope both on an on-die table, a busy peer refuses it. A swap requested while one waits for its tick is
refused busy, as one that is draining. (DESIGN CHOICE, log 187) -/
def Dev.tblStart (d : Dev) (die op : Nat) : Dev :=
  let tbl := d.rd F.FWD_CMD_table die 0
  let scope := if tbl = 3 && op ≠ 7 then 0 else d.rd F.FWD_CMD_scope die 0
  let peerBusy := scope = 1 && d.on F.FWD_CMD_busy (1 - die) 0
  let (d, st, n) : Dev × Nat × Nat :=
    if peerBusy && 3 ≤ op then (d, 4, 0)
    else match op with
    | 1 => let r := d.tblSearch die tbl; (r.1, r.2, 0)
    | 2 => let r := d.tblNext die tbl; (r.1, r.2, 0)
    | 3 => let r := d.tblInsert die tbl scope; (r.1, r.2, 0)
    | 4 => let r := d.tblDelete die tbl scope; (r.1, r.2, 0)
    | 5 => d.tblFlush die tbl scope 5
    | 6 => d.tblFlush die tbl scope 6
    | _ =>
      if (d.scopeDies die scope).any fun x => d.on F.FWD_EPOCH_draining x 0 || smGet d.fw.swapPend x false then (d, 4, 0)
      else ({ d with fw := { d.fw with
        swapPend := (d.scopeDies die scope).foldl (fun m x => smInsert m x true) d.fw.swapPend } }, 0, 0)
  let d := d.wr F.FWD_CMD_busy die 0 1
  { d with fw := { d.fw with cmd := smInsert d.fw.cmd die ⟨st, if op = 5 || op = 6 then n
    else d.rd F.FWD_CMD_count die 0⟩ } }

/-- TABLE_COMMAND_DONE (R136): the command of a die completes and FWD_CMD shows its status and count. While the hub is in
reset the command waits (R142). -/
def Dev.tblDone (d : Dev) (die : Nat) : Dev :=
  match (if d.hubRuns then smFind d.fw.cmd die else none) with
  | none => d
  | some r =>
    let d := { d with fw := { d.fw with cmd := smErase d.fw.cmd die } }
    ((d.wr F.FWD_CMD_busy die 0 0).wr F.FWD_CMD_status die 0 r.status).wr F.FWD_CMD_count die 0 r.count

/-- The swap of one die (R140): the shadow bank becomes active, E inverts, the old bank drains. -/
def Dev.swapDie (d : Dev) (die : Nat) : Dev :=
  let a := smGet d.fw.active die 0
  let d := { d with fw := { d.fw with active := smInsert d.fw.active die (1 - a),
                                      swapPend := smErase d.fw.swapPend die,
                                      drainStart := smInsert d.fw.drainStart die d.tick } }
  ((d.wr F.FWD_EPOCH_epoch die 0 (1 - d.rd F.FWD_EPOCH_epoch die 0)).wr F.FWD_EPOCH_draining die 0 1).wr
    F.FWD_EPOCH_remain die 0 (d.rd F.FWD_EPOCH_drain die 0)

/-- BANK_SWAP_APPLY (R140): at the tick that both dies see, every die with a requested swap swaps, unless the
hub is in reset (R142). -/
def Dev.swapApply (d : Dev) : Dev :=
  if !d.hubRuns then d else d.each [0, 1] fun d x => if smGet d.fw.swapPend x false then d.swapDie x else d

/-- DRAIN_TIMER_EXPIRY (R140): the draining bank of a die becomes its shadow bank. -/
def Dev.drainExpiry (d : Dev) (die : Nat) : Dev :=
  (d.wr F.FWD_EPOCH_draining die 0 0).wr F.FWD_EPOCH_remain die 0 0

/-- FILTER_REBUILD_DONE (R143): the length filter of a bank is rebuilt. -/
def Dev.filterRebuilt (d : Dev) (die bank : Nat) : Dev :=
  { d with fw := { d.fw with rebuild := smErase d.fw.rebuild (die * 2 + bank) } }

/-- Whether a frame's source is fenced on a die (R133). -/
def Dev.fenced (d : Dev) (die : Nat) (f : Frame) : Bool :=
  let kind := f.ftype == 0 || (f.ftype == 1 && !f.flag 5) || (f.ftype == 3 && !f.flag 2) || f.ftype == 6
  kind && (List.range 256).any fun i =>
    let w := d.rdw .FWD_FENCE die i
    wbit w 63 && fget w 25 20 == f.block && fget w 19 0 == f.srcRank

end Sys2Proof.Machine
end

