-- ==== Sys2Proof/Machine/Inputs.lean ====
section
/-! DEFINITION. The typed operands of commands that carry more than numbers: what a read of a memory finds, what a
measurement shows, what arrives from outside. -/

namespace Sys2Proof.Machine

/-- A fault that a use of a chunk's accumulators meets (R164, R165, R186). The residues decide whether the cell notices a wrong
limb. (DESIGN CHOICE, log 59) -/
inductive RedFault where
  /-- A limb of an element's accumulator reads with the bits of `mask` inverted; a 4-byte accumulator with those of its low half. -/
  | limb (elem : Fin 8192) (limb : Fin 10) (mask : Word)
  /-- The adder delivers a limb of an element's new accumulator with the bits of `mask` inverted. -/
  | adder (elem : Fin 8192) (limb : Fin 10) (mask : Word)
  /-- A corrected SRAM error in a cell. -/
  | corrected (cell : Fin 32)
  /-- An uncorrectable SRAM error in a cell. -/
  | sram (cell : Fin 32)
  deriving DecidableEq, Repr

/-- An error that stands in a stored word when a command reads it: `bad` marks an uncorrectable one. -/
inductive MemFault where
  /-- A filter count of a route bank (R143). -/
  | filter (bank : Fin 2) (bad : Bool)
  /-- A route entry, by bank and position (R143). -/
  | route (bank : Fin 2) (pos : Fin 262144) (bad : Bool)
  /-- An on-die logical entry, by position (R143). -/
  | logical (pos : Fin 262144) (bad : Bool)
  /-- A descriptor of a home die (SYNC code 1). -/
  | descriptor (die : Fin 2) (desc : Fin 32768) (bad : Bool)
  /-- A chunk record of a home die, by its key (SYNC code 2). -/
  | chunk (die : Fin 2) (desc : Fin 32768) (chunk : Fin 65536) (step : Fin 16384) (bad : Bool)
  /-- A barrier counter (SYNC code 6). -/
  | barrier (barrier : Fin 8192)
  /-- The state of a meter of the ingress die (TM code 3, Table 4.7). -/
  | meter (meter : Fin 4096)
  deriving DecidableEq, Repr

/-- An entry of a sampling ring (R116). -/
structure RingEntry where
  port : Fin 1024
  cls : Fin 8
  entry : Fin 64
  deriving DecidableEq, Repr

/-- What the reads of a departing frame's cells find: corrected words, or an uncorrectable one (R69). -/
inductive CellFault where
  | none
  | corrected (words : Fin 1024)
  | bad
  deriving DecidableEq, Repr

/-- What a fetch from GDDR7 returns: good, corrected or uncorrectable (R126, R143, R182). -/
inductive FetchFault where
  | none | corrected | bad
  deriving DecidableEq, Repr

/-- How the bytes of a flash slot read at a start: at each of these offsets, the bits that read wrong.
(DESIGN CHOICE, log 20) -/
structure SlotRead where
  errors : List (Nat × Byte)
  deriving DecidableEq, Repr

/-- The strap word that comes over the management path of a die, by HUB_STRAP index (R295). -/
structure StrapReport where
  die : Fin 23
  word : BitVec 16
  deriving DecidableEq, Repr

/-- The wires beyond the fuse record that show an error as a bundle trains, by receiving die; bundle 16 is the control
bundle (R299). -/
structure WireFault where
  die : Fin 2
  bundle : Fin 17
  wires : List (Fin 264)
  deriving DecidableEq, Repr

/-- An input of a quad whose circuit record disagrees with its bias cells (R258). -/
structure BadRecord where
  quad : Fin 4
  input : Fin 32
  deriving DecidableEq, Repr

/-- What a start of the package meets (Table 12.2): strap words, wires, how the firmware and image slots read, circuit
records that disagree. -/
structure BootIn where
  straps : List StrapReport
  wires : List WireFault
  fw0 : SlotRead
  fw1 : SlotRead
  img0 : SlotRead
  img1 : SlotRead
  records : List BadRecord
  deriving DecidableEq, Repr

end Sys2Proof.Machine
end

