-- ==== Sys2Proof/Machine/Tm.lean ====
section
/-! DEFINITION. The traffic manager's operations (04_traffic_management): meters (R99 to R101), RED (R102), ECN marking
(R103), the egress scheduler (R110), shapers (R111, R112), acceptance of waiting heads (R113), sampling (R116) and the
saturation watch (R117). -/

namespace Sys2Proof.Machine

/-- Tokens that a rate of `r` Mb/s adds in `dt` ticks, in bytes times 2^24, truncated once: 0.0008 B per tick and
Mb/s (R100). -/
def tokensFor (r dt : Nat) : Nat := r * dt * 8 * 2 ^ 24 / 10000

/-- Bytes as tokens. -/
def tok (b : Nat) : Nat := b * 2 ^ 24

/-- One frame through a meter (R100): the colour (0 green, 1 yellow, 2 red) and the meter after it. -/
def meterFrame (mode cir xir cbs xbs pc len now : Nat) (m : Meter) : Nat × Meter :=
  let dt := now - m.last
  let add := tokensFor cir dt
  let l := tok len
  if mode = 1 then
    let spill := m.tc + add - tok cbs
    let tc := Nat.min (tok cbs) (m.tc + add)
    let te := Nat.min (tok xbs) (m.te + spill)
    if pc = 0 && l ≤ tc then (0, ⟨tc - l, te, now⟩)
    else if pc ≠ 2 && l ≤ te then (1, ⟨tc, te - l, now⟩)
    else (2, ⟨tc, te, now⟩)
  else
    let tp := Nat.min (tok xbs) (m.te + tokensFor xir dt)
    let tc := Nat.min (tok cbs) (m.tc + add)
    if pc = 2 || tp < l then (2, ⟨tc, tp, now⟩)
    else if pc = 1 || tc < l then (1, ⟨tc, tp - l, now⟩)
    else (0, ⟨tc - l, tp - l, now⟩)

/-- The state of a meter whose buckets are full (R100). -/
def fullMeter (cbs xbs now : Nat) : Meter := ⟨tok cbs, tok xbs, now⟩

/-- The meter of an ingress port and class, if one applies (R99): mapped, valid and not disabled. -/
def Dev.meterOf (d : Dev) (port cls : Nat) : Option Nat :=
  let die := laneDie port
  let k := pcKey (port % 512) cls
  let m := d.rd F.TM_MAP_DATA_meter die k
  if cls < 7 && d.on F.TM_MAP_DATA_valid die k && d.rd F.TM_MTR_CFG_mode die m ≠ 0 then some m else none

/-- A frame with W0 colour replaced. -/
def Frame.setColour (f : Frame) (c : Nat) : Frame := { f with w0 := fput f.w0 52 51 c }

/-- Meters a frame at its ingress port (R99 to R101, R64): none when the meter drops it. Colour 11 leaves as 10 where
no meter applies. Only data, contributions and results are coloured (Table 2.9). -/
def Dev.meter (d : Dev) (port : Nat) (f : Frame) : Dev × Option Frame :=
  let die := laneDie port
  match d.meterOf port f.cls with
  | none => (d, some (if f.colour = 3 && f.ftype ≤ 2 then Frame.setColour f 2 else f))
  | some m =>
    let pc := if d.on F.TM_MTR_CFG_aware die m then Nat.min 2 f.colour else 0
    let cbs := d.rd F.TM_MTR_BURST_cbs die m
    let xbs := d.rd F.TM_MTR_BURST_xbs die m
    let (c, st) := meterFrame (d.rd F.TM_MTR_CFG_mode die m) (d.rd F.TM_MTR_CFG_cir die m) (d.rd F.TM_MTR_CFG_xir die m)
      cbs xbs pc f.len d.tick (smGet d.tm.meters (die * 4096 + m) (fullMeter cbs xbs d.tick))
    let d := { d with tm := { d.tm with meters := smInsert d.tm.meters (die * 4096 + m) st } }
    let d := d.cntPC ⟨die, 2⟩ (3 + c) (some port) (some f.cls) 1
    let f' := if f.ftype ≤ 2 then Frame.setColour f c else f
    if c = 2 && d.on F.TM_MTR_CFG_drop_red die m && !d.lossless die (requester (.port port) f.cls) f.cls then
      (d.dropCnt .TM die 0 (some port) (some f.cls), none)
    else (d, some f')

/-- The RED average after a frame (R102): cells with 16 fraction bits, the signed difference divided by 2^weight and
truncated toward zero. -/
def redAverage (avg depth weight : Nat) : Nat :=
  let dp := depth * 65536
  if avg ≤ dp then avg + (dp - avg) / 2 ^ weight else avg - (avg - dp) / 2 ^ weight

/-- Random early detection of a lossy frame toward a queue group (R102): the device after it and whether the frame is
kept. -/
def Dev.red (d : Dev) (die port : Nat) (f : Frame) (from_ : Option Nat) : Dev × Bool :=
  let pd := laneDie port
  let k := pcKey (port % 512) f.cls
  if d.rd F.TM_Q_CFG_red_en pd k = 0 then (d, true) else
  let avg := redAverage (smGet d.tm.redAvg (qgKey die port f.cls) 0) (d.depth die port f.cls)
    (d.rd F.TM_Q_CFG_weight pd k)
  let d := { d with tm := { d.tm with redAvg := smInsert d.tm.redAvg (qgKey die port f.cls) avg } }
  let c := Nat.min 2 f.colour
  let prof := 4 * d.rd F.TM_Q_CFG_red_set pd k + c
  let mn := d.rd F.TM_RED_PROF_min pd prof * 65536
  let mx := d.rd F.TM_RED_PROF_max pd prof * 65536
  if avg < mn then (d, true)
  else if mx ≤ avg then (d.dropCnt .TM die (1 + c) from_ (some f.cls), false)
  else
    let prob := d.rd F.TM_RED_PROF_maxp pd prof * 256 * (avg - mn) / (mx - mn)
    let seed : BitVec 32 := BitVec.ofNat 32 (d.rd F.TM_RED_SEED_seed die 0)
    let cur := if smGet d.tm.lfsrLoaded die false then smGet d.tm.lfsr die seed else seed
    let nxt := Config.redLfsrNext cur
    let d := { d with tm := { d.tm with lfsr := smInsert d.tm.lfsr die nxt,
                                        lfsrLoaded := smInsert d.tm.lfsrLoaded die true } }
    if (Config.redLfsr16 nxt).toNat < prob then (d.dropCnt .TM die (1 + c) from_ (some f.cls), false)
    else (d, true)

/-- ECN marking at the head of a VOQ (R103). -/
def Dev.ecnMark (d : Dev) (port : Nat) (f : Frame) : Dev × Frame :=
  let e := laneDie port
  let thr := d.rd F.TM_Q_CFG_ecn_thr e (pcKey (port % 512) f.cls)
  if f.ftype ≤ 2 && f.ecn = 1 && thr ≠ 0 && f.cls < 7 && thr ≤ d.depth e port f.cls then
    (d.inc F.TM_ECN_CNT_frames e 0 1, { f with w0 := fput f.w0 50 49 3 })
  else (d, f)

/-- The heads of the VOQs toward a destination, in arrival order. -/
def headsOf (q : List Desc) (t : Dest) : List Desc :=
  let mine := q.filter fun x => x.dest == t
  mine.filter fun x => match mine.find? fun y => y.voq == x.voq with
    | some y => y.id == x.id
    | none => false

/-- Whether the port holds the credits that a frame of a credited class needs (R105, R106). -/
def Dev.hasCredit (d : Dev) (port : Nat) (x : Desc) : Bool :=
  smGet d.ln.partnerAdv (pcKey port x.cls) 0 = 0 ||
    creditsFor x.frame.len ≤ d.rd F.TM_CRD_STAT_held (laneDie port) (pcKey (port % 512) x.cls)

/-- Earlier in acceptance order; ties by the order of R110. -/
def stampBefore (x y : Desc) : Bool :=
  match x.stamp, y.stamp with
  | some a, some b => a < b || (a = b && x.origin.rank < y.origin.rank)
  | _, _ => false

/-- The earliest accepted of some heads. Two heads of one origin in different classes with one stamp go in arrival order.
(DEDUCED, log 160) -/
def earliest : List Desc → Option Desc
  | [] => none
  | x :: xs => match earliest xs with
    | none => some x
    | some y => some (if stampBefore y x then y else x)

/-- Content of a port's class 7 reserve bucket, full at 4,132 B (R110). -/
def Dev.reserveOf (d : Dev) (port : Nat) : Nat := smGet d.tm.reserve port 4132

/-- Key of a shaper: 0-4 class shapers, 5 the aggregate (Table 4.12). -/
def shpKey (port s : Nat) : Nat := port * 8 + s

/-- A shaper before any write: disabled. -/
def Shaper.off : Shaper := ⟨false, 0, 4132, 0⟩

/-- Whether a shaper lets a bulk frame start (R111). (DEDUCED, log 37) -/
def Dev.shaperOk (d : Dev) (port s : Nat) : Bool :=
  let h := smGet d.tm.shapers (shpKey port s) Shaper.off
  !h.enable || decide (0 ≤ h.tokens)

/-- Takes a frame's length from a shaper (R111). -/
def Dev.shaperTake (d : Dev) (port s len : Nat) : Dev :=
  let h := smGet d.tm.shapers (shpKey port s) Shaper.off
  if h.enable then
    { d with tm := { d.tm with shapers := smInsert d.tm.shapers (shpKey port s) { h with tokens := h.tokens - len } } }
  else d

/-- Whether bulk classes are capped under R331: shedding step 4 or beyond, a throttled die or engine, or a die without
speed margin; the cap of a port is the deepest that applies to it. -/
def Dev.bulkCapped (d : Dev) (port : Nat) : Bool := (smFind d.tm.bulkTokens port).isSome

/-- Whether the bulk cap of a port, if one applies, lets a bulk frame start (R331). -/
def Dev.bulkCapOk (d : Dev) (port : Nat) : Bool :=
  match smFind d.tm.bulkTokens port with
  | some t => decide (0 ≤ t)
  | none => true

/-- Among heads of one class, the next in the round robin by origin (R110 step 3, R147): the lowest rank above the
last served, else the lowest. -/
def rrNext (last : Nat) (hs : List Desc) : Option Desc :=
  let better := fun (acc : Option Desc) (x : Desc) => match acc with
    | none => some x
    | some y => some (if x.origin.rank < y.origin.rank then x else y)
  match (hs.filter fun x => last < x.origin.rank + 1).foldl better none with
  | some x => some x
  | none => hs.foldl better none

/-- The quanta that TM_SCH_CFG holds for a port. -/
def Dev.schCfg (d : Dev) (port : Nat) : Nat := (d.rdw .TM_SCH_CFG (laneDie port) (port % 512)).toNat

/-- Quantum of a bulk class in bytes, of the five quanta of TM_SCH_CFG. -/
def quantum (quanta cls : Nat) : Nat := 256 * (quanta / 2 ^ (8 * cls) % 256)

/-- What the deficit round robin chose: the frame, its class, the deficits and the quanta of the present round. -/
structure DrrPick where
  desc : Desc
  cls : Nat
  deficit : SMap Int
  quanta : Nat

/-- Deficit round robin over classes 0 to 4 (R110 step 3): from the class served last, a class whose next frame fits
its deficit is served; else the next class with an eligible frame gains its quantum. A class without a head loses its
deficit; one whose heads wait for credits, a shaper or the cap keeps it. A round begins at class 0, with the quanta that
TM_SCH_CFG then holds. (DEDUCED, log 26) -/
def drr (port cfg : Nat) (pick : Nat → Option Desc) (waits : Nat → Bool) : Nat → Nat → Nat → SMap Int → Option DrrPick
  | 0, _, _, _ => none
  | fuel + 1, c, q, df =>
    let fits := match pick c with
      | some x => if (x.frame.len : Int) ≤ smGet df (pcKey port c) 0 then some x else none
      | none => none
    match fits with
    | some x => some ⟨x, c, smInsert df (pcKey port c) (smGet df (pcKey port c) 0 - x.frame.len), q⟩
    | none =>
      let c' := (c + 1) % 5
      let df := if waits c = false then smErase df (pcKey port c) else df
      let q := if c' = 0 then cfg else q
      let df := if (pick c').isSome then
          smInsert df (pcKey port c') (smGet df (pcKey port c') 0 + quantum q c') else df
      drr port cfg pick waits fuel c' q df

/-- What the scheduler chose and by which step of R110. -/
structure Picked where
  desc : Desc
  step : Nat
  cls : Nat
  deficit : SMap Int
  quanta : SMap Nat

/-- The egress scheduler's choice at a frame boundary of a port (R110). -/
def Dev.schedule (d : Dev) (port : Nat) : Option Picked :=
  let all := headsOf d.sw.queue (.port port)
  let heads := all.filter fun x => d.hasCredit port x
  let c7 := heads.filter fun x => x.cls == 7 && x.stamp.isSome
  let step1 := match earliest c7 with
    | some x => if x.frame.len ≤ d.reserveOf port then some x else none
    | none => none
  match step1 with
  | some x => some ⟨x, 1, 7, d.tm.deficit, d.tm.quanta⟩
  | none => match earliest (heads.filter fun x => 5 ≤ x.cls && x.stamp.isSome) with
    | some x => some ⟨x, 2, x.cls, d.tm.deficit, d.tm.quanta⟩
    | none =>
      let pick := fun c =>
        if d.shaperOk port c && d.shaperOk port 5 && d.bulkCapOk port then
          rrNext (smGet d.tm.drrVoq (pcKey port c) 0) (heads.filter fun x => x.cls == c)
        else none
      let cfg := d.schCfg port
      (drr port cfg pick (fun c => all.any fun x => x.cls == c) 200 (smGet d.tm.drrClass port 4)
        (smGet d.tm.quanta port cfg) d.tm.deficit).map fun r => ⟨r.desc, 3, r.cls, r.deficit, smInsert d.tm.quanta port r.quanta⟩

/-- EGRESS_SELECT (R110, R103, R106, R111, R24): at a frame boundary of port `port`, the scheduler picks the next
frame, which is marked, charged and put in transmission. Nothing is picked in hold (R327), on a link that is not up,
or while a frame is in transmission. -/
def Dev.egressSelect (d : Dev) (port : Nat) : Dev :=
  let e := laneDie port
  if !d.isPort port || d.portState port != 2 || (smFind d.sw.tx port).isSome || 5 ≤ d.shed || !d.dieRuns e then d
  else match d.schedule port with
  | none => d
  | some pk =>
    let x := pk.desc
    let len := x.frame.len
    let (d, f) := d.ecnMark port x.frame
    let k := pcKey (port % 512) x.cls
    let d := if smGet d.ln.partnerAdv (pcKey port x.cls) 0 = 0 then d
      else d.dec F.TM_CRD_STAT_held e k (creditsFor len)
    let d := if pk.step = 1 then
        { d with tm := { d.tm with reserve := smInsert d.tm.reserve port (d.reserveOf port - len) } }
      else if pk.step = 2 then d
      else
        let d := { d with tm := { d.tm with
          deficit := pk.deficit, quanta := pk.quanta, drrClass := smInsert d.tm.drrClass port pk.cls,
          drrVoq := smInsert d.tm.drrVoq (pcKey port pk.cls) (x.origin.rank + 1),
          bulkTokens := match smFind d.tm.bulkTokens port with
            | some t => smInsert d.tm.bulkTokens port (t - len)
            | none => d.tm.bulkTokens } }
        (d.shaperTake port pk.cls len).shaperTake port 5 len
    { d with sw := { d.sw with queue := d.sw.queue.eraseP (fun y => y.id == x.id && y.dest == x.dest),
                               tx := smInsert d.sw.tx port ⟨{ x with frame := f }, 0, false⟩ } }

/-- Cells of the staging window that a frame of a class may fill at a port (R82): 24 per lane, and 4 more for class 7. -/
def Dev.stageWindow (d : Dev) (port cls : Nat) : Nat := 24 * d.portWidth port + (if cls = 7 then 4 else 0)

/-- STAGING_CELL_ARRIVAL (R82, R83): the next cell of the frame that a port pulls from the other die enters staging
and is acknowledged; none comes while the dies do not reach each other. A cell for which the port's window has no room is an overrun and does not enter. -/
def Dev.stagingArrival (d : Dev) (port : Nat) : Dev :=
  let e := laneDie port
  match smFind d.sw.tx port with
  | none => d
  | some t =>
    if t.desc.die = e || !d.peerOk then d
    else match t.desc.cells[t.staged]? with
    | none => d
    | some c =>
      if d.stageWindow port t.desc.cls ≤ t.staged then
        d.logErr .SWC e 7 (swcDetail (errReq t.desc.origin t.desc.cls) (cellNo c))
      else
      let d := d.commitRead t.desc c
      let n := d.rd F.SWC_STAGE_STAT_in_use e 0 + 1
      let d := (d.wr F.SWC_STAGE_STAT_in_use e 0 n).peak F.SWC_STAGE_STAT_peak e 0 n
      let d := (d.cntPC ⟨e, 1⟩ 5 (some port) (some t.desc.cls) 1).cntPC ⟨e, 6⟩ 3 (some port) (some t.desc.cls) 1
      { d with sw := { d.sw with
        tx := smInsert d.sw.tx port { t with staged := t.staged + 1 },
        acks := if t.desc.mrec.isSome then d.sw.acks
          else d.sw.acks ++ [⟨t.desc.die, t.desc.id, t.desc.frame.block, c, some port, t.desc.cls⟩] } }

/-- PULL_ACKNOWLEDGE (R24, R73): the oldest acknowledgement for cells of a die arrives, and the die frees the cell. -/
def Dev.pullAck (d : Dev) (die : Nat) : Dev :=
  match d.sw.acks.find? fun a => a.die == die with
  | none => d
  | some a =>
    let d := { d with sw := { d.sw with acks := d.sw.acks.eraseP fun b => b.die == die } }
    (d.unrefCell a.cell a.port (some a.cls)).satSweep

/-- A frame as it leaves: hop limit one lower (R64, R65). -/
def Frame.departed (f : Frame) : Frame := { f with w2 := fput f.w2 15 8 (f.hop - 1) }

/-- The head of each VOQ of a die toward a port that waits for its acceptance: its first frame without a stamp. -/
def Dev.waitHeads (d : Dev) (die port : Nat) : List Desc :=
  let wait := d.sw.queue.filter fun x => x.dest == .port port && x.die == die && 5 ≤ x.cls && x.stamp.isNone
  wait.filter fun x => match wait.find? fun y => y.voq == x.voq with
    | some y => y.id == x.id
    | none => false

/-- A list with its first element that passes replaced. -/
def replaceFirst (p : Desc → Bool) (x : Desc) : List Desc → List Desc
  | [] => []
  | y :: ys => if p y then x :: ys else y :: replaceFirst p x ys

/-- Accepts one waiting head of class 5 to 7 of a die toward a port, the first that the share allows in arrival order
(R113). (DESIGN CHOICE, log 27) -/
def Dev.acceptHead (d : Dev) (die port : Nat) : Dev :=
  match (d.waitHeads die port).findSome? fun x => d.tryAccept x with
  | none => d
  | some (d', x) =>
    let q := replaceFirst (fun y => y.id == x.id && y.dest == x.dest && y.stamp.isNone) x d'.sw.queue
    { d' with sw := { d'.sw with queue := q } }

/-- RESERVE_BUCKET_REFILL (R110): every 256 ns a port's reserve bucket gains 128 B per lane, up to 4,132 B. -/
def Dev.reserveRefill (d : Dev) (port : Nat) : Dev :=
  if d.isPort port then
    { d with tm := { d.tm with
      reserve := smInsert d.tm.reserve port (Nat.min 4132 (d.reserveOf port + 128 * d.portWidth port)) } }
  else d

/-- One shaper at a refill boundary (R111, R112): a pending write loads rate and depth and clamps the tokens before
the refill; enabling sets the tokens to the depth with no refill beyond it. -/
def Dev.refillShaper (d : Dev) (port s : Nat) : Dev :=
  let e := laneDie port
  let k := shpKey port s
  let h := smGet d.tm.shapers k Shaper.off
  let i := shpKey (port % 512) s
  let h := if d.tm.shaperDirty.contains k then
      let en := d.on F.TM_SHP_CFG_enable e i
      let depth := d.rd F.TM_SHP_CFG_depth e i
      ⟨en, d.rd F.TM_SHP_CFG_rate e i, depth, if en && !h.enable then depth else min h.tokens depth⟩
    else h
  let h := if h.enable then { h with tokens := min (h.depth : Int) (h.tokens + h.rate) } else h
  { d with tm := { d.tm with shapers := smInsert d.tm.shapers k h,
                             shaperDirty := d.tm.shaperDirty.filter (· != k) } }

/-- SHAPER_REFILL (R111, R112): the refill boundary of every shaper of a core die's ports, every 256 ns. -/
def Dev.shaperRefill (d : Dev) (die : Nat) : Dev :=
  let ks := ((d.tm.shapers.map Prod.fst ++ d.tm.shaperDirty).eraseDups).filter fun k => laneDie (k / 8) == die
  d.each ks fun d k => d.refillShaper (k / 8) (k % 8)

/-- A die's copy of the peer die's queue depths as a refresh leaves it: what the peer holds, for every queue group with frames. -/
def Dev.peerView (d : Dev) (die : Nat) : SMap Nat :=
  let qs := ((d.sw.queue.filterMap fun x => x.dest.port?.map fun p => (p, x.cls)) ++
    d.sw.tx.map (fun t => (t.1, t.2.desc.cls)) ++
    d.sw.acks.filterMap fun a => a.port.map fun p => (p, a.cls)).eraseDups
  qs.foldl (fun m pc => smSet m (qgKey die pc.1 pc.2) (d.ownDepth (1 - die) pc.1 pc.2) 0)
    (d.tm.peerDepth.filter fun e => e.1 / 8192 != die)

/-- PEER_DEPTH_REFRESH (R102): every 32 ns the rhizoid control channel brings a die the peer's counts. -/
def Dev.peerDepthRefresh (d : Dev) (die : Nat) : Dev :=
  ({ d with tm := { d.tm with peerDepth := d.peerView die } } : Dev).satSweep

/-- Head-of-queue delay of a queue group: the age of its oldest frame in units of 16 ns (2.5 ticks), saturating at
8,191 (R116). The age of an accepted frame counts from its acceptance, that of any other from its enqueueing.
(DEDUCED, log 161) -/
def Dev.headDelay (d : Dev) (port cls : Nat) : Nat :=
  let q := d.sw.queue.filter fun x => x.dest == .port port && x.cls == cls
  let t := q.foldl (fun m x => Nat.min m (x.stamp.getD x.enq)) d.tick
  Nat.min 8191 ((d.tick - t) * 2 / 5)

/-- Key of an entry of a queue group's sampling ring. -/
def sampKey (port cls entry : Nat) : Nat := pcKey port cls * 64 + entry

/-- A ring entry found with a parity error is cleared, under code 4 (Table 4.7). -/
def Dev.ringParity (d : Dev) (die : Nat) (r : RingEntry) : Dev :=
  if laneDie r.port.val ≠ die then d
  else
    ({ d with tm := { d.tm with samples := smErase d.tm.samples (sampKey r.port.val r.cls.val r.entry.val) } } : Dev).logErr .TM
      die 4 (wmk [(9, 0, r.port.val)])

/-- SAMPLING_TICK (R116): a die writes one entry into every ring of its egress ports at the same instant, unless
frozen or at a shedding step. `parity` are the entries that show a parity error. -/
def Dev.samplingTick (d : Dev) (die : Nat) (parity : List RingEntry) : Dev :=
  if !d.dieRuns die then d else
  let d := d.each parity fun d r => d.ringParity die r
  if d.on F.TM_SAMP_CTRL_freeze die 0 || 1 ≤ d.shed then d else
  let ports := (d.cfg.ports.map Prod.fst).filter fun p => laneDie p == die
  let n := d.rd F.TM_QSEL_next die 0
  let t := d.hallNs die
  let s := ports.foldl (fun m p => (List.range 8).foldl (fun m c =>
    smInsert m (sampKey p c n) (⟨t, d.depth die p c, d.headDelay p c⟩ : Sample)) m) d.tm.samples
  { d with tm := { d.tm with samples := s }, regs := fldPut d.regs F.TM_QSEL_next die 0 (n + 1) }

/-- SATURATION_DWELL (R117): the depth of a queue group has stayed at or above its threshold for the dwell: one event
until the depth has fallen below it. -/
def Dev.saturationDwell (d : Dev) (port cls : Nat) : Dev :=
  let e := laneDie port
  let thr := d.rd F.TM_Q_CFG_sat_thr e (pcKey (port % 512) cls)
  let dep := d.depth e port cls
  if d.rd F.TM_SAT_CFG_dwell e 0 = 0 || thr = 0 || dep < thr || smGet d.tm.satLatch (pcKey port cls) false
      || !d.isPort port then d
  else
    let d := { d with tm := { d.tm with satLatch := smInsert d.tm.satLatch (pcKey port cls) true } }
    let d := ((d.wr F.TM_SAT_STAT_event e 0 1).wr F.TM_SAT_STAT_port e 0 (port % 512)).wr F.TM_SAT_STAT_class e 0 cls
    d.event .TM e 5 (wmk [(63, 54, port), (53, 51, cls)]) (wmk [(63, 45, dep)])

end Sys2Proof.Machine
end

