-- ==== Sys2Proof/Machine/Forward.lean ====
section
/-! DEFINITION. Sending a frame toward its destination: the block admission of R311, a port or bundle target (R74, R92,
R93), multicast replication (R88 to R91), the route bank (R139) and the frames a core die originates (R66). -/

namespace Sys2Proof.Machine

/-- Whether a job block is admitted on a die (R311): as HUB_ADMIT says, or, until the hub has attached again, as it last said.
(DEDUCED, log 104) -/
def Dev.admitted (d : Dev) (die block : Nat) : Bool :=
  wbit (if d.alone then d.pw.admits.getD die 0 else d.rdw .HUB_ADMIT 0 die) block

/-- A frame of a block that is not admitted is dropped, counted in D2D_DROP_CNT and its credit returned (R311).
(DEDUCED, log 23) -/
def Dev.dropAdmit (d : Dev) (die : Nat) (o : Origin) (f : Frame) : Dev :=
  (d.inc F.D2D_DROP_CNT_frames die 0 1).oweFrame o f.cls f.len

/-- A frame dropped by a lookup step: counted in FWD_DROP_CNT and its credit returned (R119, R61). -/
def Dev.dropFwd (d : Dev) (die k : Nat) (o : Origin) (f : Frame) : Dev :=
  (d.dropCnt .FWD die k o.port? (some f.cls)).oweFrame o f.cls f.len

/-- A frame dropped by the switch core before admission: counted in SWC_DROP_CNT and its credit returned. -/
def Dev.dropSwc (d : Dev) (die k : Nat) (o : Origin) (egress : Option Nat) (f : Frame) : Dev :=
  (d.dropCnt .SWC die k egress (some f.cls)).oweFrame o f.cls f.len

/-- A frame the parser drops: counted under its reason for the ingress port and in the LANE set, credit returned
(R60, R61, R63); a link-local frame uses no credits. -/
def Dev.dropParser (d : Dev) (port reason cls len : Nat) (local_ : Bool := false) : Dev :=
  let n := smGet d.parserDrops (port * 16 + reason) 0 + 1
  let d := { d with parserDrops := smInsert d.parserDrops (port * 16 + reason) n }
  let d := d.cntPC ⟨laneDie port, 5⟩ (0x10 + reason) (some port) (some cls) 1
  if local_ then d else d.owe port cls (creditsFor len)

/-- Whether a port can take a frame that names it directly: a port of the image, link up, not removed (R74, R395). -/
def Dev.portOpen (d : Dev) (die p : Nat) : Bool :=
  d.reach die p && d.isPort p && d.linkUp p && !d.on F.LANE_LIVE_removed (laneDie p) (p % 512)

/-- Hop limit 0 on a frame that is not to this device (R65, Table 2.8 check 11). Originated frames are not checked. -/
def hopDead (o : Origin) (f : Frame) : Bool := o.port?.isSome && f.hop == 0

/-- A frame dropped by check 11 at the end of its lookup (R60, R65). -/
def Dev.dropHop (d : Dev) (o : Origin) (f : Frame) : Dev :=
  match o with
  | .port i => d.dropParser i 11 f.cls f.len
  | _ => d

/-- Sends a frame toward one port (R22 stages 5 and 6): meter, RED for a lossy class, admission. (DEDUCED, log 29) -/
def Dev.sendPort (d : Dev) (die : Nat) (o : Origin) (p : Nat) (f : Frame) (res : Option ChunkKey) (followed : Bool) :
    Dev :=
  let (d, mf) := match o with
    | .port i => d.meter i f
    | _ => (d, some f)
  match mf with
  | none => d.copyDone res false
  | some f =>
    let lossless := d.lossless die (requester o f.cls) f.cls
    let (d, keep) := if lossless then (d, true) else d.red die p f o.port?
    if keep then d.admitUnicast die o (.port p) f res followed else d.copyDone res false

/-- Sends a frame to a lookup's target: kind 1 a port, 2 a bundle (R74, R92, R93, R311). -/
def Dev.sendTarget (d : Dev) (die : Nat) (o : Origin) (kind tgt : Nat) (f : Frame) (dest0 : Nat)
    (res : Option ChunkKey) (followed : Bool) : Dev :=
  if hopDead o f then d.dropHop o f
  else
  let (d, pick) : Dev × Option Nat := if kind = 2 then d.chooseMember o tgt f dest0 none else (d, some tgt)
  match pick with
  | none => (d.dropSwc die 3 o none f).copyDone res false
  | some p =>
    if !d.admitted (laneDie p) f.block then (d.dropAdmit (laneDie p) o f).copyDone res false
    else if kind ≠ 2 && !d.portOpen die p then (d.dropSwc die 5 o (some p) f).copyDone res false
    else d.sendPort die o p f res followed

/-- Routes a frame by its DFID in the bank its epoch selects (R119 step 6, R123, R139). -/
def Dev.route (d : Dev) (die : Nat) (o : Origin) (f : Frame) (dest0 : Nat) (res : Option ChunkKey) (followed : Bool) :
    Dev :=
  -- a frame with hop limit 0 that step 6 would drop is dropped by check 11 instead (R65)
  let drop := fun (d : Dev) (k : Nat) => (if hopDead o f then d.dropHop o f else d.dropFwd die k o f).copyDone res false
  match d.bankFor die f.epoch with
  | none => drop d 2
  | some bank =>
    let d := d.cntPC ⟨die, 0⟩ 2 o.port? (some f.cls) 1
    match d.lpm die bank f.dest 24 with
    | (d, .none) => drop d 1
    | (d, .poisoned) => drop d 4
    | (d, .target 3 _) => drop d 3
    | (d, .target kind tgt) => d.sendTarget die o kind tgt f dest0 res followed

/-- Ports a bitmap of Table 3.2's form names: bits that are not the first lane of a port are ignored (R89). -/
def Dev.bitmapPorts (d : Dev) (w : Nat → Word) : List Nat :=
  (List.range 1024).filter fun l => wbit (w (l / 64)) (l % 64) && d.isPort l

/-- Stage kind of the port a frame arrived on; 0 for ports of other roles and for originated frames (R90). -/
def Dev.stageKind (d : Dev) (o : Origin) : Nat :=
  match o with
  | .port p => match smFind d.cfg.ports p, smFind d.cfg.groups (p / 4) with
    | some i, some g => if g.stage then i.kind else 0
    | _, _ => 0
  | _ => 0

/-- Stage kind of a bitmap port. -/
def Dev.kindOf (d : Dev) (p : Nat) : Nat := d.stageKind (.port p)

/-- The destinations of a multicast frame (R88 to R90): a drop reason of Table 3.5, or the ports of its copies after
the bundle references chose their members. From a row peer a row entry makes copies for bitmap ports only, which are not row
peers, and a column entry likewise. (DEDUCED, log 157) -/
def Dev.mcPorts (d : Dev) (die : Nat) (o : Origin) (f : Frame) (dest0 : Nat) : Dev × Except Nat (List Nat) :=
  let g := f.dest % 65536
  if d.rd F.SWC_MC_REGION_size die f.block ≤ g then (d, .error 6) else
  let e := (d.rd F.SWC_MC_REGION_base die f.block + g) % 65536
  let w := fun i => d.rdw .VM_MC die (e * 19 + i)
  let kind := fget (w 16) 1 0
  let ak := d.stageKind o
  if kind = 3 then (d, .error 6)
  else if (kind = 1 && ak = 2) || (kind = 2 && ak = 1) then (d, .error 7)
  else
    let ps := (d.bitmapPorts w).filter fun p =>
      some p != o.port? && !(kind != 0 && ak == kind && d.kindOf p == kind)
    let refs := if kind != 0 && ak == kind then [] else (List.range 8).filterMap fun i =>
      let x := w (17 + i / 4)
      let lo := 16 * (i % 4)
      if wbit x (lo + 15) then some (fget x (lo + 9) lo) else none
    if hopDead o f then (d, .ok []) else
    let (d, bs) := refs.foldl (fun (acc : Dev × List Nat) b =>
      match acc.1.chooseMember o b f dest0 o.port? with
      | (d, some p) => (d, acc.2 ++ [p])
      | (d, none) =>
        -- the arrival port as only selectable member makes no copy; no selectable member at all is reason 3
        let ms := smGet d.cfg.bundles b []
        let only := (List.range ms.length).any fun m => ms[m]? == o.port? && wbit (acc.1.selMask o.die b) m
        (if only then d else d.dropCnt .SWC die 3 none (some f.cls), acc.2)) (d, [])
    (d, .ok (ps ++ bs))

/-- Replicates a multicast frame (R88 to R91). A copy toward a port that is down or of a die where the block is not
admitted is dropped and counted; for a lossy class RED judges each copy by its own queue group. (DEDUCED, log 24) -/
def Dev.multicast (d : Dev) (die : Nat) (o : Origin) (f : Frame) (res : Option ChunkKey) : Dev :=
  let dest0 := f.dest
  match d.mcPorts die o f dest0 with
  | (d, .error k) => (d.dropSwc die k o none f).copyDone res false
  | (d, .ok ps) =>
    if hopDead o f then d.dropHop o f
    else
    let (d, mf) := match o with
      | .port i => d.meter i f
      | _ => (d, some f)
    match mf with
    | none => d.copyDone res false
    | some f =>
      let lossless := d.lossless die (requester o f.cls) f.cls
      let (d, keep) := ps.foldl (fun (acc : Dev × List Nat) p =>
        let d := acc.1
        if !d.admitted (laneDie p) f.block then
          (d.inc F.D2D_DROP_CNT_frames (laneDie p) 0 1, acc.2)
        else if !d.portOpen die p then (d.dropCnt .SWC die 5 (some p) (some f.cls), acc.2)
        else if lossless then (d, acc.2 ++ [p])
        else
          let (d, k) := d.red die p f o.port?
          (d, if k then acc.2 ++ [p] else acc.2)) (d, [])
      d.admitMulticast die o keep f res

/-- Header and payload of a frame the device originates (R57, R66): version 1, green, not ECN-capable, own epoch, own
DFID, device rank, the image's origin hop limit. The flow label and the destination rank are free.
(DESIGN CHOICE, log 8) -/
def Dev.mkFrame (d : Dev) (die ftype cls block dest mseq flags : Nat) (w3 : Word) (pay : List Byte) : Frame :=
  { w0 := wmk [(63, 60, 1), (59, 56, ftype), (55, 53, cls), (48, 48, d.rd F.FWD_EPOCH_epoch die 0), (47, 42, block),
      (41, 18, dest), (17, 0, (Config.originFlow d.freeCtr).toNat)],
    w1 := wmk [(63, 40, d.rd F.FWD_DEV_DFID_dfid die 0), (39, 20, (Config.originRank d.freeCtr).toNat),
      (19, 0, 0xFFFFF)],
    w2 := wmk [(63, 32, mseq), (31, 16, pay.length), (15, 8, d.cfg.originHop), (7, 0, flags)],
    w3 := w3, payload := pay }

/-- The free message sequence of the next originated frame. -/
def Dev.freeSeq (d : Dev) : Nat := (Config.originSeq d.freeCtr).toNat

/-- The free W3 of the next originated frame. -/
def Dev.freeW3 (d : Dev) : Word := Config.originW3 d.freeCtr

/-- A link-local frame the device originates (R46, R66): block, destination, epoch, hop limit and flags 0. -/
def Dev.mkLinkFrame (d : Dev) (die ftype : Nat) (pay : List Byte) : Frame :=
  { w0 := wmk [(63, 60, 1), (59, 56, ftype), (55, 53, 7), (17, 0, (Config.originFlow d.freeCtr).toNat)],
    w1 := wmk [(63, 40, d.rd F.FWD_DEV_DFID_dfid die 0), (39, 20, (Config.originRank d.freeCtr).toNat),
      (19, 0, 0xFFFFF)],
    w2 := wmk [(63, 32, d.freeSeq), (31, 16, pay.length)], w3 := d.freeW3, payload := pay }

/-- Puts a link-local frame in line for a segment of a port (R270). -/
def Dev.sendCtl (d : Dev) (port : Nat) (f : Frame) : Dev :=
  { d with freeCtr := d.freeCtr + 1, ln := { d.ln with ctl := d.ln.ctl ++ [⟨port, f, d.tick⟩] } }

/-- Sends a link-local frame on a port whose link is up, in idle or not (R286); on any other link it is lost. -/
def Dev.sendLocal (d : Dev) (port : Nat) (f : Frame) : Dev := if d.linkUp port then d.sendCtl port f else d

/-- Whether a link-local frame is a lichen digest (Table 11.4). -/
def isDigest (f : Frame) : Bool := f.ftype == 4 && fget (payWord f.payload 0) 63 56 == 0x10

/-- Digests that wait enter the free ones of the 16 cells staged for a port (R215). -/
def Dev.stageDigests (d : Dev) (port : Nat) : Dev :=
  let staged := (d.ln.ctl.filter fun c => c.port == port && isDigest c.f).length
  let go := (d.sy.lichenOut.filter fun x => x.1 == port).take (16 - staged)
  let rest := d.sy.lichenOut.filter (fun x => x.1 != port) ++ (d.sy.lichenOut.filter fun x => x.1 == port).drop (16 - staged)
  { d with ln := { d.ln with ctl := d.ln.ctl ++ go.map fun x => ⟨port, x.2, d.tick⟩ }, sy := { d.sy with lichenOut := rest } }

/-- Sends a digest on the lichen port (R211, R215); on a link that is not up it is lost (R214).
(DESIGN CHOICE, log 164) -/
def Dev.queueDigest (d : Dev) (port : Nat) (f : Frame) : Dev :=
  if d.linkUp port then
    ({ d with freeCtr := d.freeCtr + 1, sy := { d.sy with lichenOut := d.sy.lichenOut ++ [(port, f)] } } : Dev).stageDigests port
  else d

/-- Sends a frame that a die originates: by multicast or by its own bank (R66, R93). -/
def Dev.originate (d : Dev) (die : Nat) (o : Origin) (f : Frame) (res : Option ChunkKey) : Dev :=
  let d := d.fresh.1
  let (d, fl) := d.packFree
  if f.flag 2 then d.multicast die o f res else d.route die o f f.dest res fl

end Sys2Proof.Machine
end

