-- ==== Sys2Proof/Machine/Sync.lean ====
section
/-! DEFINITION. Collectives (07_collective_protocol) and lichen pairs (08_reproducibility): claims (R148, R179),
completion and emission (R184 to R186), abort (R189), retract (R192), straggler data (R194), digests and their
resolution (R207 to R214). -/

namespace Sys2Proof.Machine

-- Errors ------------------------------------------------------------------------------------------------------------

/-- Logs a RED error with its array, cell, slot group and chunk (Table 6.11). -/
def Dev.redErr (d : Dev) (r : ChunkRec) (code cell : Nat) : Dev :=
  d.logErrC .RED r.key.die code (wmk [(47, 44, r.array), (43, 39, cell), (31, 16, r.group), (15, 0, r.key.chunk)])
    (some (r.key.die, r.array, some cell))

/-- Logs a SYNC error with its slot group and chunk (Table 7.10). -/
def Dev.syncErr (d : Dev) (die code group chunk : Nat) : Dev :=
  d.logErr .SYNC die code (wmk [(31, 16, group), (15, 0, chunk)])

/-- A contribution dropped under a reason of SYNC_DROP_CNT, its credit returned (R175, R61). -/
def Dev.dropSync (d : Dev) (die k port : Nat) (f : Frame) : Dev :=
  (d.dropCnt .SYNC die k (some port) (some f.cls)).oweFrame (.port port) f.cls f.len

-- Records -----------------------------------------------------------------------------------------------------------

/-- Records of a die that are not free. -/
def Dev.recCount (d : Dev) (die : Nat) : Nat := (d.sy.recs.filter fun r => r.key.die == die).length

/-- SYNC_REC_STAT follows the records that are not free. -/
def Dev.recStat (d : Dev) (die : Nat) : Dev :=
  let n := d.recCount die
  (d.wr F.SYNC_REC_STAT_in_use die 0 n).peak F.SYNC_REC_STAT_peak die 0 n

/-- Frees a record (R178). -/
def Dev.freeRecord (d : Dev) (k : ChunkKey) : Dev :=
  ({ d with sy := { d.sy with recs := d.sy.recs.filter fun r => r.key != k } } : Dev).recStat k.die

/-- A record as it opens. -/
def ChunkRec.fresh (key : ChunkKey) (group block array : Nat) (state : ChunkState) (accs : List Acc) : ChunkRec :=
  { key := key, group := group, block := block, array := array, state := state, covered := 0, partials := [],
    admitted := 0, applied := 0, firstT := 0, lastT := 0, lastIdx := 0, lastApplied := 0, folded := 0, check := 0,
    accs := accs, units := [], spillUnits := 0, resident := false, fetching := false, copies := 0, left := false,
    verified := false, retracted := false, flip := 0, flips := [], recFlip := 0, out := [] }

/-- The descriptor of a record. -/
def Dev.dscOf (d : Dev) (r : ChunkRec) : Dsc := d.dsc r.key.die r.key.desc

/-- Whether every partial entry that a record counts is complete (R162, R184). -/
def ChunkRec.partialsDone (r : ChunkRec) (e : Nat) : Bool := r.partials.all fun p => p.2.last && p.2.records == e

/-- Whether all contributions of a chunk are in (R188). -/
def Dev.allIn (d : Dev) (r : ChunkRec) : Bool :=
  let c := d.dscOf r
  r.covered == c.leaf && r.partialsDone c.elems

-- Reads of accumulators (R164, R165) ---------------------------------------------------------------------------------

/-- Counts a corrected SRAM error (R165). -/
def Dev.sramCorrected (d : Dev) (r : ChunkRec) (cell : Nat) : Dev :=
  ((d.inc F.RED_CELL_STAT_corrected r.key.die (cellIdx r.array cell) 1).evtCnt .RED r.key.die 0).cnt ⟨r.key.die, 3⟩ 3

/-- Counts an uncorrectable SRAM error (R165). -/
def Dev.sramBad (d : Dev) (r : ChunkRec) (cell : Nat) : Dev :=
  (d.inc F.RED_CELL_STAT_uncorrectable r.key.die (cellIdx r.array cell) 1).evtCnt .RED r.key.die 2

/-- Counts a residue mismatch (R164). -/
def Dev.residueBad (d : Dev) (r : ChunkRec) (cell : Nat) : Dev :=
  (d.inc F.RED_CELL_STAT_residue r.key.die (cellIdx r.array cell) 1).evtCnt .RED r.key.die 1

/-- The cell of a record's slot unit; 0 in the spill window, whose cells no rule names. -/
def ChunkRec.unitCell (r : ChunkRec) (u : Nat) : Nat := (r.units.getD u (0, 0)).1

/-- The cell that holds an element's accumulator (R148, R163). -/
def ChunkRec.cellOf (r : ChunkRec) (c : Dsc) (e : Nat) : Nat := r.unitCell (e / elemsPerUnit c.inF c.op c.exact)

/-- The cells of the first `n` 64-bit words of a record's accumulators (R148, R163). -/
def ChunkRec.wordCells (r : ChunkRec) (c : Dsc) (n : Nat) : List Nat :=
  (List.range n).map fun i => r.unitCell (i / (elemsPerUnit c.inF c.op c.exact * accBytes c.inF c.op c.exact / 8))

/-- What a read of a chunk's accumulators meets: the command's faults and the injected errors in the store (R415). -/
def ChunkRec.found (r : ChunkRec) (faults : List RedFault) : List RedFault :=
  faults ++ r.flips.map fun cell => if r.flip = 2 then .sram (Fin.ofNat 32 cell) else .corrected (Fin.ofNat 32 cell)

/-- Counts the SRAM errors among some faults (R165). -/
def Dev.countSram (d : Dev) (r : ChunkRec) (fs : List RedFault) : Dev :=
  d.each fs fun d f => match f with
    | .corrected cell => d.sramCorrected r cell.val
    | .sram cell => d.sramBad r cell.val
    | _ => d

/-- The cells of the uncorrectable SRAM errors. -/
def badCells (fs : List RedFault) : List Nat :=
  fs.filterMap fun f => match f with
    | .sram cell => some cell.val
    | _ => none

/-- Limbs with bits of one of them inverted. -/
def flipLimb (ls : List Nat) (l : Nat) (mask : Word) : List Nat := ls.mapIdx fun i x => if i = l then x ^^^ mask.toNat else x

/-- Accumulators as a read with wrong limbs gives them. -/
def misread (c : Dsc) (as : List Acc) (fs : List RedFault) : List Acc :=
  fs.foldl (fun as f => match f with
    | .limb e l mask => as.mapIdx fun i a =>
      if i ≠ e.val then a
      else if accLong c.inF c.op c.exact then Acc.ofLimbs c.inF a (flipLimb (accLimbs c.inF a) l.val mask)
      else { a with word := a.word ^^^ (mask.toNat % 2 ^ 32) }
    | _ => as) as

/-- The elements whose limbs do not fit the residues that they carry (R164), each once. -/
def badReads (c : Dsc) (as : List Acc) (fs : List RedFault) : List Nat :=
  if !accLong c.inF c.op c.exact then []
  else (fs.filterMap fun f => match f with
    | .limb e _ _ => match as[e.val]? with
      | some a => if accReadOk c.inF a then none else some e.val
      | none => none
    | _ => none).eraseDups

/-- Reads a chunk's accumulators (R164, R165), every error counted: what the read gives, or the cells at fault, each with whether
it is an SRAM error. -/
def Dev.readAccs (d : Dev) (r : ChunkRec) (faults : List RedFault) : Dev × Except (List (Bool × Nat)) (List Acc) :=
  let c := d.dscOf r
  let fs := r.found faults
  let d := d.countSram r fs
  let as := misread c r.accs fs
  let wrong := (badReads c as fs).map (r.cellOf c)
  let d := d.each wrong fun d cell => d.residueBad r cell
  match (badCells fs).map (fun x => (true, x)) ++ wrong.map (fun x => (false, x)) with
  | [] => (d, .ok as)
  | errs => (d, .error errs)

/-- Logs the errors of a read (R164, R165), residue mismatches under one code and SRAM errors under another: the first has its
action, the others are counted and logged only (R412). -/
def Dev.logRead (d : Dev) (r : ChunkRec) (residue sram : Nat) (errs : List (Bool × Nat)) : Dev :=
  d.each errs fun d e => d.redErr r (if e.1 then sram else residue) e.2

-- Claims (R148, R179) -----------------------------------------------------------------------------------------------

/-- Whether a known-answer test occupies a cell (R168). -/
def Dev.katCell (d : Dev) (die array cell : Nat) : Bool :=
  d.on F.RED_KAT_STAT_busy die 0 && d.rd F.RED_KAT_CTRL_array die 0 == array && d.rd F.RED_KAT_CTRL_cell die 0 == cell

/-- Whether claims pass over a cell. -/
def Dev.cellShut (d : Dev) (die array cell : Nat) : Bool :=
  d.on F.RED_CELL_CFG_disable die (cellIdx array cell) || d.katCell die array cell

/-- The first cell at or after `c` that `ok` admits, looking at `fuel` cells and wrapping from 31 to 0. -/
def nextCell (ok : Nat → Bool) : Nat → Nat → Option Nat
  | _, 0 => none
  | c, fuel + 1 => if ok (c % 32) then some (c % 32) else nextCell ok (c + 1) fuel

/-- Takes `n` slot units of an array, one per cell in turn from cell `c` on (R148): the store, the cell after the last
and the cells, in order. -/
def takeUnits (die array : Nat) (shut : Nat → Bool) : Nat → RegFile → Nat → RegFile × Nat × List Nat
  | 0, m, c => (m, c, [])
  | n + 1, m, c =>
    match nextCell (fun x => fldGet m F.RED_CELL_STAT_free die (cellIdx array x) != 0 && !shut x) c 32 with
    | none => (m, c, [])
    | some x =>
      let i := cellIdx array x
      let r := takeUnits die array shut n
        (fldPut m F.RED_CELL_STAT_free die i (fldGet m F.RED_CELL_STAT_free die i - 1)) (x + 1)
      (r.1, r.2.1, x :: r.2.2)

/-- Free units of an array that no claim may take: those of disabled cells and of a cell under test. -/
def Dev.shutUnits (d : Dev) (die array : Nat) : Nat :=
  ((List.range 32).map fun c =>
    if d.cellShut die array c then d.rd F.RED_CELL_STAT_free die (cellIdx array c) else 0).sum

/-- Whether an array can give `need` units: its free units, less its spill window, less the units of shut cells. -/
def Dev.claimable (d : Dev) (die array need : Nat) : Bool :=
  need + d.rd F.SYNC_SPILL_CFG_window die 0 + d.shutUnits die array ≤ d.rd F.RED_ARRAY_STAT_free die array

/-- Whether a core die is in the throttle state (Table 13.7). -/
def Dev.throttled (d : Dev) (die : Nat) : Bool := fget (d.rdw .HUB_THERM_STAT 0 0) (2 * die + 1) (2 * die) == 2

/-- The GDDR7 channel of a spilled chunk. -/
def ChunkKey.channel (k : ChunkKey) : Nat := (Config.spillChannel k.die k.desc k.chunk k.step).val

/-- Whether spill is available (R179). -/
def Dev.spillAvail (d : Dev) (die : Nat) : Bool := d.gddrUp && d.on F.SYNC_SPILL_CFG_enable die 0

/-- The first contribution of a chunk decides its state (R179). (DEDUCED, log 46) -/
def Dev.claim (d : Dev) (key : ChunkKey) (group array : Nat) (c : Dsc) : Dev × ChunkRec :=
  let die := key.die
  let need := c.units
  let fresh := ChunkRec.fresh key group c.block array
  let zero := List.replicate c.elems Acc.zero
  let inUse := d.rd F.SYNC_BLK_STAT_in_use die c.block
  let spilled := d.rd F.SYNC_BLK_STAT_spill_in_use die c.block
  if d.shed < 3 && !d.throttled die && inUse + need ≤ d.rd F.SYNC_BLK_CFG_quota die c.block && d.claimable die array need then
    let (m, p, cells) := takeUnits die array (d.cellShut die array) need d.regs (smGet d.sy.claimPtr (die * 16 + array) 0)
    let d := { d with regs := m, sy := { d.sy with claimPtr := smInsert d.sy.claimPtr (die * 16 + array) p } }
    let free := d.rd F.RED_ARRAY_STAT_free die array - need
    let d := (d.wr F.RED_ARRAY_STAT_free die array free).peak F.RED_ARRAY_STAT_peak die array (768 - free)
    let d := d.wr F.RED_ARRAY_STAT_chunks die array (d.rd F.RED_ARRAY_STAT_chunks die array + 1)
    (d.wr F.SYNC_BLK_STAT_in_use die c.block (inUse + need),
      { fresh .onDie zero with units := cells.map fun x => (x, 1) })
  else if c.spill && d.spillAvail die && !d.pw.hot.contains key.channel && spilled + need ≤ d.rd F.SYNC_BLK_CFG_spill_quota die c.block
      && d.rd F.SYNC_SPILL_STAT_in_use die 0 + need ≤ d.rd F.SYNC_SPILL_AREA_size die 0 then
    let d := d.wr F.SYNC_BLK_STAT_spill_in_use die c.block (spilled + need)
    let d := d.wr F.SYNC_SPILL_STAT_in_use die 0 (d.rd F.SYNC_SPILL_STAT_in_use die 0 + need)
    (d.evtCnt .SYNC die 5, { fresh .spilled zero with spillUnits := need })
  else (d.evtCnt .SYNC die 6, fresh .passThrough [])

-- Frames of a chunk (Table 7.4) --------------------------------------------------------------------------------------

/-- W3 of a frame that a chunk emits (Table 7.4). -/
def chunkW3 (c : Dsc) (r : ChunkRec) (fmt : Nat) : Word :=
  wmk [(63, 48, r.group), (47, 32, r.key.chunk), (31, 22, c.ownIdx), (21, 18, fmt), (17, 15, c.op),
    (14, 14, b2n c.exact), (13, 0, r.key.step)]

/-- Whether a chunk leaves as an exact partial in format 12 (R159, Table 7.4). -/
def Dsc.asPartial (c : Dsc) : Bool := c.parentKind != 2 && c.op == 0 && c.exact

/-- The payloads that a chunk emits, in order, and the output elements they count (R156 to R161). -/
def chunkPayloads (c : Dsc) (r : ChunkRec) : List (List Byte) × List OutElem :=
  if c.asPartial then (encodePartial c.inF r.folded r.accs, [])
  else
    let p := resultPayload c.inF c.outF c.op c.exact r.accs
    ([p.1], p.2)

/-- One frame of a completed chunk (R185, Table 7.4). -/
def Dev.chunkFrame (d : Dev) (c : Dsc) (r : ChunkRec) (pay : List Byte) : Frame :=
  if c.parentKind = 2 then d.mkFrame r.key.die 2 6 c.block c.group d.freeSeq 0x46 (chunkW3 c r c.outF) pay
  else if c.asPartial then d.mkFrame r.key.die 1 6 c.block c.parent d.freeSeq 0x22 (chunkW3 c r 12) pay
  else d.mkFrame r.key.die 1 6 c.block c.parent d.freeSeq 0x02 (chunkW3 c r c.outF) pay

/-- An abort result (R189): a result frame without payload to the descriptor's group. -/
def Dev.abortFrame (d : Dev) (c : Dsc) (r : ChunkRec) : Frame :=
  d.mkFrame r.key.die 2 6 c.block c.group d.freeSeq 0x46 (chunkW3 c r c.outF) []

/-- A retract (R192): a type 7 frame to the descriptor's group. -/
def Dev.retractFrame (d : Dev) (c : Dsc) (r : ChunkRec) : Frame :=
  d.mkFrame r.key.die 7 7 c.block c.group d.freeSeq 0x84 (chunkW3 c r c.outF) []

/-- E2 of the records that name a chunk (Table 14.6). -/
def chunkE2 (r : ChunkRec) : Word := wmk [(63, 48, r.group), (47, 32, r.key.chunk), (31, 18, r.key.step)]

/-- Withdraws the queued copies of a chunk that have not begun (R192): each counted under event 4. Depths that fall with them may end a
saturation (R117). -/
def Dev.withdraw (d : Dev) (k : ChunkKey) : Dev :=
  let gone := d.sw.queue.filter fun x => x.result == some k
  let d := { d with sw := { d.sw with queue := d.sw.queue.filter fun x => x.result != some k } }
  (d.each gone fun d x => (((d.evtAt .SYNC k.die 4 x.dest.port? (some x.cls) 1).releaseCells x).admFall x).copyDone x.result false).satSweep

/-- Whether a queued frame is a contribution to a record's chunk (R177: by descriptor, chunk and step). -/
def contribOf (r : ChunkRec) (x : Desc) : Bool := x.chunk == some r.key

/-- Discards the admitted contributions of a chunk that the array has not applied (R189). -/
def Dev.dropUnapplied (d : Dev) (r : ChunkRec) : Dev :=
  let gone := d.sw.queue.filter (contribOf r)
  let d := { d with sw := { d.sw with queue := d.sw.queue.filter fun x => !contribOf r x } }
  d.each gone fun d x => d.releaseCells x

-- Lichen (R207 to R214) ------------------------------------------------------------------------------------------------

/-- Whether a job block is mirrored on a die (R207). -/
def Dev.mirrored (d : Dev) (die block : Nat) : Bool :=
  d.on F.RED_LCH_CFG_enable die 0 && wbit (d.rdw .RED_LCH_BLOCKS die 0) block

/-- Whether the die plays the secondary for a block (R209). (DEDUCED, log 50) -/
def Dev.secondary (d : Dev) (die block : Nat) : Bool := d.mirrored die block && d.on F.RED_LCH_CFG_role die 0

/-- Counts a chunk under an index of RED_LCH_CNT. -/
def Dev.lchCount (d : Dev) (die k : Nat) : Dev := d.inc F.RED_LCH_CNT_chunks die k 1

/-- Aborts a chunk (R189), its digest aside: units released, unapplied contributions discarded, copies not begun
withdrawn, abort result sent unless the die is a secondary (R209), record closed, event raised. `evt` is the index of
SYNC_EVT_CNT. -/
def Dev.abortCore (d : Dev) (r : ChunkRec) (evt : Nat) : Dev :=
  let die := r.key.die
  let c := d.dscOf r
  let miss := (List.range 1024).filter fun i => c.leaf.getLsbD i && !r.covered.getLsbD i
  let d := ((d.dropUnapplied r).withdraw r.key).evtCnt .SYNC die evt
  let d := match d.chunk? r.key with
    | some x => d.closeChunk x
    | none => d
  let d := if d.secondary die r.block then d else d.originate die (.other die) (d.abortFrame c r) none
  d.event .SYNC die 2 (chunkE2 r) (wmk [(63, 54, miss.headD 0), (53, 43, miss.length)])

/-- Straggler data of a completed chunk (R194). -/
def Dev.straggler (d : Dev) (r : ChunkRec) : Dev :=
  let die := r.key.die
  let k := r.key.desc
  let spread := r.lastT - r.firstT
  let s := Nat.min spread (2 ^ 27 - 1)
  let d := (d.wr F.SYNC_DESC_STAT_last_spread die k s).wr F.SYNC_DESC_STAT_last_idx die k r.lastIdx
  let d := d.peak F.SYNC_DESC_STAT_max_spread die k s
  let bucket := if spread < 128 then 0 else if 2 ^ 21 ≤ spread then 15 else Nat.log2 spread - 6
  d.each (List.range 64) fun d w =>
    if d.on F.SYNC_WATCH_valid die w && d.rd F.SYNC_WATCH_desc die w == k then
      (d.inc F.SYNC_HIST_DATA_count die (w * 2048 + bucket) 1).inc F.SYNC_HIST_DATA_count die
        (w * 2048 + 16 + r.lastIdx) 1
    else d

/-- Emits a completed chunk (R184, R185): output elements counted, frames entered into the Thallus of the array's die,
record sending. A secondary emits nothing and only verifies (R209). -/
def Dev.emitChunk (d : Dev) (r : ChunkRec) : Dev :=
  let die := r.key.die
  let c := d.dscOf r
  let pays := r.out
  let quiet := d.secondary die r.block
  let d := d.putChunk { r with state := .sending, copies := if quiet then 0 else pays.length }
  if quiet then d else
  let d := d.cntPC ⟨die, 4⟩ (if c.parentKind = 2 then 2 else 3) none none 1
  d.each pays fun d p => d.originate die (.array (16 * die + r.array)) (d.chunkFrame c r p) (some r.key)

/-- Raises the four records of a lichen resolution (Table 14.6 code 4); an absent side reads 0. -/
def Dev.lichenEvent (d : Dev) (die : Nat) (l0 : Word) (own partner : Option Digest) : Dev :=
  let o := own.getD ⟨0, 0, 0, 0⟩
  let p := partner.getD ⟨0, 0, 0, 0⟩
  let e := fun (d : Dev) (more : Bool) (e2 e3 : Word) => d.raiseRec die false (evE0 9 die 2 more 4) e2 e3
  e (e (e (e d true l0 o.l1) true o.l2 o.l3) true p.l1 p.l2) false p.l3 0

/-- Outcome field of a digest (Table 8.2). -/
def Digest.outcome (g : Digest) : Nat := fget g.l1 31 30

/-- The record that a lichen key holds on a die under R213. -/
def Dev.heldChunk (d : Dev) (e : LichenPend) : Option ChunkRec :=
  d.sy.recs.find? fun r => r.key.die == e.die && r.group == e.group && r.key.chunk == e.chunk && r.key.step == e.step &&
    r.state == .held

/-- Releases a held chunk by emitting it. -/
def Dev.releaseHeld (d : Dev) (e : LichenPend) : Dev :=
  match d.heldChunk e with
  | some r => d.emitChunk r
  | none => d

/-- Flight-recorder record of a lichen resolution (R427). -/
def Dev.lichenFlight (d : Dev) (e : LichenPend) (o p : Digest) : Dev :=
  let array := d.rd F.SYNC_HOME_DATA_array e.die e.group
  d.flight 2 9 e.die 4 e.die e.die o.l1 (some (e.die, array, none))
    (d.rdw .RED_ERR_NEXT e.die 0, d.rdw .RED_ERR_COUNT e.die 0) [p.l1, p.l2, p.l3, o.l2, o.l3]

/-- Resolves a pending entry (R212, R213, Table 8.3) and frees it. A result held on a primary whose partner aborted ('outcome
differs') is emitted. (DESIGN CHOICE, log 189) -/
def Dev.lichenResolve (d : Dev) (e : LichenPend) : Dev :=
  let same := fun (x : LichenPend) => x.die == e.die && x.group == e.group && x.chunk == e.chunk && x.step == e.step
  let pend := d.sy.lichen.filter fun x => !same x
  let done := (e.die, e.group, e.chunk, e.step) :: d.sy.lichenDone
  let d := { d with sy := { d.sy with lichen := pend, lichenDone := done } }
  let d := d.wr F.RED_LCH_PEND_pending e.die 0 ((pend.filter fun x => x.die == e.die).length)
  match e.own, e.partner with
  | some o, some p =>
    if 2 ≤ o.outcome || 2 ≤ p.outcome then (d.lchCount e.die 4).releaseHeld e
    else if o.outcome = 1 && p.outcome = 1 then d.lchCount e.die 4
    else if o.outcome ≠ p.outcome then
      (((d.lchCount e.die 3).lichenEvent e.die o.l0 e.own e.partner).lichenFlight e o p).releaseHeld e
    else if fget o.l1 63 32 = fget p.l1 63 32 then (d.lchCount e.die 0).releaseHeld e
    else
      let d := ((d.lchCount e.die 1).lichenEvent e.die o.l0 e.own e.partner).lichenFlight e o p
      let d := d.wrw .RED_LCH_LAST e.die 0 (wmk [(63, 48, e.group), (47, 32, e.chunk), (13, 0, e.step)])
      let d := d.wrw .RED_LCH_DIG e.die 0 (wmk [(63, 32, fget o.l1 63 32), (31, 0, fget p.l1 63 32)])
      match d.heldChunk e with
      | some r => d.abortCore r 2
      | none => d
  | own, partner =>
    let l0 := match own, partner with
      | some o, _ => o.l0
      | none, some p => p.l0
      | none, none => 0
    ((d.lchCount e.die 2).lichenEvent e.die l0 own none).releaseHeld e

/-- A digest reaches the die of its chunk (R212): it opens a pending entry, resolves one, or is counted as excess. A resolved key
stays known. (DEDUCED, log 49; DESIGN CHOICE, log 165) -/
def Dev.lichenArrive (d : Dev) (die : Nat) (own : Bool) (g : Digest) : Dev :=
  let group := fget g.l0 47 32
  let chunk := fget g.l0 31 16
  let step := fget g.l0 13 0
  match d.sy.lichen.find? fun x => x.die == die && x.group == group && x.chunk == chunk && x.step == step with
  | some e =>
    if own then (if e.own.isSome then d.lchCount die 5 else d.lichenResolve { e with own := some g })
    else if e.partner.isSome then d.lchCount die 5 else d.lichenResolve { e with partner := some g }
  | none =>
    if d.sy.lichenDone.contains (die, group, chunk, step) then d.lchCount die 5
    else
      let mine := d.sy.lichen.filter fun x => x.die == die
      let d := if mine.length < 4096 then d else match mine with
        | x :: _ => d.lichenResolve x
        | [] => d
      let e : LichenPend := ⟨die, group, chunk, step, if own then some g else none, if own then none else some g⟩
      let pend := d.sy.lichen ++ [e]
      ({ d with sy := { d.sy with lichen := pend } } : Dev).wr F.RED_LCH_PEND_pending die 0
        ((pend.filter fun x => x.die == die).length)

/-- The digest of a chunk with the sending die's snapshot (Table 8.2). (DEDUCED, log 47) -/
def Dev.digest (d : Dev) (r : ChunkRec) (outcome : Nat) : Digest :=
  let die := r.key.die
  { l0 := wmk [(63, 56, 0x10), (47, 32, r.group), (31, 16, r.key.chunk), (13, 0, r.key.step)],
    l1 := wmk [(63, 32, if outcome = 0 then r.check else 0), (31, 30, outcome)],
    l2 := wmk [(63, 32, d.hallNs die), (31, 16, d.rd F.HUB_AVS_STAT_setpoint 0 die),
      (15, 0, d.rd F.HUB_AVS_STAT_temp 0 die)],
    l3 := wmk [(63, 52, d.arrayInput (die * 16 + r.array)), (51, 32, 393216 - d.freeCells die)] }

/-- Sends the digest of a mirrored chunk on the lichen port, over the rhizoid control channel where that is the other die's, and
enters it on its own die (R211, R212). -/
def Dev.sendDigest (d : Dev) (r : ChunkRec) (outcome : Nat) : Dev :=
  let die := r.key.die
  if d.mirrored die r.block then
    let g := d.digest r outcome
    let port := d.rd F.RED_LCH_CFG_port die 0
    let f := d.mkLinkFrame die 4 (wordsPay [g.l0, g.l1, g.l2, g.l3, 0, 0, 0, 0])
    (if d.reach die port then d.queueDigest port f else d).lichenArrive die true g
  else d

/-- Aborts a chunk (R189) with its digest (R211). A chunk that is closed already only counts (R412); a held or sending
chunk has sent its digest. -/
def Dev.abortChunk (d : Dev) (r : ChunkRec) (evt : Nat) : Dev :=
  if r.state = .closed then d
  else if r.state = .sending || r.state = .held then d.abortCore r evt
  else (d.abortCore r evt).sendDigest r 1

/-- Emits a held chunk whose key has no pending entry to wait for (R213). -/
def Dev.releaseUnpaired (d : Dev) (r : ChunkRec) : Dev :=
  let waits := d.sy.lichen.any fun e => e.die == r.key.die && e.group == r.group && e.chunk == r.key.chunk && e.step == r.key.step
  match d.chunk? r.key with
  | some x => if x.state = .held && !waits then d.emitChunk x else d
  | none => d

/-- A chunk delivers its payloads (R184): result check, output elements counted, straggler data, digest, and the emission,
held back on a primary with hold set (R213). `as` are its accumulators as the rounding read them. -/
def Dev.finishChunk (d : Dev) (r : ChunkRec) (as : List Acc) : Dev :=
  let die := r.key.die
  let c := d.dscOf r
  let (pays, outs) := chunkPayloads c { r with accs := as }
  let r := { r with check := crc32c pays.flatten, out := pays }
  let d := ((d.evtCntN .RED die 3 (evtOf 3 outs)).evtCntN .RED die 4 (evtOf 4 outs)).evtCntN .RED die 5 (evtOf 5 outs)
  let d := ((d.cnt ⟨die, 3⟩ 2).evtCnt .SYNC die 0).straggler r
  let d := d.putChunk r
  if d.mirrored die r.block then
    let out := if c.op = 0 && !c.exact && !fmtInt c.inF then 3 else 0
    if !d.on F.RED_LCH_CFG_role die 0 && d.on F.RED_LCH_CFG_hold die 0 then
      ((d.putChunk { r with state := .held }).sendDigest r out).releaseUnpaired r
    else (d.emitChunk r).sendDigest r out
  else d.emitChunk r

/-- Completes a chunk that can complete (R184): its accumulators are read and rounded or encoded; a fault on that read aborts
it (R164, R165). -/
def Dev.completeChunk (d : Dev) (r : ChunkRec) (read : List RedFault) : Dev :=
  let r0 := { r with flip := 0, flips := [] }
  match d.readAccs r read with
  | (d, .error errs) => ((d.logRead r 2 3 errs).putChunk r0).abortChunk r0 2
  | (d, .ok as) => d.finishChunk r0 as

/-- Completes a chunk if the three conditions of R184 hold; a spilled one only while resident (R181, R183). `read` are the faults
of the read that rounds it. -/
def Dev.tryComplete (d : Dev) (k : ChunkKey) (read : List RedFault) : Dev :=
  match d.chunk? k with
  | none => d
  | some r =>
    if (r.state = .onDie || (r.state = .spilled && r.resident)) && d.allIn r && r.admitted = r.applied then
      d.completeChunk r read
    else d

/-- Retracts a result after its first copy has left (R192): copies withdrawn, retract sent and event raised, then the
error logged into the ring. Where the result is withdrawn already, the error is counted and logged only (R412).
(DEDUCED, log 48) -/
def Dev.retract (d : Dev) (r : ChunkRec) (log : Dev → Dev) : Dev :=
  let die := r.key.die
  let c := d.dscOf r
  if r.retracted || r.state = .closed then log d else
  let d := d.putChunk { r with retracted := true }
  let d := (d.withdraw r.key).evtCnt .SYNC die 3
  let d := if d.secondary die r.block then d else d.originate die (.other die) (d.retractFrame c r) none
  log (d.event .SYNC die 3 (chunkE2 r) 0)

/-- Spilled chunks of a die abort at once when spill becomes unavailable (R182), with no error code; one held under R213 is still
in the spilled state. -/
def Dev.spillLossIf (d : Dev) (die : Nat) (pick : ChunkKey → Bool) : Dev :=
  let gone := d.sy.recs.filter fun r => r.key.die == die && pick r.key &&
    (r.state == .spilled || (r.state == .held && r.spillUnits != 0))
  d.each gone fun d r => d.abortChunk r 2

/-- Every spilled chunk of a die aborts (R182). -/
def Dev.spillLoss (d : Dev) (die : Nat) : Dev := d.spillLossIf die fun _ => true

end Sys2Proof.Machine
end

