-- ==== Sys2Proof/Machine/Contrib.lean ====
section
/-! DEFINITION. Contributions: the checks and accounting of the sync unit (R175 to R180), the home die's answer, the
array's taking of frames (R147, R155, R162, R164), verification (R186), chunk timers (R178, R188) and spill (R181,
R182). -/

namespace Sys2Proof.Machine

-- Admission -----------------------------------------------------------------------------------------------------------

/-- A descriptor's stored error met on a read (SYNC code 1): a one-bit error is corrected, an uncorrectable one
invalidates the descriptor and aborts its chunks. (DEDUCED, log 45) -/
def Dev.readDescriptor (d : Dev) (die desc group : Nat) : Dev :=
  let k := die * 32768 + desc
  let flip := smGet d.sy.descFlip k 0
  let d := { d with sy := { d.sy with descFlip := smErase d.sy.descFlip k } }
  if flip < 2 then d else
  let d := d.syncErr die 1 group 0
  let open_ := d.sy.recs.filter fun r => r.key.die == die && r.key.desc == desc && r.state != .closed && r.state != .sending
  let d := d.each open_ fun d r => d.abortChunk r 2
  d.wrw .VM_DESC die (desc * 27) (wset (d.rdw .VM_DESC die (desc * 27)) 63 false)

/-- A chunk record's stored error met on a read (SYNC code 2): an uncorrectable one aborts the chunk. -/
def Dev.readRecord (d : Dev) (k : ChunkKey) : Dev :=
  match d.chunk? k with
  | none => d
  | some r =>
    if r.recFlip = 0 then d
    else
      let bad := r.recFlip = 2
      let r := { r with recFlip := 0 }
      let d := d.putChunk r
      if bad then (d.syncErr k.die 2 r.group k.chunk).abortChunk r 2 else d

/-- Records counted for a contributor index (R176). -/
def ChunkRec.counted (r : ChunkRec) (idx : Nat) : PartialCount := smGet r.partials idx ⟨0, false, false⟩

/-- Takes the count of an admitted frame into its record (R176, R177, R194). -/
def ChunkRec.takeIn (r : ChunkRec) (c : Dsc) (f : Frame) (now : Nat) : ChunkRec :=
  let h := partialHeader f.payload
  let p := r.counted f.contrib
  { r with
    covered := r.covered ||| c.coverage f.contrib,
    partials := if f.fmt = 12 then
        smInsert r.partials f.contrib { p with records := p.records + h.count, last := p.last || h.last }
      else r.partials,
    firstT := if r.admitted = 0 then now else r.firstT,
    lastT := now, lastIdx := f.contrib, admitted := r.admitted + 1 }

/-- Takes back an admitted contribution that was lost before the array applied it: its chunk stays incomplete (R170,
R188). -/
def ChunkRec.unadmit (r : ChunkRec) (c : Dsc) (f : Frame) : ChunkRec :=
  let h := partialHeader f.payload
  let p := r.counted f.contrib
  { r with
    covered := if f.fmt = 12 && p.records ≠ h.count then r.covered else r.covered &&& ~~~ c.coverage f.contrib,
    partials := if f.fmt = 12 then
        (if p.records ≤ h.count then smErase r.partials f.contrib
         else smInsert r.partials f.contrib { p with records := p.records - h.count, last := p.last && !h.last })
      else r.partials,
    admitted := r.admitted - 1 }

/-- A contribution lost after its admission. (DEDUCED, log 32) -/
def Dev.loseContribution (d : Dev) (k : ChunkKey) (f : Frame) : Dev :=
  match d.chunk? k with
  | none => d
  | some r => if r.state = .closed then d else d.putChunk (r.unadmit (d.dscOf r) f)

/-- Forwards a contribution of a pass-through chunk (R180): parent DFID, flag [4], route by the frame's epoch. A
secondary drops it instead (R209). -/
def Dev.passThrough (d : Dev) (home ingress port : Nat) (c : Dsc) (f : Frame) (followed : Bool) : Dev :=
  if d.secondary home c.block then (d.lchCount home 4).oweFrame (.port port) f.cls f.len
  else if f.hop = 0 then d.dropParser port 11 f.cls f.len
  else
    let f' := { f with w0 := fput f.w0 41 18 c.parent, w2 := wset f.w2 4 true }
    d.route ingress (.port port) f' f.dest none followed

/-- Puts an admitted contribution in line for its array (R175): metered, written into the Thallus of its ingress die. -/
def Dev.sendToArray (d : Dev) (k : ChunkKey) (array ingress port : Nat) (f : Frame) (followed : Bool) : Dev :=
  match d.meter port f with
  | (d, none) => d.loseContribution k f
  | (d, some f) =>
    let n := d.sw.queue.length
    let d := d.admitUnicast ingress (.port port) (.array (16 * k.die + array)) f (some k) followed
    if d.sw.queue.length = n then d.loseContribution k f else d

/-- Admits a contribution to a record (R175 to R180). A format-12 frame that carries its entry past E aborts the chunk
with RED code 5 (R176, R162); a pass-through chunk has no array, so there it is forwarded as it is (DESIGN CHOICE, log 192). A
contribution to a pass-through chunk is admitted before check 11 judges what is forwarded, so one with hop limit 0 covers its leaf
and is counted here all the same (DESIGN CHOICE, log 190). -/
def Dev.admitTo (d : Dev) (r : ChunkRec) (c : Dsc) (ingress port : Nat) (f : Frame) (followed : Bool) : Dev :=
  let die := r.key.die
  let d := d.cntPC ⟨die, 4⟩ 1 (some port) (some f.cls) 1
  let tooMany := f.fmt = 12 && c.elems < (r.counted f.contrib).records + (partialHeader f.payload).count
  if tooMany && r.state != .passThrough then
    ((d.redErr r 5 0).oweFrame (.port port) f.cls f.len).abortChunk r 2
  else
    let d := d.putChunk (r.takeIn c f d.tick)
    let (d, flip, _) := d.injectHit 7 die 1
    let d := if flip = 0 then d else match d.chunk? r.key with
      | some x => d.putChunk { x with recFlip := flip }
      | none => d
    if r.state = .passThrough then d.passThrough die ingress port c f followed
    else d.sendToArray r.key r.array ingress port f followed

/-- The home die's decision on a contribution (Table 7.2) and what follows from it. (DEDUCED, log 44) -/
def Dev.homeDecide (d : Dev) (home ingress port : Nat) (f : Frame) (followed : Bool) : Dev :=
  let desc := d.rd F.SYNC_HOME_DATA_desc ingress f.slotGroup
  let array := d.rd F.SYNC_HOME_DATA_array ingress f.slotGroup
  let d := d.readDescriptor home desc f.slotGroup
  let c := d.dsc home desc
  let key : ChunkKey := ⟨home, desc, f.chunk, f.step⟩
  let d := d.readRecord key
  let cov := c.coverage f.contrib
  if !c.valid then d.dropSync home 0 port f
  else if f.block ≠ c.block then d.dropSync home 2 port f
  else if !d.admitted home f.block then d.dropAdmit home (.port port) f
  else if f.redop ≠ c.op || f.exact != c.exact || (f.fmt ≠ c.inF && f.fmt ≠ 12)
      || (f.fmt ≠ 12 && f.payload.length ≠ c.units64 * 64) then d.dropSync home 3 port f
  else if c.lastChunk < f.chunk then d.dropSync home 4 port f
  else if cov = 0 then d.dropSync home 5 port f
  else match d.chunk? key with
  | some r =>
    let cont := f.fmt = 12 && (c.entryOf f.contrib).isSome && (smFind r.partials f.contrib).isSome &&
      (r.counted f.contrib).records < c.elems
    if r.covered &&& cov ≠ 0 && !cont then d.dropSync home 6 port f
    else if r.state = .onDie || r.state = .spilled || r.state = .passThrough then d.admitTo r c ingress port f followed
    else d.dropSync home 7 port f
  | none =>
    let full := 16384 ≤ d.recCount home
    let oldest := d.sy.recs.find? fun r => r.key.die == home && r.state == .closed
    if full && oldest.isNone then
      -- a frame that the hop limit drops is counted under parser reason 11 alone (R60)
      (if f.hop = 0 && !d.secondary home c.block then d else d.evtAt .SYNC home 7 (some port) (some f.cls) 1).passThrough home ingress port c f followed
    else
      let d := match oldest with
        | some o => if full then d.freeRecord o.key else d
        | none => d
      let (d, r) := d.claim key f.slotGroup array c
      let d := ({ d with sy := { d.sy with recs := d.sy.recs ++ [r] } } : Dev).recStat home
      d.admitTo r c ingress port f followed

/-- A contribution addressed to this device reaches step 5 of R119 (R175): decided at once when its home is the ingress
die; else it waits for the home die's answer. -/
def Dev.contribute (d : Dev) (ingress port : Nat) (f : Frame) (followed : Bool) : Dev :=
  if !d.on F.SYNC_HOME_DATA_valid ingress f.slotGroup then d.dropSync ingress 0 port f
  else
    let home := d.rd F.SYNC_HOME_DATA_die ingress f.slotGroup
    if home = ingress then d.homeDecide home ingress port f followed
    else { d with fw := { d.fw with homeWait := d.fw.homeWait ++ [⟨ingress, port, 0, f⟩] } }

/-- HOME_DIE_ANSWER (R175): the oldest contribution that waits on a die receives the home die's answer; a home die that
does not run is reason 1. -/
def Dev.homeAnswer (d : Dev) (ingress : Nat) : Dev :=
  match d.fw.homeWait.find? fun p => p.die == ingress with
  | none => d
  | some p =>
    let d := { d with fw := { d.fw with homeWait := d.fw.homeWait.eraseP fun q => q.die == ingress } }
    let home := d.rd F.SYNC_HOME_DATA_die ingress p.frame.slotGroup
    if !d.on F.SYNC_HOME_DATA_valid ingress p.frame.slotGroup then d.dropSync ingress 0 p.port p.frame
    else if !d.dieRuns home || !d.peerOk then d.dropSync ingress 1 p.port p.frame
    else
      let (d, fl) := d.packFree
      d.homeDecide home ingress p.port p.frame fl

-- The array's side ----------------------------------------------------------------------------------------------------

/-- The cells of a taken frame go back: at once on the array's own die, acknowledged across the dies (R73, R82).
(DEDUCED, log 31) -/
def Dev.takeCellsOf (d : Dev) (die : Nat) (x : Desc) : Dev :=
  if x.die = die then d.each x.cells fun d k => d.unrefCell k none (some x.cls)
  else
    let n := x.cells.length
    let d := d.commitRead x (x.cells.getLastD 0)
    let d := d.peak F.SWC_STAGE_STAT_peak die 0 (d.rd F.SWC_STAGE_STAT_in_use die 0 + Nat.min 64 n)
    let d := (d.cntPC ⟨die, 1⟩ 5 none (some x.cls) n).cntPC ⟨die, 6⟩ 3 none (some x.cls) n
    { d with sw := { d.sw with acks := d.sw.acks ++ x.cells.map fun k => ⟨x.die, x.id, x.frame.block, k, none, x.cls⟩ } }

/-- Passes the adder's faults through an update (R164): the accumulators after it and the elements whose check fails. `olds` are
the accumulators before the update, `addend` what it adds to an element. -/
def addFaults (f : Nat) (olds : List Acc) (addend : Nat → Option Int) : List RedFault → List Acc → List Acc × List Nat
  | [], as => (as, [])
  | .adder e l mask :: fs, as =>
    match olds[e.val]?, as[e.val]?, addend e.val with
    | some o, some n, some x =>
      let ls := flipLimb (accLimbs f n) l.val mask
      if accAddOk f o x ls then addFaults f olds addend fs (as.set e.val (Acc.sealed f (Acc.ofLimbs f n ls)))
      else
        let r := addFaults f olds addend fs as
        (r.1, e.val :: r.2)
    | _, _, _ => addFaults f olds addend fs as
  | _ :: fs, as => addFaults f olds addend fs as

/-- Applies one contribution's payload to a record (R153 to R162, R164), from its accumulators `as` as read: the record after it,
or the RED code that aborts the chunk and the elements of residue mismatches. -/
def ChunkRec.apply (r : ChunkRec) (c : Dsc) (f : Frame) (now : Nat) (as : List Acc) (fs : List RedFault) : Except (Nat × List Nat) ChunkRec :=
  let done := fun (r : ChunkRec) (news : List Acc) (addend : Nat → Option Int) =>
    match (if accLong c.inF c.op c.exact then addFaults c.inF as addend fs news else (news, [])) with
    | (_, e :: es) => .error (1, (e :: es).eraseDups)
    | (accs, []) => .ok { r with applied := r.applied + 1, lastApplied := now, accs := accs }
  if f.fmt = 12 then
    let h := partialHeader f.payload
    let p := r.counted f.contrib
    let folded := if p.started then r.folded else r.folded + h.folded
    if h.rsv ≠ 0 || h.folded = 0 || h.count = 0 || h.fmt ≠ c.inF || c.elems < h.first + h.count then .error (5, [])
    else match decodeRecords c.inF h.count (f.payload.drop 8) with
    | none => .error (5, [])
    | some rs =>
      if 65536 < folded then .error (6, [])
      else done { r with folded := folded, partials := smInsert r.partials f.contrib { p with started := true } }
        (accRecords c.inF as h.first rs) fun e => if e < h.first then none else match rs[e - h.first]? with
          | some x => if x.sp = 0 then some x.val else none
          | none => none
  else if 65536 < r.folded + 1 then .error (6, [])
  else
    let xs := decodePayload c.inF f.payload
    done { r with folded := r.folded + 1 } (accApply c.inF c.op c.exact as xs) fun e => match xs[e]? with
      | some x => if x.sp = 0 then some (decInt x (fmtQ c.inF)) else none
      | none => none

/-- A taken contribution meets its chunk: cells read, accumulators updated, chunk completed or aborted. `read` are the faults of
the rounding read if the chunk completes. -/
def Dev.applyTo (d : Dev) (r : ChunkRec) (x : Desc) (faults read : List RedFault) : Dev :=
  let die := r.key.die
  let c := d.dscOf r
  let d := d.cntPC ⟨die, 3⟩ 1 none none (x.frame.payload.length / 64)
  let r0 := { r with flip := 0, flips := [] }
  match d.readAccs r faults with
  | (d, .error errs) => ((d.logRead r 1 3 errs).putChunk r0).abortChunk r0 2
  | (d, .ok as) =>
    match r0.apply c x.frame d.tick as faults with
    | .error (code, []) => ((d.redErr r code 0).putChunk r0).abortChunk r0 2
    | .error (code, es) =>
      let d := d.each (es.map (r.cellOf c)) fun d cell => (d.residueBad r cell).redErr r code cell
      (d.putChunk r0).abortChunk r0 2
    | .ok r1 =>
      let (d, flip, n) := d.injectHit 5 die ((c.elems * accBytes c.inF c.op c.exact + 7) / 8)
      (d.putChunk { r1 with flip := flip, flips := r.wordCells c n }).tryComplete r.key read

/-- The record that a queued contribution is for. -/
def Dev.recordFor (d : Dev) (x : Desc) : Option ChunkRec :=
  d.sy.recs.find? fun r => r.state != .closed && contribOf r x

/-- Whether the head of a VOQ toward an array may be taken: a head of a spilled chunk waits for residency (R181). -/
def Dev.takeable (d : Dev) (x : Desc) : Bool :=
  match d.recordFor x with
  | some r => r.state != .spilled || r.resident
  | none => true

/-- Notes the payload that an array takes in (Table 8.2): what is older than 1 µs (625 quarters of a tick) is forgotten. -/
def Dev.noteInput (d : Dev) (a bytes : Nat) : Dev :=
  let l := (smGet d.sy.arrIn a []).filter fun e => 4 * (d.tick - e.1) < 625
  { d with sy := { d.sy with arrIn := smInsert d.sy.arrIn a (l ++ [(d.tick, bytes)]) } }

/-- Errors that a chunk meets after its abort: counted and logged only (R165, R412). -/
def Dev.laterErrors (d : Dev) (r : ChunkRec) (faults : List RedFault) : Dev :=
  match d.readAccs r faults with
  | (d, .error errs) => d.logRead r 1 3 errs
  | (d, .ok _) => d

/-- SORUS_FRAME_TAKE (R147, R164, R165, R181): array `a` (16 times the die, plus the array) takes one frame, round
robin by ingress port, and applies it. In hold the arrays stop (R327). `faults` are met as the accumulators are updated, `read` by
the rounding read if the chunk completes. -/
def Dev.sorusTake (d : Dev) (a : Nat) (faults read : List RedFault) : Dev :=
  let die := a / 16
  if 5 ≤ d.shed || !d.dieRuns die then d else
  let pk := pcKey (1024 + a) 6
  let heads := (headsOf d.sw.queue (.array a)).filter fun x => d.takeable x
  match rrNext (smGet d.tm.drrVoq pk 0) heads with
  | none => d
  | some x =>
    let d := { d with tm := { d.tm with drrVoq := smInsert d.tm.drrVoq pk (x.origin.rank + 1) },
                      sw := { d.sw with queue := d.sw.queue.filter fun y => !(y.id == x.id && y.dest == x.dest) } }
    let rec? := d.recordFor x
    let d := (d.takeCellsOf die x).noteInput a x.frame.payload.length
    let d := if x.flip = 1 then d.cntPC ⟨x.die, 1⟩ 6 none (some x.cls) x.flips else d
    if x.flip = 2 then
      let d := (d.dropCnt .SWC x.die 9 none (some x.cls)).logErr .SWC x.die 6
        (swcDetail (requester x.origin x.cls) (x.cells.headD 0 % 524288))
      match rec? with
      | some r => d.loseContribution r.key x.frame
      | none => d
    else match rec? with
      | some r => d.applyTo r x faults read
      | none => match d.sy.recs.find? fun r => contribOf r x with
        | some r => d.laterErrors r faults
        | none => d

/-- Faults that the verification finds (R186, R192): after the first copy has left the result is retracted under code 4, before
that the chunk aborts under code 2 or 3. -/
def Dev.verifyFault (d : Dev) (r : ChunkRec) (errs : List (Bool × Nat)) : Dev :=
  if r.left then
    let d := d.retract r fun d => d.logRead r 4 4 errs
    match d.chunk? r.key with
    | some x => (d.putChunk { x with verified := true, flip := 0, flips := [] }).settleChunk r.key
    | none => d
  else ((d.logRead r 2 3 errs).putChunk { r with verified := true }).abortChunk r 2

/-- RESULT_VERIFY_DONE (R186, R192, R164, R165): the array reads a sending chunk's accumulators once more, repeats the rounding or
encoding and compares the check. What it finds of a chunk aborted meanwhile is counted and logged only (R165, R412).
(DEDUCED, log 48) -/
def Dev.verifyDone (d : Dev) (k : ChunkKey) (faults : List RedFault) : Dev :=
  match d.chunk? k with
  | none => d
  | some r =>
    if r.verified then d
    else if r.state ≠ .sending && r.state ≠ .closed then d
    else
      let r0 := { r with flip := 0, flips := [] }
      match d.readAccs r faults with
      | (d, .error errs) =>
        if r.state = .closed then
          (if r.left then d.logRead r 4 4 errs else d.logRead r 2 3 errs).putChunk { r0 with verified := true }
        else d.verifyFault r0 errs
      | (d, .ok as) =>
        if r.state = .closed then d.putChunk { r0 with verified := true } else
        if crc32c (chunkPayloads (d.dscOf r) { r with accs := as }).1.flatten = r.check then
          (d.putChunk { r0 with verified := true }).settleChunk k
        else d.verifyFault r0 [(false, r.unitCell 0)]

/-- SLOT_TIMEOUT (R188): the timer of a record's chunk expires. -/
def Dev.slotTimeout (d : Dev) (k : ChunkKey) : Dev :=
  match d.chunk? k with
  | none => d
  | some r =>
    if r.state = .passThrough then (d.closeChunk r).sendDigest r 2
    else if r.state = .onDie || r.state = .spilled then (if d.allIn r then d.tryComplete k [] else d.abortChunk r 1)
    else d

/-- CLOSED_RECORD_RELEASE (R178): the hold of a closed record ends and the device frees it. -/
def Dev.closedRelease (d : Dev) (k : ChunkKey) : Dev :=
  match d.chunk? k with
  | some r => if r.state = .closed then d.freeRecord k else d
  | none => d

-- Spill (R181, R182) ---------------------------------------------------------------------------------------------------

/-- Window units of an array that hold chunks or wait for one. -/
def Dev.windowUsed (d : Dev) (die array : Nat) : Nat :=
  ((d.sy.recs.filter fun r => r.key.die == die && r.array == array && (r.resident || r.fetching)).map
    ChunkRec.spillUnits).sum

/-- Whether a record is required resident because its contribution heads a VOQ toward its array. -/
def Dev.headNeeds (d : Dev) (r : ChunkRec) : Bool :=
  (headsOf d.sw.queue (.array (16 * r.key.die + r.array))).any fun x => contribOf r x

/-- Whether a record is one of the next runahead chunks after the lowest resident one of its slot group and step. -/
def Dev.runahead (d : Dev) (r : ChunkRec) : Bool :=
  let n := d.rd F.SYNC_SPILL_CFG_runahead r.key.die 0
  let same := d.sy.recs.filter fun x => x.key.die == r.key.die && x.group == r.group && x.key.step == r.key.step &&
    x.state == .spilled
  let low := (same.filter (·.resident)).foldl (fun (m : Option Nat) x => match m with
    | none => some x.key.chunk
    | some v => some (Nat.min v x.key.chunk)) none
  match low with
  | none => false
  | some v => v < r.key.chunk && (same.filter fun x => v < x.key.chunk && x.key.chunk ≤ r.key.chunk).length ≤ n

/-- Whether either rule of R181 requires a spilled record resident. -/
def Dev.required (d : Dev) (r : ChunkRec) : Bool := d.headNeeds r || d.runahead r

/-- Makes a spilled record resident. -/
def Dev.makeResident (d : Dev) (r : ChunkRec) : Dev :=
  let die := r.key.die
  let d := d.wr F.SYNC_SPILL_STAT_resident die 0 (d.rd F.SYNC_SPILL_STAT_resident die 0 + r.spillUnits)
  (d.putChunk { r with resident := true, fetching := false }).tryComplete r.key []

/-- The record to write back (R181): resident, required by neither rule, without a contribution for 2 µs; the one whose
last contribution is oldest, ties to the lower slot group, then chunk. -/
def Dev.writeBackVictim (d : Dev) (die array : Nat) : Option ChunkRec :=
  let cand := d.sy.recs.filter fun r => r.key.die == die && r.array == array && r.state == .spilled && r.resident &&
    !d.required r && r.lastT + 313 ≤ d.tick
  cand.foldl (fun (m : Option ChunkRec) x => match m with
    | none => some x
    | some y =>
      if x.lastT < y.lastT || (x.lastT = y.lastT && (x.group < y.group || (x.group = y.group && x.key.chunk < y.key.chunk)))
      then some x else some y) none

/-- Writes a resident record back to GDDR7 (R181); its SRAM is read, and a fault on that read aborts the chunk (R164, R165).
`flips` then lists the words with an injected error in GDDR7. -/
def Dev.writeBack (d : Dev) (r : ChunkRec) (faults : List RedFault) : Dev :=
  let die := r.key.die
  let r0 := { r with flip := 0, flips := [] }
  match d.readAccs r faults with
  | (d, .error errs) => ((d.logRead r 2 3 errs).putChunk r0).abortChunk r0 2
  | (d, .ok as) =>
    let (d, flip, n) := d.injectHit 8 die (r.spillUnits * 512)
    let d := d.cntPC ⟨2, 4⟩ 2 none none (r.spillUnits * 64)
    let d := d.wr F.SYNC_SPILL_STAT_resident die 0 (d.rd F.SYNC_SPILL_STAT_resident die 0 - r.spillUnits)
    d.putChunk { r with resident := false, accs := as, flip := flip, flips := List.replicate n 0 }

/-- SPILL_RESIDENCY (R181): the fetch engine of an array takes its next action: it makes the first chunk that a rule
requires resident, starts its fetch, or writes a chunk back to make room. A fresh chunk needs no read. `faults` are met by a write
back. -/
def Dev.spillResidency (d : Dev) (a : Nat) (faults : List RedFault) : Dev :=
  let die := a / 16
  let array := a % 16
  if !d.spillAvail die then d else
  let want := d.sy.recs.filter fun r => r.key.die == die && r.array == array && r.state == .spilled && !r.resident &&
    !r.fetching
  let next := match want.find? fun r => d.headNeeds r with
    | some r => some r
    | none => want.find? fun r => d.runahead r
  match next with
  | none => d
  | some r =>
    if d.windowUsed die array + r.spillUnits ≤ d.rd F.SYNC_SPILL_CFG_window die 0 then
      if r.applied = 0 then d.makeResident r
      else
        let d := (d.evtCnt .SYNC die 8).wr F.SYNC_SPILL_STAT_pending die 0 (d.rd F.SYNC_SPILL_STAT_pending die 0 + 1)
        d.putChunk { r with fetching := true }
    else match d.writeBackVictim die array with
      | some v => d.writeBack v faults
      | none => d

/-- SPILL_FETCH_RETURN (R181, R182): a fetch returns; an uncorrectable GDDR7 error aborts the chunk with code 3. -/
def Dev.spillReturn (d : Dev) (k : ChunkKey) (fault : FetchFault) : Dev :=
  match d.chunk? k with
  | none => d
  | some r =>
    if r.fetching = false then d
    else
      let d := d.cntPC ⟨2, 4⟩ 1 none none (r.spillUnits * 64)
      let r0 := { r with flip := 0, flips := [] }
      if fault = .bad || r.flip = 2 then ((d.syncErr k.die 3 r.group k.chunk).putChunk r0).abortChunk r0 2
      else
        let d := d.cntPC ⟨2, 4⟩ 3 none none (r.flips.length + (if fault = .corrected then 1 else 0))
        let d := d.wr F.SYNC_SPILL_STAT_pending k.die 0 (d.rd F.SYNC_SPILL_STAT_pending k.die 0 - 1)
        d.makeResident r0

/-- SPILL_FETCH_TIMEOUT (R182): a fetch not returned within 4 µs aborts its chunk with code 4. -/
def Dev.spillTimeout (d : Dev) (k : ChunkKey) : Dev :=
  match d.chunk? k with
  | none => d
  | some r => if r.fetching then (d.syncErr k.die 4 r.group k.chunk).abortChunk r 2 else d

end Sys2Proof.Machine
end

