-- ==== Sys2Proof/Machine/Collect.lean ====
section
/-! DEFINITION. Barriers (R196 to R198), crozier broadcasts (R199, R200, R358), the lichen commands (R212) and the
known-answer test (R168, R216, R217). -/

namespace Sys2Proof.Machine

-- Barriers --------------------------------------------------------------------------------------------------------------

/-- The payload of a barrier frame (Table 7.7). -/
def Dev.barrierPay (d : Dev) (die : Nat) (release abort : Bool) (gen barrier member weight step : Nat) : List Byte :=
  wordsPay [wmk [(63, 63, b2n release), (62, 62, b2n abort), (55, 48, gen), (47, 35, barrier), (34, 25, member),
    (24, 14, weight), (13, 0, step)], wmk [(63, 32, d.hallNs die)]]

/-- Sends a release to a counter's release group (R197, R198); its member and weight are free.
(DESIGN CHOICE, log 9) -/
def Dev.barrierRelease (d : Dev) (b : Nat) (abort : Bool) (step : Nat) : Dev :=
  let die := b / 4096
  let i := b % 4096
  let mark := (Config.releaseMark d.freeCtr).toNat
  let pay := d.barrierPay die true abort (d.rd F.SYNC_BAR_STAT_generation die i) b (mark % 1024) (mark / 1024) step
  let f := d.mkFrame die 3 7 (d.rd F.SYNC_BAR_CFG_block die i) (d.rd F.SYNC_BAR_TGT_group die i) d.freeSeq 0x04
    d.freeW3 pay
  d.originate die (.other die) f none

/-- Sends a counter's arrival to its parent (R197). (DEDUCED, log 51) -/
def Dev.barrierUp (d : Dev) (b step : Nat) : Dev :=
  let die := b / 4096
  let i := b % 4096
  let pay := d.barrierPay die false false (d.rd F.SYNC_BAR_STAT_generation die i) b (d.rd F.SYNC_BAR_CFG_own die i)
    (d.rd F.SYNC_BAR_CFG_expected die i) step
  let f := d.mkFrame die 3 7 (d.rd F.SYNC_BAR_CFG_block die i) (d.rd F.SYNC_BAR_TGT_parent_dfid die i) d.freeSeq 0
    d.freeW3 pay
  d.originate die (.other die) f none

/-- A counter's vector and weight clear and its generation advances modulo 256 (R197). -/
def Dev.barrierNext (d : Dev) (b : Nat) : Dev :=
  let die := b / 4096
  let i := b % 4096
  let d := { d with sy := { d.sy with barVec := smErase d.sy.barVec b } }
  (d.wr F.SYNC_BAR_STAT_generation die i (d.rd F.SYNC_BAR_STAT_generation die i + 1)).wr F.SYNC_BAR_STAT_weight die i 0

/-- The lowest member not in a vector. -/
def lowestMissing (v : BarVec) : Nat := ((List.range 1024).find? fun m => !v.getLsbD m).getD 0

/-- A counter released with abort (R198): release to the group, event, generation advanced. -/
def Dev.barrierAbort (d : Dev) (b : Nat) : Dev :=
  let die := b / 4096
  let v : BarVec := smGet d.sy.barVec b 0
  let step := (Config.releaseStep d.freeCtr).toNat
  let d := ((d.fresh.1).barrierRelease b true step).evtCnt .SYNC die 10
  (d.barrierNext b).event .SYNC die 9 (wmk [(63, 51, b), (50, 41, lowestMissing v)]) 0

/-- An uncorrectable error in a barrier counter: code 6, released with abort (Table 7.10). -/
def Dev.barrierError (d : Dev) (b : Nat) : Dev :=
  (d.logErr .SYNC (b / 4096) 6 (wmk [(28, 16, b)])).barrierAbort b

/-- A barrier arrival addressed to this device (R197); `die` is the ingress die. (DEDUCED, log 52) -/
def Dev.barrierArrive (d : Dev) (die port : Nat) (f : Frame) : Dev :=
  let b0 := payWord f.payload 0
  let gen := fget b0 55 48
  let b := fget b0 47 35
  let member := fget b0 34 25
  let weight := fget b0 24 14
  let cd := b / 4096
  let i := b % 4096
  let v : BarVec := smGet d.sy.barVec b 0
  let have_ := d.rd F.SYNC_BAR_STAT_weight cd i
  let want := d.rd F.SYNC_BAR_CFG_expected cd i
  if !d.dieRuns cd then d.dropSync die 8 port f
  else if weight = 0 || 1024 < weight || wbit b0 63 || !d.on F.SYNC_BAR_CFG_valid cd i
      || f.block ≠ d.rd F.SYNC_BAR_CFG_block cd i
      || gen ≠ d.rd F.SYNC_BAR_STAT_generation cd i || v.getLsbD member || want < have_ + weight then
    d.dropSync cd 8 port f
  else
    let d := d.oweFrame (.port port) f.cls f.len
    let d := { d with sy := { d.sy with barVec := smInsert d.sy.barVec b (v ||| BitVec.twoPow 1024 member) } }
    let d := (d.wr F.SYNC_BAR_STAT_weight cd i (have_ + weight)).wr F.SYNC_BAR_STAT_last cd i member
    if have_ + weight ≠ want then d
    else
      let step := fget b0 13 0
      let d := if d.on F.SYNC_BAR_TGT_parent cd i then d.barrierUp b step
        else (d.barrierRelease b false step).evtCnt .SYNC cd 9
      d.barrierNext b

/-- BARRIER_TIMEOUT (R198): the timer of a counter with arrivals expires. -/
def Dev.barrierTimeout (d : Dev) (b : Nat) : Dev :=
  let die := b / 4096
  let i := b % 4096
  if d.dieRuns die && d.on F.SYNC_BAR_CFG_valid die i && d.rd F.SYNC_BAR_STAT_weight die i != 0 then d.barrierAbort b
  else d

-- Crozier ---------------------------------------------------------------------------------------------------------------

/-- Ports of a crozier tree (R199). -/
def Dev.crzPorts (d : Dev) (die block tree : Nat) : List Nat :=
  d.bitmapPorts fun w => d.rdw .SYNC_CRZ_DATA die ((block * 4 + tree) * 16 + w)

/-- Copies a broadcast to ports (R199): a copy toward a port on a die where the job block is not admitted is dropped and
counted there (R311), one toward a port that is down is dropped and counted. -/
def Dev.crzCopy (d : Dev) (die : Nat) (ports : List Nat) (f : Frame) : Dev :=
  let adm := ports.filter fun p => d.admitted (laneDie p) f.block
  let open_ := adm.filter fun p => d.portOpen die p
  let d := d.each (ports.filter fun p => !d.admitted (laneDie p) f.block) fun d p =>
    d.inc F.D2D_DROP_CNT_frames (laneDie p) 0 1
  let d := d.each (adm.filter fun p => !d.portOpen die p) fun d p => d.dropCnt .SWC die 5 (some p) (some f.cls)
  if open_.isEmpty then d else d.admitMulticast die (.other die) open_ f none

/-- A crozier replica (R66, R200): the arriving frame as this device originates it, its message sequence kept. -/
def Dev.crzReplica (d : Dev) (die : Nat) (f : Frame) : Frame :=
  { f with
    w0 := fput (fput (fput (fput f.w0 63 60 1) 52 51 0) 50 49 0) 48 48 (d.rd F.FWD_EPOCH_epoch die 0),
    w1 := fput (fput f.w1 63 40 (d.rd F.FWD_DEV_DFID_dfid die 0)) 19 0 0xFFFFF,
    w2 := fput f.w2 15 8 d.cfg.originHop }

/-- Keeps a message sequence among the last 64 of a job block (R200). -/
def Dev.crzRecord (d : Dev) (block seq : Nat) : Dev :=
  let l := smGet d.sy.crzSeen block []
  { d with sy := { d.sy with crzSeen := smInsert d.sy.crzSeen block ((seq :: l).take 64) } }

/-- Acknowledges a broadcast to its root (R200). -/
def Dev.crzAck (d : Dev) (die : Nat) (f : Frame) : Dev :=
  let c0 := payWord f.payload 0
  let pay := wordsPay [wmk [(63, 62, 1), (61, 60, fget c0 61 60), (59, 36, fget c0 59 36)],
    wmk [(63, 40, d.rd F.FWD_DEV_DFID_dfid die 0)]]
  d.originate die (.other die) (d.mkFrame die 5 7 f.block (fget c0 59 36) f.mseq 0 d.freeW3 pay) none

/-- A type 5 frame on a port (R65, R199, R200): a broadcast is acknowledged and, when new, recorded, copied along its
tree and delivered; an acknowledgement to this device is counted, any other is routed to its root. Check 11 comes before the
form of the payload: no broadcast is to this device, any other kind is where its destination is the own DFID. -/
def Dev.crozier (d : Dev) (die port : Nat) (f : Frame) (followed : Bool) : Dev :=
  let c0 := payWord f.payload 0
  let kind := fget c0 63 62
  let ports := d.crzPorts die f.block (fget c0 61 60)
  let malformed := f.payload.length < 16 || 2 ≤ kind || (kind = 1 && f.payload.length ≠ 16)
  let toMe := kind ≠ 0 && f.dest = d.rd F.FWD_DEV_DFID_dfid die 0
  if f.hop = 0 && !toMe && (malformed || kind = 0) then d.dropParser port 11 f.cls f.len
  else if malformed then d.dropSync die 9 port f
  else if kind = 1 then
    if f.dest = d.rd F.FWD_DEV_DFID_dfid die 0 then
      let d := d.oweFrame (.port port) f.cls f.len
      if f.mseq = d.rd F.SYNC_CRZ_STAT_sequence die 0 then d.inc F.SYNC_CRZ_STAT_acks die 0 1
      else (d.wr F.SYNC_CRZ_STAT_sequence die 0 f.mseq).wr F.SYNC_CRZ_STAT_acks die 0 1
    else d.route die (.port port) f f.dest none followed
  else if ports.isEmpty then d.dropSync die 9 port f
  else
    let known := (smGet d.sy.crzSeen f.block []).contains f.mseq
    let d := (d.oweFrame (.port port) f.cls f.len).crzAck die f
    if known then d.evtCnt .SYNC die 11
    else (d.crzRecord f.block f.mseq).crzCopy die (ports.filter (· != port)) (d.crzReplica die f)

/-- CROZIER_ISSUE, the broadcast itself (R358, R405): the device as root records the sequence and copies the message to
every port of the tree. -/
def Dev.crzIssue (d : Dev) (die block tree seq : Nat) (body : List Byte) : Dev :=
  let own := d.rd F.FWD_DEV_DFID_dfid die 0
  let pay := wordsPay [wmk [(61, 60, tree), (59, 36, own)], 0] ++ body
  let f := d.mkFrame die 5 7 block own seq 0 d.freeW3 pay
  ((d.fresh.1).crzRecord block seq).crzCopy die (d.crzPorts die block tree) f

-- Lichen commands -------------------------------------------------------------------------------------------------------

/-- LICHEN_DIGEST_RECEIVE (R211, R212): a digest frame of the partner arrives on port `port`; it goes to the home die of
its slot group, or stays on the port's die where the home map names none. A frame on a port that is not the lichen port
of an enabled pair is ignored. -/
def Dev.lichenReceive (d : Dev) (port : Nat) (pay : List Byte) : Dev :=
  let pd := laneDie port
  if !d.on F.RED_LCH_CFG_enable pd 0 || d.rd F.RED_LCH_CFG_port pd 0 ≠ port then d
  else
    let g : Digest := ⟨payWord pay 0, payWord pay 1, payWord pay 2, payWord pay 3⟩
    let group := fget g.l0 47 32
    let die := if d.on F.SYNC_HOME_DATA_valid pd group then d.rd F.SYNC_HOME_DATA_die pd group else pd
    if d.dieRuns die then d.lichenArrive die false g else d

/-- LICHEN_PENDING_TIMEOUT (R212): a pending entry resolves as unpaired. -/
def Dev.lichenTimeout (d : Dev) (die group chunk step : Nat) : Dev :=
  match d.sy.lichen.find? fun x => x.die == die && x.group == group && x.chunk == chunk && x.step == step with
  | some e => d.lichenResolve e
  | none => d

-- Known-answer test ------------------------------------------------------------------------------------------------------

/-- A start of a known-answer test (R168): refused while the cell holds a unit or a test runs. (DEDUCED, log 57)
A resident spilled chunk lies in the array's window units, which no cell's count shows: it keeps no test out. (DESIGN CHOICE, log
191) -/
def Dev.katStart (d : Dev) (die : Nat) : Dev :=
  let a := d.rd F.RED_KAT_CTRL_array die 0
  let c := d.rd F.RED_KAT_CTRL_cell die 0
  if d.on F.RED_KAT_STAT_busy die 0 || d.rd F.RED_CELL_STAT_free die (cellIdx a c) ≠ 24 then
    d.wr F.RED_KAT_STAT_last die 0 3
  else d.wr F.RED_KAT_STAT_busy die 0 1

/-- KNOWN_ANSWER_TEST_DONE (R216, R217): the cell delivers its output payload, which is compared with the reference
unit's. At a shedding step the test stays busy. (DESIGN CHOICE, log 58) -/
def Dev.katDone (d : Dev) (die : Nat) (out : List Byte) : Dev :=
  if !d.on F.RED_KAT_STAT_busy die 0 || 1 ≤ d.shed then d
  else
    let a := d.rd F.RED_KAT_CTRL_array die 0
    let c := d.rd F.RED_KAT_CTRL_cell die 0
    let good := out == katReference (d.rd F.RED_KAT_CTRL_format die 0) (d.rd F.RED_KAT_CTRL_op die 0)
      (d.on F.RED_KAT_CTRL_exact die 0) (d.rd F.RED_KAT_CTRL_contrib die 0 + 1) (d.rd F.RED_KAT_CTRL_seed die 0)
    let d := (d.wr F.RED_KAT_STAT_busy die 0 0).inc F.RED_KAT_STAT_runs die 0 1
    if good then d.wr F.RED_KAT_STAT_last die 0 1
    else
      ((d.wr F.RED_KAT_STAT_last die 0 2).inc F.RED_KAT_STAT_fails die 0 1).logErrC .RED die 7
        (wmk [(47, 44, a), (43, 39, c)]) (some (die, a, some c))

end Sys2Proof.Machine
end

