-- ==== Sys2Proof/Machine/Datapath.lean ====
section
/-! DEFINITION. Frames from the parser to departure: parsing rules (2), logical resolution and the backing table (5), the end
of a transmission, the loss of a die's peer, settling of pinned mappings, audits (3). -/

namespace Sys2Proof.Machine

-- Parser rules (Tables 2.5 to 2.8) ----------------------------------------------------------------------------------------------

/-- The payload rule of Table 2.5. -/
def payloadOk (ftype n : Nat) : Bool :=
  match ftype with
  | 0 | 5 => n ≤ 4096
  | 1 => 64 ≤ n && n ≤ 4096 && n % 64 == 0
  | 2 => n ≤ 4096 && n % 64 == 0
  | 3 | 6 | 8 => n == 16
  | 4 => n == 64
  | 7 => n == 0
  | _ => n == 32

/-- The class rule of Table 2.5. -/
def classOk (ftype cls : Nat) : Bool := if ftype = 0 then cls ≤ 5 else if ftype ≤ 2 then cls == 6 else cls == 7

/-- Whether a type is link-local (R45). -/
def linkLocal (ftype : Nat) : Bool := ftype == 4 || ftype == 8 || ftype == 9

/-- The flag rules of Table 2.6 and R48. -/
def flagsOk (f : Frame) : Bool :=
  let t := f.ftype
  if linkLocal t then f.flags == 0
  else
    (!f.flag 0 || ((t == 0 || t == 6) && !f.flag 2)) &&
    (if t = 7 then f.flag 2 else (!f.flag 2 || t == 0 || t == 2 || t == 3)) &&
    (f.flag 3 == (t == 6)) && (!f.flag 4 || t == 1) && (f.flag 5 == (t == 1 && f.fmt == 12)) &&
    (f.flag 6 == (t == 2)) && (f.flag 7 == (t == 7))

/-- The reduction field rules of R49. -/
def redFieldsBad (f : Frame) : Bool :=
  (f.ftype == 1 || f.ftype == 2 || f.ftype == 7) &&
  (13 ≤ f.fmt || 6 ≤ f.redop || (3 ≤ f.redop && 2 ≤ f.fmt) || (f.fmt == 12 && (f.redop != 0 || !f.exact)) ||
    (f.fmt == 12 && f.ftype != 1))

/-- The first check of Table 2.8, up to check 10, that a received frame fails; `blocks` is the ingress port's job block
mask (R56). -/
def parserReason (bs : List Byte) (blocks : Word) : Option Nat :=
  let n := bs.length
  let f := parseFrame bs
  if n < 36 || 4132 < n then some 1
  else if leNat (bs.drop (n - 4)) ≠ crc32c (bs.take (n - 4)) then some 2
  else if f.version ≠ 1 then some 3
  else if 10 ≤ f.ftype then some 4
  else if f.paylen ≠ n - 36 || !payloadOk f.ftype (n - 36) then some 5
  else if !classOk f.ftype f.cls then some 6
  else if !flagsOk f then some 7
  else if redFieldsBad f then some 8
  else if f.flag 2 && 65536 ≤ f.dest then some 9
  else if !linkLocal f.ftype && !wbit blocks f.block then some 10
  else none

-- Lookup (R119, R125 to R127) ---------------------------------------------------------------------------------------------------

/-- A frame to this device (Table 2.5, R65): contributions and barrier arrivals act here; data has no route (R45). Table 2.5
does not say what becomes of a unicast result or congestion echo to this device: it is dropped as no route too.
(DESIGN CHOICE, log 158) -/
def Dev.toDevice (d : Dev) (die port : Nat) (f : Frame) (followed : Bool) : Dev :=
  if f.ftype = 1 then d.contribute die port f followed
  else if f.ftype = 3 then d.barrierArrive die port f
  else d.dropFwd die 1 (.port port) f

/-- Steps 5 and 6 of R119 for a frame whose destination stays as it arrived: to this device, or by its route. -/
def Dev.byDfid (d : Dev) (die port : Nat) (f : Frame) (followed : Bool) : Dev :=
  if f.dest = d.rd F.FWD_DEV_DFID_dfid die 0 then d.toDevice die port f followed
  else d.route die (.port port) f f.dest none followed

/-- A frame whose key has an on-die or fetched entry (R53, R125). `f.dest` is the destination as the frame arrived. -/
def Dev.byEntry (d : Dev) (die port : Nat) (f : Frame) (e : LogEntry) (followed : Bool) : Dev :=
  if e.poisoned then d.dropFwd die 4 (.port port) f
  else if e.kind = 3 then d.byDfid die port f followed
  else
    let f' := { f with w0 := fput f.w0 41 18 e.dfid }
    if e.dfid = d.rd F.FWD_DEV_DFID_dfid die 0 then d.toDevice die port f' followed
    else d.sendTarget die (.port port) e.tkind e.target f' f.dest none followed

/-- Cells of a die's miss buffer in use (R126). -/
def Dev.missCells (d : Dev) (die : Nat) : Nat :=
  ((d.fw.miss.filter fun p => p.die == die).map fun p => creditsFor p.frame.len).sum

/-- Keys of a die awaiting a backing fetch (R126). -/
def Dev.missKeys (d : Dev) (die : Nat) : Nat := (d.fw.fetches.filter fun p => p.1 == die).length

/-- Parks a frame whose key missed the on-die table (R126), or routes it at once where R127 says so. -/
def Dev.park (d : Dev) (die port key : Nat) (f : Frame) (followed : Bool) : Dev :=
  let pending := d.fw.fetches.contains (die, key)
  if !d.keyUp die key || 2048 < d.missCells die + creditsFor f.len || (!pending && 256 ≤ d.missKeys die) then
    (d.evtAt .FWD die 8 (some port) (some f.cls) 1).byDfid die port f followed
  else
    let d := d.cntPC ⟨die, 0⟩ 4 (some port) (some f.cls) 1
    { d with fw := { d.fw with miss := d.fw.miss ++ [⟨die, port, key, f⟩],
                               fetches := if pending then d.fw.fetches else d.fw.fetches ++ [(die, key)] } }

/-- Logical resolution (step 4 of R119). (DEDUCED, log 41) -/
def Dev.resolve (d : Dev) (die port : Nat) (f : Frame) (followed : Bool) : Dev :=
  let key := logKey f.block f.dstRank
  let d := d.readKey die key
  match d.findLog die key with
  | some (_, e) => (d.cntPC ⟨die, 0⟩ 3 (some port) (some f.cls) 1).byEntry die port f e followed
  | none => d.park die port key f followed

/-- The lookup stage for a frame that the parser lets pass and that is neither link-local nor a crozier frame (R119). -/
def Dev.lookup (d : Dev) (die port : Nat) (f : Frame) (followed : Bool) : Dev :=
  let d := d.cntPC ⟨die, 0⟩ 1 (some port) (some f.cls) 1
  if d.fenced die f then d.dropFwd die 0 (.port port) f
  else
    let d := d.learn port f
    if f.flag 2 then d.multicast die (.port port) f none
    else if f.flag 0 then d.resolve die port f followed
    else d.byDfid die port f followed

/-- An error that stands in a stored word and that the command now meets (R143, R164, Table 4.7). -/
def Dev.plant (d : Dev) (die : Nat) (m : MemFault) : Dev :=
  match m with
  | .filter bank bad =>
    if bad then
      ({ d with fw := { d.fw with rebuild := smInsert d.fw.rebuild (die * 2 + bank.val) true } } : Dev).logErr .FWD die 2 0
    else d.cnt ⟨die, 0⟩ 5
  | .route bank pos bad =>
    let k := rtKey die bank.val 0 0 + pos.val
    match smFind d.fw.routes k with
    | some e => { d with fw := { d.fw with routes := smInsert d.fw.routes k { e with flip := if bad then 2 else 1 } } }
    | none => d
  | .logical pos bad =>
    let k := lgBase die + pos.val
    match smFind d.fw.logical k with
    | some e => { d with fw := { d.fw with logical := smInsert d.fw.logical k { e with flip := if bad then 2 else 1 } } }
    | none => d
  | .descriptor h n bad =>
    { d with sy := { d.sy with descFlip := smInsert d.sy.descFlip (h.val * 32768 + n.val) (if bad then 2 else 1) } }
  | .chunk h n c s bad =>
    match d.chunk? ⟨h.val, n.val, c.val, s.val⟩ with
    | some r => d.putChunk { r with recFlip := if bad then 2 else 1 }
    | none => d
  | .barrier b => d.barrierError b.val
  | .meter m =>
    ({ d with tm := { d.tm with meters := smErase d.tm.meters (die * 4096 + m.val) } } : Dev).logErr .TM die 3
      (wmk [(9, 0, m.val % 1024)])

/-- A frame that passed the parser and is not link-local. -/
def Dev.accept (d : Dev) (die port : Nat) (f : Frame) (followed : Bool) : Dev :=
  if !d.admitted die f.block then d.dropAdmit die (.port port) f
  else if f.ftype = 5 then d.crozier die port f followed
  else d.lookup die port f followed

-- Backing fetches (R126, R127, R143) --------------------------------------------------------------------------------------------

/-- Ends the fetch of a key: its parked frames leave the miss buffer, oldest first. -/
def Dev.endFetch (d : Dev) (die key : Nat) : Dev × List Parked :=
  let mine := fun (p : Parked) => p.die == die && p.key == key
  ({ d with fw := { d.fw with miss := d.fw.miss.filter fun p => !mine p,
                              fetches := d.fw.fetches.filter fun p => p != (die, key) } },
    d.fw.miss.filter mine)

/-- BACKING_FETCH_RETURN (R126, R143): the fetch of a die's key returns. The result is installed on both dies unless an
on-die entry has appeared meanwhile; the parked frames go in arrival order. (DEDUCED, log 40) -/
def Dev.fetchReturn (d : Dev) (die key : Nat) (fault : FetchFault) : Dev :=
  if !d.fw.fetches.contains (die, key) || !d.keyUp die key then d else
  let (d, parked) := d.endFetch die key
  let back := d.findBack die key
  let d := d.cntPC ⟨2, 4⟩ 1 none none 4
  let flip := match back with
    | some (_, e) => e.flip
    | none => 0
  let bad := back.isSome && (fault = .bad || flip = 2)
  let d := if fault = .corrected || flip = 1 then d.cnt ⟨2, 4⟩ 3 else d
  let d := if bad then d.logErr .FWD die 1 (BitVec.ofNat 64 key) else d
  let d := match back with
    | some (p, e) => { d with fw := { d.fw with
        backing := smInsert d.fw.backing p { e with poisoned := e.poisoned || bad, flip := 0 } } }
    | none => d
  let d := d.evtCnt .FWD die (if back.isSome then 6 else 7)
  let new : LogEntry := match back with
    | some (_, e) => { e with poisoned := e.poisoned || bad, kind := 2, ts := d.ageTick die, flip := 0 }
    | none => { poisoned := false, kind := 3, tkind := 0, target := 0, dfid := 0, block := key / 1048576,
                rank := key % 1048576, ts := d.ageTick die, flip := 0 }
  let d := d.readKey die key
  match d.findLog die key with
  | some (_, e) => d.each parked fun d p => let (d, fl) := d.packFree; d.byEntry die p.port p.frame e fl
  | none =>
    let d := d.each parked fun d p => let (d, fl) := d.packFree; d.byEntry die p.port p.frame new fl
    match d.insertLog die new with
    | (_, 2) => d
    | (d, _) => d.sendChange die key (some new) false

/-- BACKING_FETCH_TIMEOUT (R127): a fetch not returned within 2 µs ends as unavailable. -/
def Dev.fetchTimeout (d : Dev) (die key : Nat) : Dev :=
  if !d.fw.fetches.contains (die, key) then d else
  let (d, parked) := d.endFetch die key
  let d := d.logErr .FWD die 3 (BitVec.ofNat 64 key)
  d.each parked fun d p =>
    let (d, fl) := d.packFree
    d.byDfid die p.port p.frame fl

-- Departure (R64, R69, R113, R186) ----------------------------------------------------------------------------------------------

/-- A transmit side that has sent nothing. (DEDUCED, log 62) -/
def TxLink.fresh : TxLink :=
  { replay := [], cursor := none, rounds := 0, stream := [], since := 15, idleCmd := false, blocks := 0, exit := 0 }

/-- A frame ends in transmission at a port (R64, R69, R113): it goes to the lanes with its trailer, stomped or not.
(DEDUCED, log 28; DEDUCED, log 60) -/
def Dev.frameOut (d : Dev) (port : Nat) (x : Desc) (stomp : Bool) : Dev :=
  let f := if x.origin.port?.isSome then Frame.departed x.frame else x.frame
  let e := laneDie port
  let l := d.ln.tx
  let t := smGet l port TxLink.fresh
  let d := { d with ln := { d.ln with tx := smInsert l port { t with stream := t.stream ++ wireBytes f stomp } } }
  ((d.emit (.frame port f stomp)).cntPC ⟨e, 2⟩ 1 (some port) (some x.cls) 1).cntPC ⟨e, 2⟩ 2 (some port) (some x.cls) f.len

/-- A frame counted and logged as sent with a stomped trailer (R69). -/
def Dev.countStomp (d : Dev) (port : Nat) (x : Desc) : Dev :=
  (d.dropCnt .SWC x.die 9 (some port) (some x.cls)).logErr .SWC x.die 6
    (swcDetail (errReq x.origin x.cls) (cellNo (x.cells.headD 0)))

/-- Ends a port's transmission: staging cells leave, the ingress die's cells are read, the admission count falls. -/
def Dev.endTx (d : Dev) (port : Nat) (t : Tx) : Dev :=
  let e := laneDie port
  let x := t.desc
  let d := { d with sw := { d.sw with tx := smErase d.sw.tx port } }
  let d := d.dec F.SWC_STAGE_STAT_in_use e 0 t.staged
  let d := match x.mrec with
    | some id => d.recordDone x.die id (some port) (some x.cls)
    | none => if x.die = e then d.each x.cells fun d k => d.unrefCell k (some port) (some x.cls) else d
  (d.admFall x).satSweep

/-- FRAME_DEPARTURE (R64, R69, R73, R113, R186): the last bit of the frame in transmission at a port leaves. A frame from
the other die leaves only when all its cells are in staging (R83); during hold none leaves (R327). A corrupt result copy leads to its retract. -/
def Dev.frameDeparture (d : Dev) (port : Nat) (fault : CellFault) : Dev :=
  match smFind d.sw.tx port with
  | none => d
  | some t =>
    let x := t.desc
    if 5 ≤ d.shed || (x.die ≠ laneDie port && t.staged < x.cells.length) then d
    else
      let words := (if x.flip = 1 then x.flips else 0) + match fault with
        | .corrected n => n.val
        | _ => 0
      let bad := x.flip = 2 || fault = .bad
      let d := if words = 0 then d else d.cntPC ⟨x.die, 1⟩ 6 (some port) (some x.cls) words
      let d := (d.frameOut port x (bad || t.stomp)).endTx port t
      match bad, x.result with
      | true, some k =>
        let d := match d.chunk? k with
          | some r => d.retract r fun d => d.syncErr k.die 5 r.group k.chunk
          | none => d.syncErr k.die 5 (d.dsc k.die k.desc).group k.chunk
        d.copyDone x.result true
      | _, _ =>
        let d := if bad then d.countStomp port x else d
        d.copyDone x.result true

-- Loss of the peer die (R84) ----------------------------------------------------------------------------------------------------

/-- A frame whose cells all lie in staging when its ingress die is lost: it leaves whole, and nothing of the ingress die follows it. -/
def Tx.detached (t : Tx) (die : Nat) : Tx :=
  { t with desc := { t.desc with die := die, cells := [], mrec := none, stamp := none, result := none } }

/-- What a die that loses its peer does about the frames it was sending there (R84): the queues are flushed, and the cells of a frame
that the peer was pulling, or had not acknowledged, are freed, each frame counted under reason 8. A frame that has crossed whole is
done here. (DEDUCED, log 185) -/
def Dev.loseSend (d : Dev) (die : Nat) : Dev :=
  let lost := 1 - die
  let d := d.flush (fun x => x.die == die && x.dest.die == lost) 8
  let pulled := d.sw.tx.filter fun e => e.2.desc.die == die && laneDie e.1 == lost
  let cut := pulled.filter fun e => e.2.staged < e.2.desc.cells.length
  let d := { d with sw := { d.sw with tx := d.sw.tx.filter fun e =>
    !(e.2.desc.die == die && laneDie e.1 == lost) || d.dieRuns lost } }
  let d := d.each pulled fun d e =>
    let x := e.2.desc
    if e.2.staged < x.cells.length then d.discard { x with cells := if x.mrec.isSome then x.cells else x.cells.drop e.2.staged } 8
    else ((d.releaseCells { x with cells := [] }).admFall x).copyDone x.result true
  let acks := d.sw.acks.filter fun a => a.die == die
  let d := { d with sw := { d.sw with acks := d.sw.acks.filter fun a => a.die != die } }
  let whole := ((acks.map fun a => (a.frame, a.cls)).eraseDups).filter fun a => !cut.any fun e => e.2.desc.id == a.1
  let d := d.each whole fun d a => d.dropCnt .SWC die 8 none (some a.2)
  (d.each acks fun d a => d.unrefCell a.cell a.port (some a.cls)).satSweep

/-- What a die that loses its peer does about the frames it was pulling from there (R84): one in transmission without all its cells
ends with a stomped trailer, reason 9; one whose first cell has not come is discarded, reason 8, unless the peer, which runs, counts
it. One that lies in staging whole is sent. (DEDUCED, log 185) -/
def Dev.loseRecv (d : Dev) (die : Nat) : Dev :=
  let lost := 1 - die
  let pulled := d.sw.tx.filter fun e => e.2.desc.die == lost && laneDie e.1 == die
  d.each pulled fun d e =>
    let x := e.2.desc
    if e.2.desc.cells.length ≤ e.2.staged then { d with sw := { d.sw with tx := smInsert d.sw.tx e.1 (e.2.detached die) } }
    else
      let d := { d with sw := { d.sw with tx := smErase d.sw.tx e.1 } }
      if e.2.staged = 0 then (if d.dieRuns lost then d else d.dropCnt .SWC die 8 (some e.1) (some x.cls))
      else
        let d := (d.frameOut e.1 x true).dropCnt .SWC die 9 (some e.1) (some x.cls)
        (d.dec F.SWC_STAGE_STAT_in_use die 0 e.2.staged).satSweep

/-- The loss of the path between the core dies (R84, R301): each die that runs acts on what it was sending, then on what it was
pulling. -/
def Dev.losePeer (d : Dev) (die : Nat) : Dev :=
  let ds := [die, 1 - die].filter d.dieRuns
  (d.each ds Dev.loseSend).each ds Dev.loseRecv

-- Settling (R95) --------------------------------------------------------------------------------------------------------------------

/-- PINNED_MAPPING_SWITCH (R95): the pair of an origin and a bundle takes its new mapping once its VOQs are empty. -/
def Dev.mappingSwitch (d : Dev) (o : Origin) (b : Nat) : Dev :=
  if d.pairBusy o b then d
  else { d with sw := { d.sw with oldMap := smErase d.sw.oldMap (rrKey o b) } }

/-- A write to SWC_BND_CMD (R95): settling of a bundle ends at once for the ingress ports of a die. -/
def Dev.endSettling (d : Dev) (die b : Nat) : Dev :=
  { d with sw := { d.sw with oldMap := d.sw.oldMap.filter fun e =>
      !(e.1 % 1024 == b && originDie (e.1 / 1024) == die) } }

-- Audit (R85 to R87) ------------------------------------------------------------------------------------------------------------------

/-- AUDIT_PASS_START (R85, R86): marks are cleared, the list of the previous pass too. -/
def Dev.auditStart (d : Dev) (die : Nat) : Dev :=
  if d.on F.SWC_AUDIT_STAT_busy die 0 || !d.dieRuns die then d
  else
    let cells := d.sw.cells.map fun e => if e.1 / 1048576 == die then (e.1, { e.2 with mark := false }) else e
    let d := { d with sw := { d.sw with cells := cells } }
    (d.each (List.range 64) fun d i => d.wrw .SWC_AUDIT_LEAK die i 0).wr F.SWC_AUDIT_STAT_busy die 0 1

/-- The cells of a die that a queue, record, open cell, staging window or acknowledgement refers to (R85). -/
def Dev.reached (d : Dev) (die : Nat) : List Nat :=
  ((d.sw.queue.flatMap (·.cells) ++ d.sw.tx.flatMap (·.2.desc.cells) ++ d.sw.mrecs.flatMap (·.2.cells) ++
    d.sw.opens.map (·.2.1) ++ d.sw.acks.map (·.cell)).eraseDups).filter fun k => k / 1048576 == die

/-- Reports a leaked cell (R86); `n` is its place among the leaks of this pass. -/
def Dev.reportLeak (d : Dev) (die n k owner : Nat) : Dev :=
  let d := d.logErr .SWC die 5 (swcDetail owner (cellNo k))
  if n < 64 then d.wrw .SWC_AUDIT_LEAK die n (wmk [(63, 63, 1), (28, 19, owner), (18, 0, cellNo k)]) else d

/-- AUDIT_PASS_END (R85, R86): the walk is complete. A cell unmarked in two passes in a row is a leak; in quiet mode the
owner counts are compared. -/
def Dev.auditEnd (d : Dev) (die : Nat) : Dev :=
  if !d.on F.SWC_AUDIT_STAT_busy die 0 || !d.dieRuns die then d
  else
    let seen := d.reached die
    let mine := d.sw.cells.filter fun e => e.1 / 1048576 == die
    let leaks := mine.filter fun e => !seen.contains e.1 && !e.2.mark && e.2.suspect
    let cells := d.sw.cells.map fun e => if e.1 / 1048576 == die then
        let m := e.2.mark || seen.contains e.1
        (e.1, { e.2 with mark := m, suspect := !m })
      else e
    let d := { d with sw := { d.sw with cells := cells } }
    let d := d.each ((List.range leaks.length).zip leaks) fun d l => d.reportLeak die l.1 l.2.1 l.2.2.owner
    let d := (d.wr F.SWC_AUDIT_STAT_leaks die 0 leaks.length).incWrap F.SWC_AUDIT_STAT_passes die 0 1
    let d := d.wr F.SWC_AUDIT_STAT_busy die 0 0
    if !d.on F.SWC_AUDIT_CTRL_quiet die 0 then d
    else
      let off := (List.range 912).filter fun q =>
        (mine.filter fun e => !isCtl e.1 && e.2.owner == q).length != d.rd F.SWC_REQ_STAT_in_use die q
      let d := d.each off fun d q => d.logErr .SWC die 4 (swcDetail q 0)
      d.wr F.SWC_AUDIT_STAT_mismatch die 0 (b2n !off.isEmpty)

/-- A write of 1 to SWC_AUDIT_RECLAIM (R87): each listed cell still allocated and unmarked is freed. -/
def Dev.auditReclaim (d : Dev) (die : Nat) : Dev :=
  d.each (List.range 64) fun d i =>
    let w := d.rdw .SWC_AUDIT_LEAK die i
    let k := cellOf die (fget w 18 0)
    if !wbit w 63 then d
    else match smFind d.sw.cells k with
      | some c => if c.mark then d else (d.freeCell k none none).inc F.SWC_AUDIT_RECLAIM_reclaimed die 0 1
      | none => d

end Sys2Proof.Machine
end

