-- ==== Sys2Proof/Machine/OeBase.lean ====
section
/-! DEFINITION. Fibres, wavelengths and the substitution state of an engine (R219, R220, R227 to R234), as far as the
link layer needs them: starting a substitution or a revert, and what a retraining link does to a negotiation. -/

namespace Sys2Proof.Machine

/-- A quotient rounded down or, where the manual does not say how it rounds, up: a free choice.
(DESIGN CHOICE, log 12) -/
def Dev.divFree (d : Dev) (a b : Int) : Int :=
  if a % b = 0 then a / b else a / b + (if Config.roundUp d.freeCtr then 1 else 0)

/-- The port that a lane belongs to, if any (R20). -/
def Dev.portOf (d : Dev) (lane : Nat) : Option Nat :=
  (d.cfg.ports.find? fun p => p.1 ≤ lane && lane < p.1 + p.2.width).map Prod.fst

/-- The lanes of a port. -/
def Dev.lanesOf (d : Dev) (port : Nat) : List Nat := (List.range (d.portWidth port)).map (port + ·)

/-- Whether a lane lies in an electrical attachment group (R19); for a port, its first lane. -/
def Dev.electrical (d : Dev) (port : Nat) : Bool :=
  match smFind d.cfg.groups (port / 4) with
  | some g => g.electrical
  | none => false

/-- Whether a lane's attachment group is active and optical (R19). -/
def Dev.optical (d : Dev) (lane : Nat) : Bool :=
  match smFind d.cfg.groups (lane / 4) with
  | some g => !g.electrical
  | none => false

/-- The long-reach lane that a fabric lane of an electrical group uses, by core die (R262): lane 4g+i of group g joined to
long-reach group h uses long-reach lane 4h+i. -/
def Dev.longReachLane (d : Dev) (lane : Nat) : Option (Nat × Nat) :=
  match smFind d.cfg.groups (lane / 4) with
  | some g => if g.electrical then some (laneDie lane, 4 * g.longReach + lane % 4) else none
  | none => none

/-- Whether long-reach lane `l` (0-127) of a core die is joined to no attachment group and stays squelched (R262). -/
def Dev.squelched (d : Dev) (die l : Nat) : Bool :=
  !d.cfg.groups.any fun e => e.2.electrical && e.1 / 128 == die && e.2.longReach == l / 4

/-- The wavelength that carries a lane; 15 for a lane of an electrical group (R18, R19, R220). -/
def Dev.carryOf (d : Dev) (lane : Nat) : Nat :=
  if d.electrical lane then 15 else smGet d.oe.carry lane (lane % 8)

/-- Whether a bypass circuit takes a transmit fibre, by device fibre number (R247, R250). -/
def Dev.txTaken (d : Dev) (fib : Nat) : Bool := d.on F.BYP_OUT_active (fib / 32) (fib % 32)

/-- Whether a bypass circuit takes a receive fibre. -/
def Dev.rxTaken (d : Dev) (fib : Nat) : Bool := d.on F.BYP_IN_active (fib / 32) (fib % 32)

/-- Whether a bypass circuit takes a fibre of an optical port: such a port stays down (R250). -/
def Dev.taken (d : Dev) (port : Nat) : Bool := !d.electrical port && (d.txTaken (port / 8) || d.rxTaken (port / 8))

/-- State of a fibre in OE_SUB_STAT. -/
def Dev.fibState (d : Dev) (fib : Nat) : Nat :=
  fget (d.rdw .OE_SUB_STAT (fib / 8) 0) (4 * (fib % 8) + 3) (4 * (fib % 8))

/-- Sets the state of a fibre in OE_SUB_STAT. -/
def Dev.setFib (d : Dev) (fib v : Nat) : Dev :=
  d.wrw .OE_SUB_STAT (fib / 8) 0 (fput (d.rdw .OE_SUB_STAT (fib / 8) 0) (4 * (fib % 8) + 3) (4 * (fib % 8)) v)

/-- ERR_FIRST detail of an engine (Table 9.8). -/
def oeDetail (fib wl feed : Nat) : Word := wmk [(10, 8, fib % 8), (7, 4, wl), (0, 0, feed)]

/-- Counts an engine event and raises its record of kind 1. -/
def Dev.oeEvent (d : Dev) (e k : Nat) (detail : Word) : Dev := (d.evtCnt .OE e k).countEvent .OE e k detail

/-- Sends a substitution message on the link that holds a lane (Table 9.4). -/
def Dev.sendSub (d : Dev) (port kind seq op from_ to_ block : Nat) : Dev :=
  let s0 := wmk [(63, 56, kind), (55, 48, seq), (47, 44, op), (43, 40, from_), (39, 36, to_)]
  d.sendLocal port (d.mkLinkFrame (laneDie port) 4 (wordsPay ([s0, BitVec.ofNat 64 block] ++ List.replicate 6 0)))

/-- Replaces the requesting end's negotiation of a transmit fibre. -/
def Dev.setReq (d : Dev) (fib : Nat) (r : Option SubReq) : Dev :=
  { d with oe := { d.oe with req := match r with
    | some r => smInsert d.oe.req fib r
    | none => smErase d.oe.req fib } }

/-- Replaces the far end's negotiation of a receive fibre. -/
def Dev.setFar (d : Dev) (fib : Nat) (r : Option SubFar) : Dev :=
  { d with oe := { d.oe with far := match r with
    | some r => smInsert d.oe.far fib r
    | none => smErase d.oe.far fib } }

/-- Puts a lane on a wavelength. -/
def Dev.setCarry (d : Dev) (lane wl : Nat) : Dev :=
  { d with oe := { d.oe with carry := smSet d.oe.carry lane wl (lane % 8) } }

/-- The transmit fibres of an engine. -/
def fibresOf (e : Nat) : List Nat := (List.range 8).map (8 * e + ·)

/-- A signed 16-bit number. -/
def s16 (n : Nat) : Int := (BitVec.ofNat 16 n).toInt

/-- Key of a feed monitor. -/
def feedKey (e f w : Nat) : Nat := e * 32 + 9 * f + w

/-- Eight times the level of a feed monitor in 0.01 dB over the reference of its last mean (R223, Table 9.10); none until eight valid
samples in a row have arrived (R224). -/
def Dev.level8 (d : Dev) (e f w : Nat) : Option Int :=
  let l := smGet d.oe.feed (feedKey e f w) []
  if l.length < 8 then none else some (l.sum - 8 * smGet d.oe.ref (feedKey e f w) 0)

/-- Ends a commanded action of an engine, when one of the ops of `ops` runs (OE_CMD busy, Table 9.9). -/
def Dev.cmdEnd (d : Dev) (e : Nat) (ops : List Nat) : Dev :=
  if ops.contains (smGet d.oe.cmd e 0) then
    ({ d with oe := { d.oe with cmd := smErase d.oe.cmd e } } : Dev).wr F.OE_CMD_busy e 0 0
  else d

/-- Ends a substitution once every fibre is on spare, abandoned or skipped (R232), or a revert once no fibre reverts
(R234): the completion is counted and raised. -/
def Dev.subEnd (d : Dev) (e : Nat) : Dev :=
  let st := (fibresOf e).map d.fibState
  let wl := d.rd F.OE_STATE_sub_wl e 0
  let detail := oeDetail 0 wl (d.rd F.OE_STATE_feed e 0)
  let spare := st.any (· == 5)
  if d.rd F.OE_STATE_sub e 0 = 1 && st.all (fun n => 5 ≤ n && n ≤ 7) then
    ((d.wr F.OE_STATE_sub e 0 (if spare then 2 else 0)).cmdEnd e [1, 2]).oeEvent e 1 detail
  else if d.rd F.OE_STATE_sub e 0 = 3 && st.all (· != 8) then
    let d := (d.wr F.OE_STATE_sub e 0 (if spare then 2 else 0)).cmdEnd e [1, 2]
    (if spare then d else d.each (fibresOf e) fun d f => d.setFib f 0).oeEvent e 8 detail
  else d

/-- Opens one fibre's negotiation: the request leaves at once (step 1 of R231). -/
def Dev.openReq (d : Dev) (fib port op from_ to_ shown : Nat) : Dev :=
  let seq := (Config.subSeq d.freeCtr).toNat
  let d := d.fresh.1
  ((d.setFib fib shown).setReq fib (some ⟨seq, op, from_, to_, 1, false, false, 0⟩)).sendSub port 0x20 seq op from_ to_ 0

/-- SUBSTITUTION_START (R227, R229): the engine starts substituting λ8 for wavelength `k` on its eight fibres. A fibre whose lane
belongs to no port is skipped. (DESIGN CHOICE, log 196) -/
def Dev.subStart (d : Dev) (e k : Nat) : Dev :=
  let d := (d.wr F.OE_STATE_sub e 0 1).wr F.OE_STATE_sub_wl e 0 k
  let d := d.each (fibresOf e) fun d f =>
    let lane := 8 * f + k
    match d.portOf lane with
    | none => d.setFib f 7
    | some p =>
      if d.electrical p || d.txTaken f then d.setFib f 7
      else if d.linkUp p then d.openReq f p 0 k 8 1
      else (d.setCarry lane 8).setFib f 5
  d.subEnd e

/-- Whether λ8 can stand in (R227): no substitution in progress or active, and λ8 of the selected feed above -2.0 dB; a
monitor without a level keeps its ladder state (R224). -/
def Dev.spareFree (d : Dev) (e : Nat) : Bool :=
  d.rd F.OE_STATE_sub e 0 == 0 && (match d.level8 e (d.rd F.OE_STATE_feed e 0) 8 with
    | some v => decide (-1600 < v)
    | none => !wbit (BitVec.ofNat 64 (d.rd F.OE_STATE_fade e 0)) 8)

/-- OE_CMD op 2 (R234): moves every fibre on spare back to the substituted wavelength. -/
def Dev.subRevert (d : Dev) (e : Nat) : Dev :=
  let k := d.rd F.OE_STATE_sub_wl e 0
  let d := d.wr F.OE_STATE_sub e 0 3
  let d := d.each (fibresOf e) fun d f =>
    let lane := 8 * f + k
    if d.fibState f ≠ 5 then d
    else match d.portOf lane with
    | none => (d.setCarry lane k).setFib f 0
    | some p => if d.linkUp p then d.openReq f p 1 8 k 8 else (d.setCarry lane k).setFib f 0
  d.subEnd e

/-- A link that goes down or retrains ends the negotiation of its fibre (R233): the retraining uses the new wavelength.
The far end's negotiation over that link ends too. -/
def Dev.subRetrain (d : Dev) (port : Nat) : Dev :=
  let f := port / 8
  let mine := fun (wl : Nat) => (d.lanesOf port).contains (8 * f + wl)
  let d := match smFind d.oe.req f with
    | some r =>
      let wl := if r.op = 0 then r.from_ else r.to_
      if mine wl then
        (((d.setReq f none).setCarry (8 * f + wl) r.to_).setFib f (if r.op = 0 then 5 else 0)).subEnd (f / 8)
      else d
    | none => d
  match smFind d.oe.far f with
  | some r => if mine (if r.op = 0 then r.from_ else r.to_) then d.setFar f none else d
  | none => d

end Sys2Proof.Machine
end

