-- ==== Sys2Proof/Machine/Fec.lean ====
section
/-! DEFINITION. Line coding and the FEC block (R264 to R267): PAM4 symbols, precoding, RS(544,514) and the 1,285-byte message of
a block. -/

namespace Sys2Proof.Machine

-- Line coding (R264, R265) ------------------------------------------------------------------------------------------

/-- Symbol value of a bit pair, first bit more significant (Table 11.1); its own inverse. -/
def graySymbol (pair : Nat) : Nat := if pair % 4 = 2 then 3 else if pair % 4 = 3 then 2 else pair % 4

/-- Level of a symbol value (Table 11.1). -/
def symbolLevel (sym : Nat) : Int := 2 * (sym % 4 : Nat) - 3

/-- Precoded symbols: y = (x - previous y) mod 4, with 0 before the first (R265). -/
def precode : Nat → List Nat → List Nat
  | _, [] => []
  | y, x :: xs => (x + 4 - y) % 4 :: precode ((x + 4 - y) % 4) xs

/-- The receiver's inverse: x = (y + previous y) mod 4 (R265). -/
def unprecode : Nat → List Nat → List Nat
  | _, [] => []
  | p, y :: ys => (y + p) % 4 :: unprecode y ys

/-- The symbol values of bytes, each byte's first bit its most significant. (DESIGN CHOICE, log 168) -/
def pairsOf (bs : List Byte) : List Nat :=
  bs.flatMap fun b => let n := b.toNat; [n / 64, n / 16 % 4, n / 4 % 4, n % 4]

-- The field (R266) ----------------------------------------------------------------------------------------------------

/-- Twice an element of GF(2^10), whose field polynomial is x^10 + x^3 + 1. (PRESUMED, log 178) -/
def gfTwice (a : Nat) : Nat := if a < 512 then 2 * a else (2 * a) ^^^ 0x409

/-- The product by the low `n` bits of the second factor. -/
def gfMulLow : Nat → Nat → Nat → Nat
  | 0, _, _ => 0
  | n + 1, a, b => if a = 0 ∨ b = 0 then 0 else (if b % 2 = 1 then a else 0) ^^^ gfMulLow n (gfTwice a) (b / 2)

/-- Product in GF(2^10). -/
def gfMul (a b : Nat) : Nat := gfMulLow 10 a b

/-- Squares `n` times. -/
def gfSquares : Nat → Nat → Nat
  | 0, a => a
  | n + 1, a => gfSquares n (gfMul a a)

/-- The inverse: a^1022, the product of a^2, a^4, ..., a^512. -/
def gfInv (a : Nat) : Nat := (List.range 9).foldl (fun p i => gfMul p (gfSquares (i + 1) a)) 1

/-- Powers of the primitive element α = 2. -/
def gfAlpha : Nat → Nat
  | 0 => 1
  | n + 1 => gfTwice (gfAlpha n)

/-- Value of a polynomial, highest coefficient first. -/
def polyAt (p : List Nat) (x : Nat) : Nat := p.foldl (fun v c => gfMul v x ^^^ c) 0

/-- Sum of polynomials, lowest coefficient first. -/
def polyAdd : List Nat → List Nat → List Nat
  | [], q => q
  | p, [] => p
  | a :: p, b :: q => (a ^^^ b) :: polyAdd p q

/-- A polynomial times a constant. -/
def polyScale (k : Nat) (p : List Nat) : List Nat := p.map (gfMul k)

/-- Product of polynomials, lowest coefficient first. -/
def polyMul : List Nat → List Nat → List Nat
  | [], _ => []
  | a :: p, q => polyAdd (polyScale a q) (0 :: polyMul p q)

-- RS(544,514) (R266) ----------------------------------------------------------------------------------------------------

/-- The generator polynomial: the product of x - α^j for j from 0 to 29, lowest coefficient first.
(PRESUMED, log 178) -/
def rsGen : List Nat := (List.range 30).foldl (fun g j => polyMul g [gfAlpha j, 1]) [1]

/-- One step of the division of the message by the generator polynomial: `r` is the remainder, highest first. -/
def rsStep (g r : List Nat) (m : Nat) : List Nat :=
  let f := m ^^^ r.headD 0
  ((r.drop 1) ++ [0]).zipWith (fun a c => a ^^^ gfMul f c) g

/-- The 30 parity symbols of 514 message symbols, highest coefficient first. -/
def rsParity (m : List Nat) : List Nat :=
  let g := (rsGen.take 30).reverse
  m.foldl (rsStep g) (List.replicate 30 0)

/-- The codeword of 514 message symbols: the message, then the parity. -/
def rsEncode (m : List Nat) : List Nat := m ++ rsParity m

/-- The 30 syndromes of a received word. -/
def rsSyndromes (c : List Nat) : List Nat := (List.range 30).map fun j => polyAt c (gfAlpha j)

/-- The search for the error locator (Berlekamp and Massey): locator, the locator before its last change of length, its
discrepancy, the steps since, and the length. -/
structure Locator where
  cur : List Nat
  old : List Nat
  disc : Nat
  shift : Nat
  len : Nat
  deriving DecidableEq, Repr

/-- One step of the search, over syndrome `n`. -/
def Locator.next (s : List Nat) (l : Locator) (n : Nat) : Locator :=
  let d := (List.range (l.len + 1)).foldl (fun v i => v ^^^ gfMul (l.cur.getD i 0) (s.getD (n - i) 0)) 0
  if d = 0 then { l with shift := l.shift + 1 }
  else
    let new := polyAdd l.cur (List.replicate l.shift 0 ++ polyScale (gfMul d (gfInv l.disc)) l.old)
    if 2 * l.len ≤ n then ⟨new, l.cur, d, 1, n + 1 - l.len⟩ else { l with cur := new, shift := l.shift + 1 }

/-- The error locator polynomial of the syndromes, lowest coefficient first. -/
def rsLocator (s : List Nat) : Locator := (List.range 30).foldl (Locator.next s) ⟨[1], [1], 1, 1, 0⟩

/-- The errors that a locator gives: the power of α of each position and the value to add there (Forney). -/
def rsErrors (s : List Nat) (l : Locator) : List (Nat × Nat) :=
  let omega := (polyMul s l.cur).take 30
  let deriv := l.cur.drop 1 |>.mapIdx fun i c => if i % 2 = 0 then c else 0
  (List.range 544).filterMap fun i =>
    let inv := gfInv (gfAlpha i)
    if polyAt l.cur.reverse inv ≠ 0 then none
    else some (i, gfMul (gfAlpha i) (gfMul (polyAt omega.reverse inv) (gfInv (polyAt deriv.reverse inv))))

/-- Decodes a received word of 544 symbols: the corrected word and the number of symbols corrected, none where more than 15
are wrong (R266). (DEDUCED, log 68) -/
def rsDecode (c : List Nat) : Option (List Nat × Nat) :=
  let s := rsSyndromes c
  if s.all (· == 0) then some (c, 0)
  else
    let l := rsLocator s
    let es := rsErrors s l
    let fixed := c.mapIdx fun i x => match es.find? fun e => e.1 == 543 - i with
      | some e => x ^^^ e.2
      | none => x
    if l.len ≤ 15 && es.length == l.len && (rsSyndromes fixed).all (· == 0) then some (fixed, l.len) else none

-- The FEC block (R266, R267) ------------------------------------------------------------------------------------------

/-- Symbols of ten bits from bit pairs, first pair highest. -/
def tensOf : List Nat → List Nat
  | a :: b :: c :: d :: e :: rest => ((((a * 4 + b) * 4 + c) * 4 + d) * 4 + e) :: tensOf rest
  | _ => []

/-- The bit pairs of symbols of ten bits. -/
def pairsOfTens (ts : List Nat) : List Nat :=
  ts.flatMap fun t => [t / 256 % 4, t / 64 % 4, t / 16 % 4, t / 4 % 4, t % 4]

/-- Bytes from bit pairs. -/
def bytesOfPairs : List Nat → List Byte
  | a :: b :: c :: d :: rest => BitVec.ofNat 8 (((a * 4 + b) * 4 + c) * 4 + d) :: bytesOfPairs rest
  | _ => []

/-- Every second symbol from the first on: a codeword's part of an interleaved block. -/
def evens : List Nat → List Nat
  | a :: _ :: rest => a :: evens rest
  | l => l

/-- Symbol by symbol, the first list first. -/
def interleave : List Nat → List Nat → List Nat
  | a :: p, b :: q => a :: b :: interleave p q
  | _, _ => []

/-- The bit pairs of the FEC block of a message of 1,285 bytes: the message symbols go to codewords 0 and 1 in turn.
(DESIGN CHOICE, log 168) -/
def fecEncode (msg : List Byte) : List Nat :=
  let ts := tensOf (pairsOf msg)
  pairsOfTens (interleave (rsEncode (evens ts)) (rsEncode (evens (ts.drop 1))))

/-- The result of a codeword: symbols corrected, 16 where it is uncorrectable. -/
def fecCount (r : Option (List Nat × Nat)) : Nat := match r with
  | some x => x.2
  | none => 16

/-- The message of a received FEC block, if both codewords decode, and the result of each codeword. -/
def fecDecode (pairs : List Nat) : Option (List Byte) × Nat × Nat :=
  let ts := tensOf pairs
  let a := rsDecode (evens ts)
  let b := rsDecode (evens (ts.drop 1))
  (match a, b with
    | some x, some y => some (bytesOfPairs (pairsOfTens (interleave (x.1.take 514) (y.1.take 514))))
    | _, _ => none, fecCount a, fecCount b)

/-- Map code of a segment (Table 11.2). -/
def Seg.code : Seg → Nat
  | .data _ => 0
  | .last _ => 1
  | .ctl _ => 2
  | .idle => 3

/-- A segment's 128 bytes, zero bytes where it holds fewer; `idle` is the content of an idle segment.
(DESIGN CHOICE, log 169) -/
def Seg.bytes (idle : List Byte) (s : Seg) : List Byte :=
  let bs := match s with
    | .data b | .last b | .ctl b => b
    | .idle => idle
  (bs ++ List.replicate 128 0).take 128

/-- Header of a block (Table 11.2). -/
def blockHeader (seq ack : Nat) (segs : List Seg) : Word :=
  wmk ([(39, 30, seq), (29, 20, ack)] ++ segs.mapIdx fun i s => (2 * i + 1, 2 * i, s.code))

/-- The 1,285 message bytes of one lane's block (R267). -/
def blockMessage (idle : List Byte) (seq ack : Nat) (segs : List Seg) : List Byte :=
  (wordBytes (blockHeader seq ack segs)).drop 3 ++ segs.flatMap (Seg.bytes idle)

/-- Sequence, ack and segments of a message (R267). -/
def readMessage (m : List Byte) : Nat × Nat × List Seg :=
  let h := beNat (m.take 5)
  (h / 2 ^ 30, h / 2 ^ 20 % 1024, (List.range 10).map fun s =>
    let bs := (m.drop (5 + 128 * s)).take 128
    match h / 4 ^ s % 4 with
    | 0 => .data bs
    | 1 => .last bs
    | 2 => .ctl bs
    | _ => .idle)

/-- Corrupts `k` symbols of codeword 0 of an interleaved block from position `at_` on, each by a value that is not 0 (R291). -/
def corruptFec (k at_ : Nat) (by_ : Nat → Fin 1023) (pairs : List Nat) : List Nat :=
  pairsOfTens ((tensOf pairs).mapIdx fun i t =>
    let j := (i / 2 + 544 - at_ % 544) % 544
    if i % 2 = 0 && j < k then t ^^^ (by_ j).val + 1 else t)

end Sys2Proof.Machine
end

