-- ==== Sys2Proof/Machine/Patterns.lean ====
section
/-! DEFINITION. What a lane sends and checks outside link blocks: the test patterns (R290) with the inversions of pattern mode
(R291), the training stream (R280) and the waveform of an exit from idle (Table 11.9). -/

namespace Sys2Proof.Machine

-- Patterns ------------------------------------------------------------------------------------------------------------------

/-- Bits that a pseudo-random generator holds: 13 for PRBS13Q, 31 for PRBS31Q. -/
def prbsOrder (kind : Nat) : Nat := if kind = 1 then 13 else 31

/-- The next bit of a pseudo-random pattern after its last bits, the latest lowest: 1 + x + x^2 + x^12 + x^13 for PRBS13Q, 1 + x^28 +
x^31 inverted for PRBS31Q (R290: IEEE 802.3 Clause 120). (PRESUMED, log 69) -/
def prbsBit (kind st : Nat) : Nat :=
  if kind = 1 then (st + st / 2 + st / 2 ^ 11 + st / 2 ^ 12) % 2 else (1 + st / 2 ^ 27 + st / 2 ^ 30) % 2

/-- A generator's bits after one more. -/
def prbsPush (kind st b : Nat) : Nat := (2 * st + b) % 2 ^ prbsOrder kind

/-- Whether a generator's bits are the ones that repeat for ever. -/
def prbsStuck (kind st : Nat) : Bool := if kind = 1 then st == 0 else st == 2 ^ 31 - 1

/-- Where a generator begins in its pattern: a free place (R290 names none). (DESIGN CHOICE, log 202) -/
def patternStart (kind free : Nat) : Nat :=
  match kind with
  | 1 => Config.patternStart free % (2 ^ 13 - 1) + 1
  | 2 => Config.patternStart free % (2 ^ 31 - 1)
  | _ => 0

/-- The symbol of a pattern at a place, and the next place (R290): the place of a pseudo-random pattern is its last bits, that of
SSPRQ and of the square wave of levels -3 and +3 the symbols before it. -/
def patternNext (kind half place : Nat) : Nat × Nat :=
  match kind with
  | 4 => (if place / half % 2 = 0 then 0 else 3, place + 1)
  | 3 => ((Config.pattern place).val, place + 1)
  | _ =>
    let a := prbsBit kind place
    let mid := prbsPush kind place a
    let b := prbsBit kind mid
    (graySymbol (2 * a + b), prbsPush kind mid b)

-- Generator -----------------------------------------------------------------------------------------------------------------

/-- What the injection of pattern mode (R291) has left: the bits since the last inversion, and the inversions still to make. -/
structure InjRun where
  bits : Nat
  left : Option Nat
  deriving DecidableEq, Repr

/-- One bit of the generator: it is inverted once in `per` bits, while inversions are left. -/
def InjRun.bit (r : InjRun) (per : Nat) : InjRun × Bool :=
  if r.left = some 0 then (r, false)
  else if r.bits + 1 < per then ({ r with bits := r.bits + 1 }, false)
  else (⟨0, r.left.map (· - 1)⟩, true)

/-- A symbol with the inversions of its two bits. -/
def InjRun.symbol (r : InjRun) (per sym : Nat) : InjRun × Nat :=
  let (r, a) := r.bit per
  let (r, b) := r.bit per
  (r, graySymbol (graySymbol sym ^^^ (2 * b2n a + b2n b)))

/-- The generator's next `n` symbols from a place, and the place after them; `per` is 0 without injection. -/
def genSymbols (kind half per : Nat) : Nat → Nat → InjRun → InjRun × Nat × List Nat
  | 0, place, r => (r, place, [])
  | n + 1, place, r =>
    let x := patternNext kind half place
    let (r, s) := if per = 0 then (r, x.1) else r.symbol per x.1
    let q := genSymbols kind half per n x.2 r
    (q.1, q.2.1, s :: q.2.2)

-- Checker -------------------------------------------------------------------------------------------------------------------

/-- The two bits of a symbol after the Gray decode, the more significant first. -/
def symbolBits (s : Nat) : List Nat := [graySymbol s / 2, graySymbol s % 2]

/-- Runs received bits through a generator: its bits after them where every bit is the pattern's. -/
def prbsAgree (kind : Nat) : Nat → List Nat → Option Nat
  | st, [] => some st
  | st, b :: bs => if prbsBit kind st = b then prbsAgree kind (prbsPush kind st b) bs else none

/-- The place after 64 symbols that lie error-free in a pseudo-random pattern, which their first bits settle. -/
def prbsLock (kind : Nat) (w : List Nat) : Option Nat :=
  let bits := w.flatMap symbolBits
  let st := (bits.take (prbsOrder kind)).foldl (prbsPush kind) 0
  if prbsStuck kind st then none else prbsAgree kind st (bits.drop (prbsOrder kind))

/-- Whether 64 symbols lie error-free at a place of SSPRQ. -/
def patternFits (place : Nat) (w : List Nat) : Bool := w == (List.range 64).map fun i => (patternNext 3 0 (place + i)).1

/-- The place after 64 symbols that lie error-free in a pattern, if they do (R290). `own` is the place of the last of them where the
lane's own generator sent it; any other place in SSPRQ is a free one. (DESIGN CHOICE, log 202) -/
def patternLock (kind : Nat) (own : Option Nat) (w : List Nat) : Option Nat :=
  if w.length ≠ 64 then none
  else if kind = 3 then
    ((Config.patternPhase w :: (own.map (· - 63)).toList).find? fun p => patternFits p w).map (· + 64)
  else prbsLock kind w

/-- One received symbol at a checker (R290): 64 error-free symbols lock it; from then on bit errors count, after the Gray
decode. Answers the lock and the errors. -/
def PatCheck.take (c : PatCheck) (lock : Bool) (kind : Nat) (own : Option Nat) (s : Nat) : PatCheck × Bool × Nat :=
  if lock then
    let x := patternNext kind 0 c.next
    let e := graySymbol s ^^^ graySymbol x.1
    ({ c with next := x.2 }, true, e / 2 + e % 2)
  else
    let w := (c.window ++ [s]).drop (c.window.length + 1 - 64)
    match patternLock kind own w with
    | some p => (⟨[], p⟩, true, 0)
    | none => (⟨w, 0⟩, false, 0)

-- Training stream and exit waveform -----------------------------------------------------------------------------------------------

/-- Symbols of the square wave and of the whole waveform of an exit from idle: 200 ns and 912.3 ns at 726 symbols a tick of 6.4 ns
(Table 11.9, R263), rounded to a symbol. (DEDUCED, log 65) -/
def exitSquare : Nat := 22688
def exitWave : Nat := 103489

/-- The symbols of a training word (R280): its words in index order, each most significant byte first, in pairs of bits. -/
def wordSymbols (ws : List Word) : List Nat :=
  ws.flatMap fun w => (List.range 32).map fun i => graySymbol (w.toNat / 4 ^ (31 - i) % 4)

/-- Whether a training word begins within the next `n` symbols of a stream: the number of symbols before it. It begins at each
65,536th symbol from the first on, where it still fits before block 0. -/
def Wave.wordAt (w : Wave) (n : Nat) : Option Nat :=
  let k := (65536 - w.sent % 65536) % 65536
  let fits := match w.stop with
    | none => true
    | some e => w.sent + k + 256 < e
  if !w.exit && k < n && fits then some k else none

/-- The next symbol of a stream and the stream after it: what is left of a training word, the square wave of an exit, or the
pattern. -/
def Wave.next (w : Wave) : Nat × Wave :=
  match w.word with
  | s :: rest => (s, { w with word := rest, sent := w.sent + 1 })
  | [] =>
    if w.exit && w.sent < exitSquare then ((patternNext 4 16 w.sent).1, { w with sent := w.sent + 1 })
    else
      let x := patternNext (if w.exit then 1 else 2) 0 w.place
      (x.1, { w with place := x.2, sent := w.sent + 1 })

/-- The next `n` symbols of a stream, none past its end; `word` are the symbols of the training word that begins after `k` of
them. -/
def Wave.run (word : List Nat) : Nat → Option Nat → Wave → List Nat × Wave
  | 0, _, w => ([], w)
  | n + 1, k, w =>
    if w.stop = some w.sent then ([], w)
    else
      let w := if k = some 0 then { w with word := word } else w
      let x := w.next
      let q := Wave.run word n (k.bind fun k => if k = 0 then none else some (k - 1)) x.2
      (x.1 :: q.1, q.2)

end Sys2Proof.Machine
end

