-- ==== Sys2Proof/Machine/Link.lean ====
section
/-! DEFINITION. The link layer of a port (11_lanes_and_links): link blocks and retry (R267 to R274), credits
(R276 to R278), heartbeats and liveness (R279, R393 to R397), link down (R284) and electrical idle (R285 to R288). -/

namespace Sys2Proof.Machine

-- State of a port -----------------------------------------------------------------------------------------------------

/-- A receive side that has received nothing. -/
def RxLink.fresh : RxLink := ⟨0, false, [], 0, 0, 0⟩

/-- A port that has never trained. -/
def Train.fresh : Train :=
  { words := [], adapted := [], rtt := false, gotAdv := false, sentAck := false, fails := 0, rxFail := [], seenFail := [],
    logged := false, tried := false, starts := [], stamps := [], force := [], asks := [] }

/-- Transmit side of a port. -/
def Dev.txLink (d : Dev) (port : Nat) : TxLink := smGet d.ln.tx port TxLink.fresh

/-- Receive side of a port. -/
def Dev.rxLink (d : Dev) (port : Nat) : RxLink := smGet d.ln.rx port RxLink.fresh

/-- Training record of a port. -/
def Dev.train (d : Dev) (port : Nat) : Train := smGet d.ln.train port Train.fresh

/-- Replaces a transmit side. -/
def Dev.setTx (d : Dev) (port : Nat) (t : TxLink) : Dev :=
  { d with ln := { d.ln with tx := smSet d.ln.tx port t TxLink.fresh } }

/-- Replaces a receive side. -/
def Dev.setRx (d : Dev) (port : Nat) (r : RxLink) : Dev :=
  { d with ln := { d.ln with rx := smSet d.ln.rx port r RxLink.fresh } }

/-- Replaces a training record. -/
def Dev.setTrain (d : Dev) (port : Nat) (t : Train) : Dev :=
  { d with ln := { d.ln with train := smSet d.ln.train port t Train.fresh } }

/-- Reads a field of a port register. -/
def Dev.prd (d : Dev) (f : Fld) (port : Nat) : Nat := d.rd f (laneDie port) (port % 512)

/-- Writes a field of a port or lane register. -/
def Dev.pwr (d : Dev) (f : Fld) (lane v : Nat) : Dev := d.wr f (laneDie lane) (lane % 512) v

/-- Raises a field of a port or lane register, saturating. -/
def Dev.pinc (d : Dev) (f : Fld) (lane n : Nat) : Dev := d.inc f (laneDie lane) (lane % 512) n

/-- ERR_FIRST detail of a lane or port (Table 11.12). -/
def laneDetail (lane : Nat) : Word := wmk [(9, 0, lane)]

/-- Counts a link event of a port (R420). -/
def Dev.portEvt (d : Dev) (port k : Nat) : Dev := d.evtAt .LANE (laneDie port) k (some port) none 1

/-- Counts a link event of a port and raises its record of kind 1. -/
def Dev.linkEvent (d : Dev) (port k : Nat) : Dev :=
  (d.portEvt port k).countEvent .LANE (laneDie port) k (laneDetail port)

/-- Logs a LANE error of a port. -/
def Dev.linkErr (d : Dev) (port code : Nat) : Dev := d.logErr .LANE (laneDie port) code (laneDetail port)

-- Credits (R107, R108, R276 to R278) -----------------------------------------------------------------------------------

/-- A link control frame of eight words (R276). -/
def Dev.linkCtl (d : Dev) (port : Nat) (ws : List Word) : Frame :=
  d.mkLinkFrame (laneDie port) 4 (wordsPay ((ws ++ List.replicate 8 0).take 8))

/-- Words K1 and K2 of Table 11.5 from the eight classes' numbers. -/
def creditWords (v : Nat → Nat) : List Word :=
  [wmk ((List.range 5).map fun c => (12 * c + 11, 12 * c, v c)),
   wmk ((List.range 3).map fun c => (12 * c + 11, 12 * c, v (c + 5)))]

/-- Class `c` of words K1 and K2 (Table 11.5). -/
def creditField (k1 k2 : Word) (c : Nat) : Nat :=
  if c < 5 then fget k1 (12 * c + 11) (12 * c) else fget k2 (12 * (c - 5) + 11) (12 * (c - 5))

/-- The cells that frames of a class which arrived on a port still hold. -/
def Dev.heldCells (d : Dev) (port cls : Nat) : List Nat :=
  ((d.sw.holds.filter fun h => h.port == port && h.cls == cls).flatMap (·.cells)).eraseDups

/-- Cells still held by frames that arrived on a port (R108), those of frames that wait for a lookup or a home-die answer among
them. -/
def Dev.heldIn (d : Dev) (port cls : Nat) : Nat :=
  (d.heldCells port cls).length +
    (((d.fw.miss ++ d.fw.homeWait).filter fun p => p.port == port && p.frame.cls == cls).map
      fun p => creditsFor p.frame.len).sum

/-- What a port advertises for a class (R108): the image's count less what arrived frames still hold. -/
def Dev.advertNow (d : Dev) (port cls : Nat) : Nat := d.advert port cls - d.heldIn port cls

/-- With its first advertisement a port returns the rest cell by cell (R108): each cell still held is one credit of its own. -/
def Dev.splitHolds (d : Dev) (port : Nat) : Dev :=
  let cells := (List.range 8).flatMap fun c => (d.heldCells port c).map fun k => (⟨0, port, c, 1, [k]⟩ : CreditHold)
  { d with sw := { d.sw with holds := d.sw.holds.filter (fun h => h.port != port) ++ cells } }

/-- Whether a link-local frame is a credit return (Table 11.4). -/
def isReturn (f : Frame) : Bool := f.ftype == 4 && fget (payWord f.payload 0) 63 56 == 1

/-- Sends a credit return that carries every running total (R277); it takes the place of one that still waits, whose totals
are older. -/
def Dev.sendReturn (d : Dev) (port : Nat) : Dev :=
  let e := laneDie port
  let d := d.each (List.range 8) fun d c =>
    let k := pcKey (port % 512) c
    let n := d.rd F.TM_CRD_STAT_owed e k
    let tot := (smGet d.ln.crTotal (pcKey port c) 0 + n) % 4096
    ({ d with ln := { d.ln with crTotal := smSet d.ln.crTotal (pcKey port c) tot 0 } } : Dev).wr F.TM_CRD_STAT_owed e k 0
  let d := { d with ln := { d.ln with ctl := d.ln.ctl.filter fun c => !(c.port == port && isReturn c.f) } }
  d.sendCtl port (d.linkCtl port (wmk [(63, 56, 1)] :: creditWords fun c => smGet d.ln.crTotal (pcKey port c) 0))

/-- Whether a port owes credits that no return has carried. -/
def Dev.owes (d : Dev) (port : Nat) : Bool :=
  (List.range 8).any fun c => d.rd F.TM_CRD_STAT_owed (laneDie port) (pcKey (port % 512) c) != 0

/-- CREDIT_RETURN_RECEIVE (R277, R109): the change of each class's running total is added to the credits held, at most
the advertised count; an excess is discarded and is TM error code 2. -/
def Dev.creditReturn (d : Dev) (port : Nat) (k1 k2 : Word) : Dev :=
  if !d.linkUp port then d else
  let e := laneDie port
  d.each (List.range 8) fun d c =>
    let tot := creditField k1 k2 c
    let n := (tot + 4096 - smGet d.ln.crBase (pcKey port c) 0) % 4096
    let d := { d with ln := { d.ln with crBase := smSet d.ln.crBase (pcKey port c) tot 0 } }
    let held := d.rd F.TM_CRD_STAT_held e (pcKey (port % 512) c) + n
    let adv := smGet d.ln.partnerAdv (pcKey port c) 0
    if n = 0 then d
    else if adv < held then
      (d.wr F.TM_CRD_STAT_held e (pcKey (port % 512) c) adv).logErr .TM e 2 (wmk [(9, 0, port)])
    else d.wr F.TM_CRD_STAT_held e (pcKey (port % 512) c) held

/-- CREDIT_RETURN_PERIODIC (R277): a credit return leaves at least every 1 µs while the link is up and not in idle. -/
def Dev.creditPeriodic (d : Dev) (port : Nat) : Dev :=
  if d.portState port = 2 && d.isPort port then d.sendReturn port else d

/-- The credits that the port's advertisement carries: those of the first one since the link last went down (R108, R278). -/
def Dev.ownAdv (d : Dev) (port : Nat) : List Nat := (smFind d.ln.ownAdv port).getD ((List.range 8).map (d.advertNow port))

/-- Sends the port's credit advertisement, ack set once the partner's has arrived (R278). -/
def Dev.sendAdvert (d : Dev) (port : Nat) : Dev :=
  let t := d.train port
  let adv := d.ownAdv port
  let d := d.sendCtl port (d.linkCtl port (wmk [(63, 56, 2), (0, 0, b2n t.gotAdv)] :: creditWords fun c => adv.getD c 0))
  let d := if (smFind d.ln.ownAdv port).isSome then d else d.splitHolds port
  let d := { d with ln := { d.ln with ownAdv := smInsert d.ln.ownAdv port adv } }
  d.setTrain port { t with sentAck := t.sentAck || t.gotAdv }

-- Reachability records (R397) -------------------------------------------------------------------------------------------

/-- Raises the code 17 records of a change of a port (R397, Table 17.2): at most 32, the rest counted in LANE_LIVE. -/
def Dev.reachRecords (d : Dev) (port : Nat) (reach byLink : Bool) : Dev :=
  let e := laneDie port
  let hits := (d.fw.logical.filter fun x => x.1 / 262144 == e && x.2.kind ≤ 1 && x.2.tkind == 1 && x.2.target == port)
  let d := d.each (hits.take 32) fun d x =>
    d.event .LANE e 17
      (wmk [(63, 58, x.2.block), (57, 38, x.2.rank), (37, 37, b2n reach), (36, 27, port), (26, 26, b2n byLink)])
      (wmk [(63, 40, x.2.dfid)])
  d.pwr F.LANE_LIVE_unlisted port (Nat.min 255 (hits.length - 32))

-- Link down (R284, R74, R94, R108, R396) ----------------------------------------------------------------------------------

/-- A lane begins a stream of its own (R280, Table 11.9). -/
def Dev.beginWave (d : Dev) (exit : Bool) (lane : Nat) : Dev :=
  let w : Wave := ⟨exit, 0, patternStart (if exit then 1 else 2) d.freeCtr, [], if exit then some exitWave else none⟩
  let d := d.fresh.1
  { d with ln := { d.ln with wave := smInsert d.ln.wave lane w } }

/-- The streams of a port's lanes end: blocks take their place, or the port squelches. No symbol precedes the first of the blocks
(R265). (DEDUCED, log 171) -/
def Dev.endWave (d : Dev) (port : Nat) : Dev :=
  let ended := (d.lanesOf port).filter fun n => (smFind d.ln.wave n).isSome
  { d with ln := { d.ln with wave := d.ln.wave.filter fun e => !ended.contains e.1,
                             txPre := d.ln.txPre.filter fun e => !ended.contains e.1 } }

/-- Clears what the link layer of a port holds: blocks, link-local frames, heartbeats and credits. -/
def Dev.clearLink (d : Dev) (port : Nat) : Dev :=
  let l := d.ln
  let cl := (List.range 8).map (pcKey port)
  let drop := fun (m : SMap Nat) => m.filter fun e => !cl.contains e.1
  let d := { d with ln := { l with
    tx := smErase l.tx port, rx := smErase l.rx port, hb := smErase l.hb port,
    ctl := l.ctl.filter fun c => c.port != port,
    partnerAdv := drop l.partnerAdv, ownAdv := smErase l.ownAdv port, crTotal := drop l.crTotal, crBase := drop l.crBase } }
  let d := ({ d with sy := { d.sy with lichenOut := d.sy.lichenOut.filter fun x => x.1 != port } } : Dev).endWave port
  let d := d.each (List.range 8) fun d c => d.wrw .TM_CRD_STAT (laneDie port) (pcKey (port % 512) c) 0
  let d := d.each (d.lanesOf port) fun d n => d.pwr F.LANE_STAT_block n 0
  ((d.pwr F.LANE_PORT_STAT_rx_idle port 0).pwr F.LANE_PORT_STAT_next_seq port 0).pwr F.LANE_PORT_STAT_state port
    (if d.prd F.LANE_PORT_CTRL_hold port = 1 then 4 else 0)

/-- LINK_DOWN (R284): the port squelches, its queues are flushed (R74), its credits drop (R108), liveness is cleared
(R396), its endpoints become unreachable (R397) and a substitution over it ends (R233). `raise` is false where the
circuit-setup event stands for the link-down event (R251). (DEDUCED, log 64) -/
def Dev.linkDown (d : Dev) (port : Nat) (raise : Bool) : Dev :=
  if !d.isPort port then d
  else if !d.linkUp port then d.clearLink port
  else
    let d := d.clearLink port
    let d := if raise then d.linkEvent port 1 else d.portEvt port 1
    let d := d.flushPort port 5
    let d := ((d.pwr F.LANE_LIVE_removed port 0).pwr F.LANE_LIVE_misses port 0).pwr F.LANE_LIVE_streak port 0
    ((d.reachRecords port false true).subRetrain port).dropDeadMaps

/-- LOSS_OF_SIGNAL (R284): no signal on any lane of a port for 1 µs outside an agreed idle. -/
def Dev.lossOfSignal (d : Dev) (port : Nat) : Dev :=
  if !d.isPort port || !d.linkUp port || d.prd F.LANE_PORT_STAT_rx_idle port == 1 then d
  else
    let d := d.each (d.lanesOf port) fun d n => (d.pwr F.LANE_STAT_signal n 0).pwr F.LANE_STAT_cdr n 0
    (d.linkErr port 3).linkDown port true

/-- BLOCK_LOCK_LOST (R284): sixteen consecutive link blocks have failed to decode. -/
def Dev.blockLockLost (d : Dev) (port : Nat) : Dev :=
  if !d.isPort port || !d.linkUp port || (d.rxLink port).bad < 16 then d else (d.linkErr port 4).linkDown port true

/-- REPLAY_LIMIT (R274): eight consecutive replays of one sequence without ack progress (code 2), or an uncorrectable
error read from the replay buffer (code 6). -/
def Dev.replayLimit (d : Dev) (port : Nat) (bad : Bool) : Dev :=
  if !d.isPort port || !d.linkUp port then d
  else if bad then (d.linkErr port 6).linkDown port true
  else if 8 ≤ (d.txLink port).rounds then (d.linkErr port 2).linkDown port true
  else d

/-- IDLE_EXIT_FAIL (R287): no block lock within 2 µs of signal on an idle receive direction. -/
def Dev.idleExitFail (d : Dev) (port : Nat) : Dev :=
  if !d.isPort port || !d.linkUp port || d.prd F.LANE_PORT_STAT_rx_idle port == 0 then d
  else ((d.linkErr port 5).portEvt port 6).linkDown port true

-- Replay (R273) --------------------------------------------------------------------------------------------------------------

/-- Starts a replay at an index of the replay buffer. -/
def Dev.replayFrom (d : Dev) (port i : Nat) : Dev :=
  let t := d.txLink port
  (d.setTx port { t with cursor := some i, rounds := t.rounds + 1 }).pinc F.LANE_RETRY_replays port 1

/-- REPLAY_REQUEST_RECEIVE (R273): the transmitter replays from the named sequence; a request outside the
unacknowledged range is ignored and counted. (DEDUCED, log 70) -/
def Dev.replayRequest (d : Dev) (port seq : Nat) : Dev :=
  if !d.linkUp port then d else
  match (d.txLink port).replay.findIdx? fun b => b.seq == seq with
  | some i => d.replayFrom port i
  | none => d.portEvt port 9

/-- REPLAY_TIMER_EXPIRY (R273): no ack progress; the transmitter replays from the oldest unacknowledged sequence. -/
def Dev.replayTimer (d : Dev) (port : Nat) : Dev :=
  if !d.linkUp port || (d.txLink port).replay.isEmpty then d else d.replayFrom port 0

/-- An ack frees the replay entries up to it (R271). -/
def Dev.ackBlocks (d : Dev) (port ack : Nat) : Dev :=
  let t := d.txLink port
  match t.replay.findIdx? fun b => b.seq == ack with
  | none => d
  | some i =>
    let rest := t.replay.drop (i + 1)
    let cur := match t.cursor with
      | some c => if rest.isEmpty then none else some (c - (i + 1))
      | none => none
    d.setTx port { t with replay := rest, cursor := cur, rounds := 0 }

-- Transmission (R267 to R271) ---------------------------------------------------------------------------------------------------

/-- Precedence of a link-local frame (R270): heartbeat answers, credit returns, replay requests, time frames, the rest. -/
def ctlRank (f : Frame) : Nat :=
  let k := fget (payWord f.payload 0) 63 56
  if f.ftype = 8 then (if wbit (payWord f.payload 0) 63 then 0 else 4)
  else if f.ftype = 9 then 3
  else if k = 1 then 1 else if k = 3 then 2 else 4

/-- The next link-local frame of a port and the rest of the queue (R270). -/
def Dev.nextCtl (d : Dev) (port : Nat) : Option (Ctl × List Ctl) :=
  let mine := d.ln.ctl.filter fun c => c.port == port
  match (List.range 5).findSome? fun r => mine.find? fun c => ctlRank c.f == r with
  | some c => some (c, d.ln.ctl.erase c)
  | none => none

/-- Time correction of a port in units of 2^-32 ns (Table 11.10): the table's value plus the trim in ps. -/
def Dev.tsCorr (d : Dev) (port : Nat) (tx : Bool) : Int :=
  let e := d.electrical port
  let base : Int := if tx then (if e then 42000 else 44000) else (if e then 165956 else 167956)
  let trim := (BitVec.ofNat 16 (d.prd (if tx then F.LANE_TS_CORR_tx_trim else F.LANE_TS_CORR_rx_trim) port)).toInt
  d.divFree ((base + trim) * 2 ^ 32) 1000

/-- Hall time of a die's copy. -/
def Dev.copyOf (d : Dev) (die : Nat) : Nat := smGet d.time.copies die 0

/-- A hall time moved by a signed amount, modulo 2^64. -/
def hallAdd (t : Nat) (n : Int) : Nat := ((t + n) % 2 ^ 64).toNat

/-- What a link-local frame carries as it is handed over: the hold of a heartbeat answer (Table 11.6), the departure
time of a time frame (R383), which the device also keeps for the echo. -/
def Dev.handOver (d : Dev) (port : Nat) (c : Ctl) : Dev × Frame :=
  let p := c.f.payload
  if c.f.ftype = 8 && wbit (payWord p 0) 63 then
    (d, { c.f with payload := wordsPay [payWord p 0, fput (payWord p 1) 31 0 (d.tick - c.at_)] })
  else if c.f.ftype = 9 then
    let t := hallAdd (d.copyOf (laneDie port)) (d.tsCorr port true)
    ({ d with time := { d.time with
        txTimes := (port, fget (payWord p 2) 63 48, t) :: d.time.txTimes.filter fun x =>
          !(x.1 == port && x.2.1 == fget (payWord p 2) 63 48) } },
     { c.f with payload := wordsPay [BitVec.ofNat 64 t, payWord p 1, payWord p 2, payWord p 3] })
  else (d, c.f)

/-- The segment of a link-local frame: the frame with its trailer, padded with zero bytes (R270). -/
def ctlSeg (f : Frame) : Seg := let b := wireBytes f false; .ctl (b ++ List.replicate (128 - b.length) 0)

/-- Fills `n` data segments from the frame stream (R269); the fill after its last frame is zero bytes.
(DESIGN CHOICE, log 169) -/
def fillSegs : Nat → List Byte → List Seg × List Byte
  | 0, s => ([], s)
  | n + 1, s =>
    if s.isEmpty then let r := fillSegs n s; (Seg.idle :: r.1, r.2)
    else if s.length < 128 then let r := fillSegs n []; (Seg.last (s ++ List.replicate (128 - s.length) 0) :: r.1, r.2)
    else let r := fillSegs n (s.drop 128); (Seg.data (s.take 128) :: r.1, r.2)

/-- Whether a segment is a data segment. -/
def Seg.isData : Seg → Bool
  | .data _ | .last _ => true
  | _ => false

/-- Whether a link block holds a data segment: it takes a sequence (R269, R271). -/
def LinkBlock.hasData (b : LinkBlock) : Bool := b.lanes.any fun l => l.any Seg.isData

/-- Segments as lanes of ten. -/
def cutLanes : Nat → List Seg → List (List Seg)
  | 0, _ => []
  | n + 1, s => s.take 10 :: cutLanes n (s.drop 10)

/-- Error injection of a lane at one block of a link in service (R291, FEC mode): the symbols it corrupts, 0 when none. -/
def Dev.injectFec (d : Dev) (port lane : Nat) : Dev × Nat :=
  if !d.linkUp port || d.prd F.LANE_INJ_mode lane ≠ 2 || smFind d.ln.inj lane = some 0 then (d, 0)
  else
    let n := smGet d.ln.injCtr lane 0 + 1
    if n < 2 ^ d.prd F.LANE_INJ_rate lane then
      ({ d with ln := { d.ln with injCtr := smInsert d.ln.injCtr lane n } }, 0)
    else
      let d := { d with ln := { d.ln with injCtr := smErase d.ln.injCtr lane } }
      let d := match smFind d.ln.inj lane with
        | some k => ({ d with ln := { d.ln with inj := smInsert d.ln.inj lane (k - 1) } } : Dev).pwr F.LANE_INJ_count lane (k - 1)
        | none => d
      (d, d.prd F.LANE_INJ_symbols lane)

/-- The symbols that a lane sends for its block: the FEC block, an injection's errors in it, the Gray map, precoding where the
partner asked for it (R264 to R267, R291). -/
def Dev.sendLane (d : Dev) (port lane : Nat) (b : LinkBlock) : Dev × List Nat :=
  let (d, fv) := d.fresh
  let msg := blockMessage (Config.idleFill fv) b.seq b.ack (b.lanes.getD (lane - port) [])
  let (d, k) := d.injectFec port lane
  let pairs := fecEncode msg
  let pairs := if k = 0 then pairs else corruptFec k (Config.injectAt fv) (Config.injectBy fv) pairs
  let syms := pairs.map graySymbol
  let syms := if d.prd F.LANE_STAT_pre_tx lane = 1 then precode (smGet d.ln.txPre lane 0) syms else syms
  ({ d with ln := { d.ln with txPre := smSet d.ln.txPre lane (syms.getLastD 0) 0 } }, syms)

/-- Hands a link block to the lanes. (DEDUCED, log 63) -/
def Dev.putBlock (d : Dev) (port : Nat) (b : LinkBlock) : Dev :=
  let (d, out) := (d.lanesOf port).foldl (fun (a : Dev × List (List Nat)) n =>
    let r := a.1.sendLane port n b
    (r.1, a.2 ++ [r.2])) (d, [])
  let t := d.txLink port
  ((d.setTx port { t with blocks := t.blocks + 1 }).emit (.block port b out)).cntPC ⟨laneDie port, 5⟩ 1 (some port) none 1

/-- The link-local frame that goes into segment `s` of the lowest lane, if the spacing of R270 lets one go there.
(DEDUCED, log 61) -/
def Dev.placeCtl (d : Dev) (port s : Nat) : Dev × Option Seg :=
  let t := d.txLink port
  if 9 < s || t.since + s < 15 then (d.setTx port { t with since := t.since + 10 }, none)
  else match d.nextCtl port with
  | none => (d.setTx port { t with since := t.since + 10 }, none)
  | some (c, rest) =>
    let (d, f) := (({ d with ln := { d.ln with ctl := rest } } : Dev).stageDigests port).handOver port c
    (d.setTx port { (d.txLink port) with since := 9 - s }, some (ctlSeg f))

/-- Sequence of the last link block received in order (Table 11.2). -/
def Dev.ackNow (d : Dev) (port : Nat) : Nat := ((d.rxLink port).expected + 1023) % 1024

/-- A replayed block (R273): the same data segments in the same positions; a link-local position takes a frame due now
or idle. -/
def Dev.replayBlock (d : Dev) (port i : Nat) (b : LinkBlock) : Dev :=
  let lane0 := b.lanes.headD []
  let pos := (lane0.findIdx? fun s => match s with | .ctl _ => true | _ => false).getD 10
  let (d, c) := d.placeCtl port pos
  let lane0 := lane0.mapIdx fun j s => if j = pos then c.getD .idle else s
  let d := d.putBlock port ⟨b.seq, d.ackNow port, lane0 :: b.lanes.drop 1⟩
  let t := d.txLink port
  d.setTx port { t with cursor := if i + 1 < t.replay.length then some (i + 1) else none }

/-- A new block (R269 to R271): a link-local frame where one is due, data unless 64 link blocks are unacknowledged or
hold lasts (R327). -/
def Dev.newBlock (d : Dev) (port : Nat) : Dev :=
  let w := d.portWidth port
  let since := (d.txLink port).since
  let pos := if 15 ≤ since then 0 else 15 - since
  let (d, c) := d.placeCtl port pos
  let t := d.txLink port
  let full := 64 ≤ t.replay.length || !d.linkUp port || 5 ≤ d.shed
  let n := if c.isSome then 10 * w - 1 else 10 * w
  let (segs, rest) := if full then (List.replicate n Seg.idle, t.stream) else fillSegs n t.stream
  let segs := match c with
    | some s => segs.take pos ++ [s] ++ segs.drop pos
    | none => segs
  let seq := d.prd F.LANE_PORT_STAT_next_seq port
  let b : LinkBlock := ⟨seq, d.ackNow port, cutLanes w segs⟩
  if b.hasData then
    let d := d.setTx port { t with stream := rest, replay := t.replay ++ [b] }
    (d.putBlock port b).pwr F.LANE_PORT_STAT_next_seq port ((seq + 1) % 1024)
  else d.putBlock port b

-- Electrical idle (R285, R286) ------------------------------------------------------------------------------------------------------

/-- Whether a frame waits for transmission at a port. -/
def Dev.frameWaits (d : Dev) (port : Nat) : Bool :=
  (smFind d.sw.tx port).isSome || !(d.txLink port).stream.isEmpty || d.sw.queue.any fun x => x.dest == .port port

/-- Whether a substitution negotiation that still runs, or a feed changeover, involves a port. -/
def Dev.oeBusy (d : Dev) (port : Nat) : Bool :=
  !d.electrical port && ((smFind d.oe.req (port / 8)).isSome || (match smFind d.oe.far (port / 8) with
    | some r => decide (r.phase < 6)
    | none => false) || (smFind d.oe.change (port / 64)).isSome)

/-- The conditions of R285 for entering idle at a block boundary, apart from the command or timer. -/
def Dev.idleReady (d : Dev) (port : Nat) : Bool :=
  let t := d.txLink port
  d.isPort port && d.portState port == 2 && t.replay.isEmpty && t.cursor.isNone && !d.frameWaits port &&
    !(d.ln.ctl.any fun c => c.port == port && c.f.ftype != 8) && !d.owes port && !d.oeBusy port

/-- IDLE_ENTRY (R285): the block with the idle entry frame leaves and the direction squelches. Heartbeats that wait, or
a spacing that lets no link-local frame into the block, put the entry off to a later boundary. (DEDUCED, log 66) -/
def Dev.idleEnter (d : Dev) (port : Nat) : Dev :=
  let t := d.txLink port
  if (d.ln.ctl.any fun c => c.port == port) || t.since < 6 then d.setTx port { t with idleCmd := true }
  else
    let d := d.setTx port { t with idleCmd := false }
    let d := d.sendCtl port (d.linkCtl port [wmk [(63, 56, 5)]])
    (((d.newBlock port).pwr F.LANE_PORT_STAT_state port 3).portEvt port 4)

/-- IDLE_TIMER_EXPIRY (R285): nothing but heartbeats has waited for the whole idle timer. -/
def Dev.idleTimer (d : Dev) (port : Nat) : Dev :=
  if d.prd F.LANE_PORT_CTRL_idle_timer port = 0 || !d.idleReady port then d else d.idleEnter port

/-- An idle command (R285): entry now, or at a later block boundary once the conditions hold. -/
def Dev.idleCommand (d : Dev) (port : Nat) : Dev :=
  if d.idleReady port then d.idleEnter port
  else if d.portState port = 2 then d.setTx port { (d.txLink port) with idleCmd := true }
  else d

/-- IDLE_ENTRY_RECEIVE (R285): the receiver holds its state and shows rx_idle. -/
def Dev.idleEntry (d : Dev) (port : Nat) : Dev :=
  if !d.linkUp port then d
  else
    let d := d.each (d.lanesOf port) fun d n => { d with ln := { d.ln with rxPre := smErase d.ln.rxPre n } }
    (d.pwr F.LANE_PORT_STAT_rx_idle port 1).setRx port { (d.rxLink port) with good := 0, bad := 0 }

/-- A wake command, or a frame that waits, makes the direction leave idle by the fast exit: each lane begins the waveform, and six null
blocks come before the first sequenced one (R286, Table 11.9). -/
def Dev.leaveIdle (d : Dev) (port : Nat) : Dev :=
  if d.portState port = 3 then
    let d := d.each (d.lanesOf port) fun d n =>
      ({ d with ln := { d.ln with txPre := smErase d.ln.txPre n } } : Dev).beginWave true n
    ((d.setTx port { (d.txLink port) with exit := 6 }).pwr F.LANE_PORT_STAT_state port 5).portEvt port 5
  else d

/-- IDLE_EXIT (R286): a frame, a link-local frame or a changed credit total waits on an idle direction. -/
def Dev.idleExit (d : Dev) (port : Nat) : Dev :=
  if d.isPort port && (d.frameWaits port || d.owes port || d.ln.ctl.any fun c => c.port == port) then d.leaveIdle port
  else d

/-- The step of Table 11.8 that a training attempt is in. (DEDUCED, log 67) -/
def Dev.trainStep (d : Dev) (port : Nat) : Nat :=
  let t := d.train port
  let ls := d.lanesOf port
  if !ls.all t.words.contains then 2
  else if !ls.all t.adapted.contains then 3
  else if !t.rtt then 5
  else if d.prd F.LANE_STAT_block port = 0 then 6
  else 7

/-- LINK_BLOCK_TRANSMIT (R268 to R273, R285): the next link block of a port whose link is up and not idle, or that
trains and has begun its block stream. A direction that leaves idle hands its null blocks first, then is up (Table 11.9). -/
def Dev.blockTransmit (d : Dev) (port : Nat) : Dev :=
  let st := d.portState port
  if !d.isPort port || !d.dieRuns (laneDie port) || !(st == 2 || st == 5 || (st == 1 && 6 ≤ d.trainStep port)) then d
  else
  let d := d.endWave port
  if st = 5 && (d.txLink port).exit ≠ 0 then
    let t := d.txLink port
    let d := d.setTx port { t with exit := t.exit - 1, since := t.since + 10 }
    let idle := List.replicate (d.portWidth port) (List.replicate 10 Seg.idle)
    d.putBlock port ⟨d.prd F.LANE_PORT_STAT_next_seq port, d.ackNow port, idle⟩
  else
    let d := if st = 5 then d.pwr F.LANE_PORT_STAT_state port 2 else d
    if (d.txLink port).idleCmd && d.idleReady port && 6 ≤ (d.txLink port).since &&
        !(d.ln.ctl.any fun c => c.port == port) then d.idleEnter port
    else
      let d := if d.linkUp port && d.owes port then d.sendReturn port else d
      let t := d.txLink port
      match t.cursor with
      | some i => match t.replay[i]? with
        | some b => d.replayBlock port i b
        | none => (d.setTx port { t with cursor := none }).newBlock port
      | none => d.newBlock port

-- Heartbeats (R279, R31, R393 to R396) ------------------------------------------------------------------------------------------------

/-- HEARTBEAT_REQUEST_SEND (R279, R288): one request on the lowest lane of a port whose link is up. -/
def Dev.hbSend (d : Dev) (port : Nat) : Dev :=
  if !d.isPort port || !d.linkUp port || !d.dieRuns (laneDie port) then d
  else
    let seq := (d.prd F.LANE_HB_STAT_sequence port + 1) % 2 ^ 32
    let d := d.pwr F.LANE_HB_STAT_sequence port seq
    let q : List HbReq := smGet d.ln.hb port []
    let q := q ++ [⟨seq, false⟩]
    let d := { d with ln := { d.ln with hb := smInsert d.ln.hb port q } }
    d.sendCtl port (d.mkLinkFrame (laneDie port) 8
      (wordsPay [BitVec.ofNat 64 seq, wmk [(63, 32, d.ticksOf (laneDie port))]]))

/-- HEARTBEAT_REQUEST_RECEIVE (R31, R394): the core die answers unless the port is muted. -/
def Dev.hbRequest (d : Dev) (port seq stamp : Nat) : Dev :=
  if !d.linkUp port || d.prd F.LANE_LIVE_mute port == 1 then d
  else d.sendCtl port (d.mkLinkFrame (laneDie port) 8
    (wordsPay [wmk [(63, 63, 1), (31, 0, seq)], wmk [(63, 32, stamp)]]))

/-- PORT_LIVENESS_RESTORE (R396): the port is selectable again; pinned mappings settle (R95). -/
def Dev.liveRestore (d : Dev) (port : Nat) : Dev :=
  let e := laneDie port
  let before := d
  let d := (d.pwr F.LANE_LIVE_removed port 0).pwr F.LANE_LIVE_streak port 0
  let d := d.settlePort before port
  let d := d.event .LANE e 16 (wmk [(63, 54, port), (53, 53, 1)]) (wmk [(31, 0, d.prd F.LANE_LIVE_removals port)])
  d.reachRecords port true false

/-- One answered request is judged (R393, R396). -/
def Dev.hbGood (d : Dev) (port : Nat) : Dev :=
  let d := d.pwr F.LANE_LIVE_misses port 0
  if d.prd F.LANE_LIVE_removed port = 0 then d
  else
    let n := d.prd F.LANE_LIVE_streak port + 1
    if 8 ≤ n then d.liveRestore port else d.pwr F.LANE_LIVE_streak port n

/-- Judges the answered requests at the front, in the order of sending (R393); `n` bounds their number. -/
def Dev.hbJudge (d : Dev) (port : Nat) : Nat → Dev
  | 0 => d
  | n + 1 => match smGet d.ln.hb port [] with
    | ⟨_, true⟩ :: rest => (({ d with ln := { d.ln with hb := smSet d.ln.hb port rest [] } } : Dev).hbGood port).hbJudge port n
    | _ => d

/-- HEARTBEAT_ANSWER_RECEIVE (R279, R393, R396). -/
def Dev.hbAnswer (d : Dev) (port seq stamp hold : Nat) : Dev :=
  let q := smGet d.ln.hb port []
  if !d.linkUp port || !(q.any fun r => r.seq == seq) then d
  else
    let rtt := (d.ticksOf (laneDie port) + 2 ^ 33 - stamp - hold) % 2 ^ 32
    let d := d.pwr F.LANE_HB_STAT_rtt port (Nat.min 65535 rtt)
    let q := q.map fun r => if r.seq = seq then { r with answered := true } else r
    let d := { d with ln := { d.ln with hb := smInsert d.ln.hb port q } }
    d.hbJudge port q.length

/-- HEARTBEAT_MISS (R393): the oldest request not yet judged has had no answer in time. -/
def Dev.hbMiss (d : Dev) (port : Nat) : Dev :=
  match smGet d.ln.hb port [] with
  | ⟨_, false⟩ :: rest =>
    let d := { d with ln := { d.ln with hb := smSet d.ln.hb port rest [] } }
    let d := (d.pinc F.LANE_LIVE_misses port 1).pwr F.LANE_LIVE_streak port 0
    (d.cntPC ⟨laneDie port, 5⟩ 5 (some port) none 1).hbJudge port rest.length
  | _ => d

/-- PORT_LIVENESS_REMOVAL (R395, R94, R397): after 8 consecutive misses the port leaves its bundles; its queues are
flushed once, counted as reason 4 for a bundle member and as reason 5 otherwise. -/
def Dev.liveRemove (d : Dev) (port : Nat) : Dev :=
  if !d.isPort port || !d.linkUp port || d.prd F.LANE_LIVE_misses port < 8 || d.prd F.LANE_LIVE_removed port == 1 then d
  else
    let e := laneDie port
    let d := ((d.pwr F.LANE_LIVE_removed port 1).pwr F.LANE_LIVE_streak port 0).pinc F.LANE_LIVE_removals port 1
    let d := d.flush (fun x => x.dest == .port port) (if (d.bundlesOf port).isEmpty then 5 else 4)
    let d := d.dropDeadMaps
    let d := d.event .LANE e 16 (wmk [(63, 54, port)]) (wmk [(31, 0, d.prd F.LANE_LIVE_removals port)])
    d.reachRecords port false false

end Sys2Proof.Machine
end

