-- ==== Sys2Proof/Machine/Train.lean ====
section
/-! DEFINITION. Training of a port (R280 to R283), the advertisement exchange and link up (R278), and the port and lane
commands of LANE_PORT_CTRL, LANE_CFG and LANE_INJ (R284 to R286, R289 to R292). -/

namespace Sys2Proof.Machine

/-- Whether a lane is in test or loopback (R289). -/
def Dev.laneTest (d : Dev) (lane : Nat) : Bool := d.prd F.LANE_CFG_test lane != 0 || d.prd F.LANE_CFG_loopback lane != 0

/-- Whether the light of a lane is down past -4.5 dB (R226), or its engine is out of service or not settled. -/
def Dev.dark (d : Dev) (lane : Nat) : Bool :=
  let e := lane / 64
  !d.engineRuns e || d.oe.settling.contains e || wbit (BitVec.ofNat 64 (d.rd F.OE_STATE_down e 0)) (d.carryOf lane)

/-- Whether a down port may train: not held (R289), no lane in test or loopback, no bypass circuit on its fibres (R250),
light on its lanes. -/
def Dev.canTrain (d : Dev) (port : Nat) : Bool :=
  d.isPort port && d.dieRuns (laneDie port) && d.portState port == 0 && d.prd F.LANE_PORT_CTRL_hold port == 0 &&
    !d.taken port && (d.lanesOf port).all fun n => !d.laneTest n && (d.electrical port || !d.dark n)

/-- Code of a width (Table 11.7). -/
def widthCode (w : Nat) : Nat := if w = 1 then 0 else if w = 2 then 1 else 2

/-- A training word of the device on a lane (Table 11.7) that announces block 0 after `start` symbols: the receiver's coefficient
request and whether it cannot lock or adapt are those of the last word received. -/
def Dev.trainWordOf (d : Dev) (port lane start : Nat) : List Word :=
  let t := d.train port
  let echo := smGet t.stamps lane (0, d.tick)
  let ask := smGet t.asks lane (0, false)
  let t0 := wmk [(63, 48, 0x7E5A), (47, 45, d.trainStep port), (44, 43, widthCode (d.portWidth port)), (42, 41, lane - port),
    (40, 37, d.carryOf lane), (36, 36, smGet d.ln.preReq lane 0), (35, 35, d.prd F.LANE_STAT_pre_tx lane), (34, 31, ask.1),
    (30, 29, smGet d.ln.coefAck lane 0), (28, 28, b2n ask.2)]
  let t1 := wmk [(63, 32, d.ticksOf (laneDie port)), (31, 0, echo.1)]
  let t2 := wmk [(63, 32, d.tick - echo.2), (31, 0, start)]
  [t0, t1, t2, 0, 0, 0, 0, 0]

/-- Begins an attempt at step 1 of Table 11.8: the preset, precoding off, the choice of LANE_CFG precode for this training; each lane
begins its training stream. (DEDUCED, log 171) -/
def Dev.trainBegin (d : Dev) (port : Nat) : Dev :=
  if !d.canTrain port then d
  else
    let t := d.train port
    let ls := d.lanesOf port
    let d := d.each ls fun d n => ((d.pwr F.LANE_STAT_pre_tx n 0).pwr F.LANE_STAT_pre_rx n 0).pwr F.LANE_STAT_block n 0
    let drop := fun (m : SMap Nat) => m.filter fun e => !ls.contains e.1
    let d := { d with ln := { d.ln with coef := d.ln.coef.filter fun e => !ls.contains e.1,
                                        coefAck := drop d.ln.coefAck, preReq := drop d.ln.preReq,
                                        txPre := drop d.ln.txPre, rxPre := drop d.ln.rxPre } }
    let d := d.setTrain port { t with words := [], adapted := [], rtt := false, gotAdv := false, sentAck := false,
                                      seenFail := [], starts := [], stamps := [], asks := [],
                                      force := ls.foldl (fun m n => smSet m n (d.prd F.LANE_CFG_precode n) 0) [] }
    (d.pwr F.LANE_PORT_STAT_state port 1).each ls fun d n => d.beginWave false n

/-- TRAINING_START (R281). -/
def Dev.trainStart (d : Dev) (port : Nat) : Dev := d.trainBegin port

/-- TRAINING_RETRY (R282): after a failed training the port trains again. -/
def Dev.trainRetry (d : Dev) (port : Nat) : Dev := if (d.train port).fails = 0 then d else d.trainBegin port

/-- LANE_REPAIR (R283): λ8 takes a lane's wavelength when its partner could not receive it in three failed trainings in
a row, no fade shows on the wavelength and λ8 is free. -/
def Dev.laneRepair (d : Dev) (port : Nat) : Dev :=
  if d.electrical port then d
  else match (d.lanesOf port).find? fun n => 3 ≤ smGet (d.train port).rxFail n 0 &&
      !wbit (BitVec.ofNat 64 (d.rd F.OE_STATE_fade (n / 64) 0)) (n % 8) && d.spareFree (n / 64) with
    | some n => (d.subStart (n / 64) (n % 8)).linkEvent port 7
    | none => d

/-- A training fails (R281, R282): counted; the third failure in a row logs error code 1 once until the link is up. -/
def Dev.trainFail (d : Dev) (port cause : Nat) : Dev :=
  let t := d.train port
  let rf := t.seenFail.foldl (fun m n => smInsert m n (smGet t.rxFail n 0 + 1)) []
  let fails := t.fails + 1
  let report := 3 ≤ fails && !t.logged
  let d := d.setTrain port { t with fails := fails, rxFail := rf, logged := t.logged || report, tried := true }
  let d := d.each (d.lanesOf port) fun d n => d.pinc F.LANE_STAT_fails n 1
  let d := ((d.clearLink port).pwr F.LANE_PORT_STAT_cause port cause).portEvt port 2
  let d := if report then d.linkErr port 1 else d
  d.laneRepair port

/-- TRAINING_TIMEOUT (R281): the port is not up by its limit. The cause is 1 when a lane has no signal at the limit,
else that of the step not completed. -/
def Dev.trainTimeout (d : Dev) (port : Nat) (noSignal : Bool) : Dev :=
  if !d.isPort port || d.portState port ≠ 1 then d
  else
    let s := d.trainStep port
    d.trainFail port (if noSignal then 1 else if s ≤ 5 then 2 else if s = 6 then 4 else 5)

/-- The partner's coefficient request (Table 11.7): 1 and 2 step the pre-cursor, 3 and 4 the post-cursor, 5 goes back to
the preset; the answer is 1 applied or 2 at limit. -/
def Dev.coefRequest (d : Dev) (lane req : Nat) : Dev :=
  let c := smGet d.ln.coef lane (0, 0)
  let put := fun (d : Dev) (c : Int × Int) (a : Nat) =>
    ({ d with ln := { d.ln with coef := smSet d.ln.coef lane c (0, 0), coefAck := smSet d.ln.coefAck lane a 0 } } : Dev)
  if req = 0 || 5 < req then put d c 0
  else if req = 5 then put d (0, 0) 1
  else if Config.coefAtLimit lane req (if req ≤ 2 then c.1 else c.2) then put d c 2
  else match req with
    | 1 => put d (c.1 + 1, c.2) 1
    | 2 => put d (c.1 - 1, c.2) 1
    | 3 => put d (c.1, c.2 + 1) 1
    | _ => put d (c.1, c.2 - 1) 1

/-- TRAINING_WORD_RECEIVE (R280, R281, R265, R273): one training word on a lane. `tap` says whether the adapted first
post-cursor tap is at least 0.35 of the main cursor, `adapted` whether the SNR estimate has stopped improving, `snr` the
estimate; `ask` is the request to the partner's transmitter while it improves, `fail` that the receiver cannot lock or adapt; both
go into the lane's next words. (DEDUCED, log 74; DEDUCED, log 171) -/
def Dev.trainWord (d : Dev) (lane : Nat) (t0 t1 t2 : Word) (tap adapted : Bool) (snr ask : Nat) (fail : Bool) : Dev :=
  match d.portOf lane with
  | none => d
  | some port =>
    if d.portState port ≠ 1 || fget t0 63 48 ≠ 0x7E5A then d
    else if fget t0 44 43 ≠ widthCode (d.portWidth port) || fget t0 42 41 ≠ lane - port then d.trainFail port 3
    else
      let d := (((d.pwr F.LANE_STAT_signal lane 1).pwr F.LANE_STAT_cdr lane 1).pwr F.LANE_STAT_snr lane snr)
      let d := (d.pwr F.LANE_STAT_pre_tx lane (fget t0 36 36)).pwr F.LANE_STAT_pre_rx lane (fget t0 35 35)
      let d := d.coefRequest lane (fget t0 34 31)
      let forced := smGet (d.train port).force lane 0
      let pre := if forced = 1 then 1 else if forced = 2 then 0 else b2n tap
      let d := { d with ln := { d.ln with rxWl := smSet d.ln.rxWl lane (fget t0 40 37) (lane % 8),
                                          preReq := smSet d.ln.preReq lane pre 0 } }
      let t := d.train port
      let add := fun (l : List Nat) (b : Bool) => if b && !l.contains lane then l ++ [lane] else l
      let t := { t with words := add t.words true, adapted := add t.adapted adapted,
                        seenFail := add t.seenFail (wbit t0 28), starts := add t.starts (fget t2 31 0 ≠ 0),
                        stamps := smInsert t.stamps lane (fget t1 63 32, d.tick) }
      let t := { t with asks := smInsert t.asks lane (if t.adapted.contains lane then 0 else ask, fail) }
      let known := (d.lanesOf port).all t.adapted.contains && fget t1 31 0 ≠ 0
      let ticks := (d.ticksOf (laneDie port) + 2 ^ 33 - fget t1 31 0 - fget t2 63 32) % 2 ^ 32
      let d := if known then
          d.pwr F.LANE_PORT_STAT_rtt port (Nat.min 65535 (d.divFree (ticks * 32) 5).toNat)
        else d
      (if known then d.fresh.1 else d).setTrain port { t with rtt := t.rtt || known }

-- Advertisements (R278) ------------------------------------------------------------------------------------------------

/-- The link comes up (Table 11.8 step 7): the event, the reserve bucket full (R110), pinned mappings settle (R95) and the
port's endpoints become reachable (R397). -/
def Dev.linkComeUp (d : Dev) (port : Nat) : Dev :=
  let before := d
  let d := d.setTrain port { (d.train port) with fails := 0, rxFail := [], logged := false, tried := true }
  let d := d.each (d.lanesOf port) fun d n => d.pwr F.LANE_STAT_fails n 0
  let d := (d.pwr F.LANE_PORT_STAT_state port 2).endWave port
  let d := { d with tm := { d.tm with reserve := smInsert d.tm.reserve port 4132 } }
  (((d.linkEvent port 0).settlePort before port)).reachRecords port true true

/-- CREDIT_ADVERT_RECEIVE (R278): the first advertisement since the link went down sets the credits held and the
baselines; one with ack set brings the link up; after repeating has stopped, each is answered once. -/
def Dev.advertReceive (d : Dev) (port : Nat) (ack : Bool) (k1 k2 : Word) : Dev :=
  if !d.isPort port || !(d.linkUp port || d.portState port == 1) then d
  else
    let e := laneDie port
    let t := d.train port
    let stopped := d.linkUp port && t.sentAck
    let d := if t.gotAdv then d else
      d.each (List.range 8) fun d c =>
        let v := creditField k1 k2 c
        ({ d with ln := { d.ln with partnerAdv := smSet d.ln.partnerAdv (pcKey port c) v 0,
                                    crBase := smErase d.ln.crBase (pcKey port c) } } : Dev).wr
          F.TM_CRD_STAT_held e (pcKey (port % 512) c) v
    let d := d.setTrain port { t with gotAdv := true }
    let d := if ack && d.portState port = 1 then d.linkComeUp port else d
    if stopped then d.sendAdvert port else d

/-- CREDIT_ADVERT_REPEAT (R278): from step 7 on, every 1 µs, until the exchange is acknowledged. -/
def Dev.advertRepeat (d : Dev) (port : Nat) : Dev :=
  if !d.isPort port then d
  else if d.linkUp port then (if (d.train port).sentAck then d else d.sendAdvert port)
  else if d.portState port = 1 && d.trainStep port = 7 then d.sendAdvert port
  else d

-- Commands of the port and lane registers ---------------------------------------------------------------------------------------

/-- A write to LANE_PORT_CTRL hold (R289): setting it takes the port down; clearing it lets the port train at once. -/
def Dev.portHold (d : Dev) (port : Nat) : Dev :=
  if d.prd F.LANE_PORT_CTRL_hold port = 1 then (if d.portState port = 4 then d else d.linkDown port true)
  else if d.portState port = 4 then (d.pwr F.LANE_PORT_STAT_state port 0).trainBegin port
  else d

/-- After a change of LANE_CFG a port whose lanes have left test and loopback trains at once (R289); outside test there is no
pattern to check (R290). -/
def Dev.laneCfg (d : Dev) (lane : Nat) (was : Bool) : Dev :=
  let d := if d.prd F.LANE_CFG_test lane = 1 then d
    else ({ d with ln := { d.ln with gen := smErase d.ln.gen lane, chk := smErase d.ln.chk lane } } : Dev).pwr
      F.LANE_PAT_STAT_lock lane 0
  match d.portOf lane with
  | some p => if was && !d.laneTest lane then d.trainBegin p else d
  | none => d

/-- A write to LANE_INJ (R291): `count` injections, or no end with 0. -/
def Dev.laneInj (d : Dev) (lane : Nat) : Dev :=
  let n := d.prd F.LANE_INJ_count lane
  { d with ln := { d.ln with injCtr := smErase d.ln.injCtr lane,
                             inj := if n = 0 then smErase d.ln.inj lane else smInsert d.ln.inj lane n } }

-- Test patterns and loopbacks (R290 to R292) ---------------------------------------------------------------------------------------

/-- Whether the light of a lane's fibre loops back in its engine (R292, optical): every wavelength of the fibre does. -/
def Dev.opticalLoop (d : Dev) (lane : Nat) : Bool :=
  !d.electrical lane && (List.range 8).any fun l => d.prd F.LANE_CFG_loopback (lane / 8 * 8 + l) == 3

/-- The lanes whose receivers see a lane's transmitter in a loopback inside the device (R292): its own where the loopback is
electrical; where it is optical those of the fibre whose receive filter serves the wavelength that carries the lane. -/
def Dev.loopedTo (d : Dev) (lane : Nat) : List Nat :=
  if d.prd F.LANE_CFG_loopback lane = 1 then [lane]
  else ((List.range 8).map (lane / 8 * 8 + ·)).filter fun n => smGet d.ln.rxWl n (n % 8) == d.carryOf lane

/-- Whether a lane's transmitter reaches the device's own receivers alone: its output stays squelched or dark (R292). -/
def Dev.selfLoop (d : Dev) (lane : Nat) : Bool := d.prd F.LANE_CFG_loopback lane == 1 || d.opticalLoop lane

/-- Symbols at a lane's checker, while it is in test with a pattern to check (R290). -/
def Dev.checkSymbols (d : Dev) (lane : Nat) (own : Option Nat) (syms : List Nat) : Dev :=
  let kind := d.prd F.LANE_PAT_chk lane
  if kind = 0 || d.prd F.LANE_CFG_test lane = 0 then d
  else
    let c := smGet d.ln.chk lane ⟨[], 0⟩
    let r := (syms.zipIdx).foldl (fun (a : PatCheck × Bool × Nat) x =>
      let q := a.1.take a.2.1 kind (own.map (· + x.2)) x.1
      (q.1, q.2.1, a.2.2 + q.2.2)) (c, d.prd F.LANE_PAT_STAT_lock lane == 1, 0)
    let d := { d with ln := { d.ln with chk := smInsert d.ln.chk lane r.1 } }
    (d.pwr F.LANE_PAT_STAT_lock lane (b2n r.2.1)).pinc F.LANE_PAT_STAT_errors lane r.2.2

/-- One reference tick of a lane in test: its generator makes 726 symbols (R263, R290), with the inversions of pattern mode
(R291). They reach a checker of the device in a near-end or optical loopback and leave the device otherwise, except where the lane
sends back what it receives (R292). -/
def Dev.patternTick (d : Dev) (lane : Nat) : Dev :=
  let kind := d.prd F.LANE_PAT_gen lane
  if d.prd F.LANE_CFG_test lane = 0 || kind = 0 then d
  else
    let d := if (smFind d.ln.gen lane).isSome then d
      else ({ d with ln := { d.ln with gen := smInsert d.ln.gen lane (patternStart kind d.freeCtr) } } : Dev).fresh.1
    let at_ := smGet d.ln.gen lane 0
    let inject := d.prd F.LANE_INJ_mode lane = 1
    let per := if inject then 2 ^ d.prd F.LANE_INJ_rate lane else 0
    let (r, next, syms) := genSymbols kind (d.prd F.LANE_PAT_half lane) per 726 at_ ⟨smGet d.ln.injCtr lane 0, smFind d.ln.inj lane⟩
    let d := { d with ln := { d.ln with gen := smInsert d.ln.gen lane next } }
    let d := if !inject then d else
      let d := { d with ln := { d.ln with injCtr := smSet d.ln.injCtr lane r.bits 0 } }
      match r.left with
      | some k => ({ d with ln := { d.ln with inj := smInsert d.ln.inj lane k } } : Dev).pwr F.LANE_INJ_count lane k
      | none => d
    if d.selfLoop lane then d.each (d.loopedTo lane) fun d n => d.checkSymbols n (some at_) syms
    else if d.prd F.LANE_CFG_loopback lane = 2 then d
    else d.emit (.symbols lane syms)

/-- Symbols that leave on a lane outside link blocks, precoded where the lane precodes (R265); what a loopback inside the device keeps
does not leave it (R292). -/
def Dev.sendSymbols (d : Dev) (lane : Nat) (syms : List Nat) : Dev :=
  let ys := if d.prd F.LANE_STAT_pre_tx lane = 1 then precode (smGet d.ln.txPre lane 0) syms else syms
  let d := { d with ln := { d.ln with txPre := smSet d.ln.txPre lane (ys.getLastD 0) 0 } }
  if d.selfLoop lane then d else d.emit (.symbols lane ys)

/-- One reference tick of a lane that trains or leaves idle: 726 symbols of its stream (R263, R280, Table 11.9). A training word that
begins in it is made of the state of this tick; the first one of step 6 settles when block 0 begins.
(DEDUCED, log 171) -/
def Dev.waveTick (d : Dev) (lane : Nat) : Dev :=
  match smFind d.ln.wave lane, d.portOf lane with
  | some w, some port =>
    let k := w.wordAt 726
    let first := k.isSome && w.stop.isNone && 6 ≤ d.trainStep port
    let at_ := w.sent + k.getD 0 + 256
    let w := if first then { w with stop := some (at_ + (Config.startCount d.freeCtr).toNat + 1) } else w
    let ws := d.trainWordOf port lane (w.stop.getD at_ - at_)
    let d := if first then d.fresh.1 else d
    let d := if k.isSome && !d.selfLoop lane then d.emit (.trainWord lane ws) else d
    let (syms, w) := Wave.run (wordSymbols ws) 726 k w
    let d := { d with ln := { d.ln with wave := smInsert d.ln.wave lane w } }
    if syms.isEmpty then d else d.sendSymbols lane syms
  | _, _ => d

/-- A changed pattern (R290): its generator starts anew, its checker has to lock on 64 error-free symbols of the new one. -/
def Dev.lanePattern (d : Dev) (lane : Nat) (gen chk : Bool) : Dev :=
  let d := if gen then { d with ln := { d.ln with gen := smErase d.ln.gen lane } } else d
  if chk then
    ({ d with ln := { d.ln with chk := smErase d.ln.chk lane } } : Dev).pwr F.LANE_PAT_STAT_lock lane 0
  else d

/-- Symbols that a lane in test or loopback receives (R290, R292): none where it sees its own transmitter; far-end electrical
sends them out again undecoded; its checker takes them. -/
def Dev.testReceive (d : Dev) (lane : Nat) (syms : List Nat) : Dev :=
  if d.selfLoop lane then d
  else (if d.prd F.LANE_CFG_loopback lane = 2 then d.emit (.symbols lane syms) else d).checkSymbols lane none syms

end Sys2Proof.Machine
end

