-- ==== Sys2Proof/Machine/Time.lean ====
section
/-! DEFINITION. Fabric time (16), the statistics epochs and the periodic flight record (18): the reference tick, time frames,
the servo, the boundary copy of the counters. -/

namespace Sys2Proof.Machine

-- Statistics epochs (R418, R423, R424) ------------------------------------------------------------------------------------------

/-- The counter sets of unit 0 and 1, the core dies, and 2, the hub (R418). -/
def setsOf (unit : Nat) : List Nat :=
  if unit = 2 then [0, 1, 2, 3, 4] else [0, 1, 2, 3, 4, 5, 6, 8, 9, 10, 11, 12, 13, 14, 15, 16, 17]

/-- Zeroes a set's eight live counters and sat. -/
def cntZero (m : RegFile) (unit set : Nat) : RegFile :=
  (List.range 8).foldl (fun m i => fldPut m F.CNT_VAL_count unit (32 * set + i) 0)
    (fldPut m F.CNT_CTRL_sat unit (32 * set) 0)

/-- Whether a unit runs: core die 0 or 1, or the hub. -/
def Dev.unitRuns (d : Dev) (u : Nat) : Bool := if u = 2 then d.hubRuns else d.dieRuns u

/-- STATISTICS_EPOCH_BOUNDARY (R390, R423, R424): every set of a unit whose boundary falls on this tick copies its
counters, ticks and time; then a set with restart, or with a clear on this tick, starts at 0. A change of the boundary
bit takes effect. -/
def Dev.epochBoundary (d : Dev) (u : Nat) : Dev :=
  if !d.time.due.contains u || !d.unitRuns u then d
  else
    let ticks := d.ticksOf u
    let last := smGet d.time.lastBoundary u (smGet d.release u 0)
    let span := Nat.min (2 ^ 32 - 1) (d.tick - last)
    let now := d.hallNs u
    let m := (setsOf u).foldl (fun m s =>
      let k := 32 * s
      let m := (List.range 8).foldl (fun m i =>
        fldPut m F.CNT_EP_VAL_count u (k + i) (fldGet m F.CNT_VAL_count u (k + i))) m
      let m := fldPut (fldPut m F.CNT_EP_TICK_span u k span) F.CNT_EP_TICK_tick u k ticks
      let m := fldPut (fldPut m F.CNT_EP_STAT_time u k now) F.CNT_EP_STAT_sequence u k
        (fldGet m F.CNT_EP_STAT_sequence u k + 1)
      if fldGet m F.CNT_CTRL_restart u k = 1 || d.time.cntClear.contains (u, s) then cntZero m u s else m) d.regs
    { d with regs := m, time := { d.time with
        lastBoundary := smInsert d.time.lastBoundary u d.tick, due := d.time.due.filter (· != u),
        -- a core die keeps its bit while the hub is in reset
        epochK := if d.attached then smSet d.time.epochK u (d.rd F.TIME_CTRL_epoch 0 0) 20 else d.time.epochK,
        cntClear := d.time.cntClear.filter fun x => x.1 != u } }

-- The reference tick ------------------------------------------------------------------------------------------------------------

/-- Whether an advance of a counter by `n` units of 2^-32 ns carries into bit `k` of the nanoseconds (R390). -/
def carries (t : Nat) (n : Int) (k : Nat) : Bool :=
  decide (0 ≤ n) && t / 2 ^ (32 + k) != (t + n.toNat) / 2 ^ (32 + k)

/-- Lanes whose LANE_CFG is not at reset. -/
def Dev.cfgLanes (d : Dev) : List Nat :=
  let lo := regKey .LANE_CFG 0 0
  (d.regs.filter fun e => lo ≤ e.1 && e.1 < lo + 2 * 2097152).map fun e =>
    (e.1 - lo) / 2097152 * 512 + (e.1 - lo) % 2097152

/-- One reference tick of 6.4 ns: a pending increment and step take effect (R382), the hall counter and the copies
advance, the copies of dies that run by themselves at the last increment written (R380, R381, R388), carries into the boundary bit make boundaries due (R390), pending counter clears take
effect unless a boundary falls on the tick (R421, R424), lanes send training, exit waveforms and patterns (R280, R286, R290), a forced
setpoint is approached (R323). (DEDUCED, log 79) -/
def Dev.tickStep (d : Dev) : Dev :=
  let t := d.time
  let inc := t.pendInc.getD t.inc
  let adv : Int := inc + t.pendAdj
  let own : Int := match t.copyInc with
    | some i => i
    | none => adv
  let units := [0, 1, 2].filter d.unitRuns
  let at_ := fun u => if u = 2 then t.hall else smGet t.copies u 0
  let due := units.filter fun u => carries (at_ u) (if u = 2 then adv else own) (smGet t.epochK u 20)
  let copies := (units.filter (· < 2)).foldl (fun m u => smSet m u (hallAdd (smGet m u 0) own) 0) t.copies
  let (now, later) := t.cntClear.partition fun c => !(t.due ++ due).contains c.1
  let m := now.foldl (fun m c => cntZero m c.1 c.2) d.regs
  let d := { d with regs := m, tick := d.tick + 1, time := { t with
    hall := if d.hubRuns then hallAdd t.hall adv else t.hall, copies := copies, inc := inc, pendInc := none, pendAdj := 0,
    due := t.due ++ due.filter fun u => !t.due.contains u, cntClear := later, cntEn := [] } }
  let d := if d.shed = 5 then
      let n := d.pw.holdTicks + 1
      ({ d with pw := { d.pw with holdTicks := n } } : Dev).wr F.HUB_PWR_STAT_hold_us 0 0 (Nat.min (2 ^ 32 - 1) (n * 4 / 625))
    else d
  let d := d.each (d.ln.wave.map Prod.fst) fun d n => d.waveTick n
  (d.each d.cfgLanes fun d n => d.patternTick n).each [0, 1] Dev.forcedStep

-- Time frames (R383, R384) ------------------------------------------------------------------------------------------------

/-- TIME_FRAME_SEND (R383): one time frame on the lowest lane of a port whose link is up and not in idle. Its departure
time is written as its block is handed over. -/
def Dev.timeSend (d : Dev) (port : Nat) : Dev :=
  if !d.isPort port || d.portState port ≠ 2 || !d.dieRuns (laneDie port) || !d.on F.TIME_CTRL_tx 0 0 then d
  else
    let seq := smGet d.time.txSeq port 0
    let st := d.rd F.TIME_STAT_state 0 0
    let (t1, eseq, ev) : Word × Nat × Nat := match smFind d.time.rx port with
      | some r => (wmk [(63, 32, fget r.t0 63 32), (31, 0, r.arrival / 2 ^ 32)], r.seq, 1)
      | none => (0, 0, 0)
    let t2 := wmk [(63, 48, seq), (47, 32, eseq), (31, 24, d.rd F.TIME_STAT_steps 0 0), (18, 18, ev),
      (17, 17, b2n (st == 3 || !d.attached)), (16, 16, b2n (st == 2 && d.attached))]
    let d := { d with time := { d.time with txSeq := smSet d.time.txSeq port ((seq + 1) % 65536) 0 } }
    let d := d.sendCtl port (d.mkLinkFrame (laneDie port) 9 (wordsPay [0, t1, t2, 0]))
    if d.attached then d.evtAt .TIME 0 0 (some port) none 1 else d

-- Sources (R385) ----------------------------------------------------------------------------------------------------------------

/-- The source (1 primary, 2 secondary) that a port is, 0 for none. -/
def Dev.sourceOf (d : Dev) (port : Nat) : Nat :=
  if d.on F.TIME_SRC_CFG_pri_en 0 0 && d.rd F.TIME_SRC_CFG_primary 0 0 = port then 1
  else if d.on F.TIME_SRC_CFG_sec_en 0 0 && d.rd F.TIME_SRC_CFG_secondary 0 0 = port then 2
  else 0

/-- Chooses the source in use (R385): the primary while it delivers valid frames, else the secondary; back to the primary
after 16 valid frames in a row. The device sends the steps of its source plus 1. A change is counted and raised; the loss of the
last source is error code 1, and a counter that had been disciplined enters holdover, error code 3. (DEDUCED, log 76) -/
def Dev.chooseSource (d : Dev) : Dev :=
  let cur := d.rd F.TIME_STAT_source 0 0
  let has := fun (s : Nat) => d.time.valid.contains s
  let new := if d.on F.TIME_CTRL_root 0 0 then 3
    else if cur = 2 && has 2 then (if has 1 && 16 ≤ d.time.good then 1 else 2)
    else if has 1 then 1 else if has 2 then 2 else 0
  let steps := if new = 3 then 0 else if new = 0 then 255 else Nat.min 255 (smGet d.time.steps new 0 + 1)
  let d := d.wr F.TIME_STAT_steps 0 0 steps
  if new = cur then d
  else
    let port := if new = 1 then d.rd F.TIME_SRC_CFG_primary 0 0 else if new = 2 then d.rd F.TIME_SRC_CFG_secondary 0 0 else 0
    let d := ((d.wr F.TIME_STAT_source 0 0 new).evtCnt .TIME 0 4).countEvent .TIME 0 4 (wmk [(9, 0, port)])
    if new ≠ 0 then d
    else
      let d := d.logErr .TIME 0 1 0
      let st := d.rd F.TIME_STAT_state 0 0
      if st = 1 || st = 2 then (d.wr F.TIME_STAT_state 0 0 3).logErr .TIME 0 3 0 else d

/-- TIME_SOURCE_TIMEOUT (R385): a source has sent no frame for three intervals, not counting those in which the
partner's direction is idle (R383). -/
def Dev.timeTimeout (d : Dev) (s : Nat) : Dev :=
  let port := d.rd (if s = 1 then F.TIME_SRC_CFG_primary else F.TIME_SRC_CFG_secondary) 0 0
  if !d.attached || d.prd F.LANE_PORT_STAT_rx_idle port == 1 || !d.time.valid.contains s then d
  else
    let t := d.time
    ({ d with time := { t with valid := t.valid.filter (· != s), good := if s = 1 then 0 else t.good } } : Dev).chooseSource

-- The servo (R384, R386) --------------------------------------------------------------------------------------------------------

/-- Difference of two hall times modulo 2^32 ns as a signed number in units of 2^-32 ns (R384). -/
def hallDiff (a b : Nat) : Int := (BitVec.ofNat 64 a - BitVec.ofNat 64 b).toInt

/-- The servo of R386 for one captured frame whose offset is `n` units of 2^-33 ns: a step when free-running or beyond
1,000 ns, else a new increment, exact up to the rounding of its last bit. -/
def Dev.servo (d : Dev) (n : Int) : Dev :=
  let t := d.time
  if d.rd F.TIME_STAT_state 0 0 = 0 || 1000 * 2 ^ 33 < n.natAbs then
    let step := d.divFree (-n) 2
    let d := { d with time := { t with pendAdj := t.pendAdj + step, streak := 0 } }
    d.fresh.1.wr F.TIME_STAT_state 0 0 1
  else
    let f := t.freq + n
    let iv : Int := d.rd F.TIME_CTRL_interval 0 0 * 1000
    -- the increment is num / den: 6.4 ns less an eighth of the offset and a part of the sum over the interval
    let num : Int := 32 * (2 ^ 49 * iv - 4 * n - f * iv)
    let den : Int := 5 * 2 ^ 17 * iv
    let nom : Int := 32 * 2 ^ 32
    let lo := d.divFree (nom * 9999) 50000
    let hi := d.divFree (nom * 10001) 50000
    let v := d.divFree num den
    let inc := (if num * 50000 < nom * 9999 * den then lo else if nom * 10001 * den < num * 50000 then hi else v).toNat
    let near := n.natAbs ≤ 20 * 2 ^ 33
    let streak := if near then t.streak + 1 else 0
    let d := { d with time := { t with freq := f, pendInc := some inc, streak := streak } }
    (d.fresh.1.wrw .TIME_INC 0 0 (BitVec.ofNat 64 inc)).wr F.TIME_STAT_state 0 0 (if 16 ≤ streak then 2 else 1)

/-- Offset of a captured frame (R384): t1 and t4 with their fractions, t2 and t3 in whole nanoseconds, as the fields that
name them are. The value is shown in TIME_STAT and used by the servo in mode 0. (DEDUCED, log 75) -/
def Dev.timeOffset (d : Dev) (port arrival : Nat) (t0 t1 t2 : Word) : Dev :=
  match d.time.txTimes.find? fun x => x.1 == port && x.2.1 == fget t2 47 32 with
  | none => d
  | some x =>
    let n := hallDiff arrival (fget t0 63 32 * 2 ^ 32) - hallDiff (fget t1 31 0 * 2 ^ 32) x.2.2
    let off := d.divFree n (2 ^ 25)
    let off := if off < -2 ^ 31 then -2 ^ 31 else if 2 ^ 31 - 1 < off then 2 ^ 31 - 1 else off
    let d := d.fresh.1.wr F.TIME_STAT_offset 0 0 (BitVec.ofInt 32 off).toNat
    if d.on F.TIME_CTRL_mode 0 0 then d else d.servo n

/-- Enters a frame into a source's capture ring (R384, Table 16.5). -/
def Dev.capture (d : Dev) (s arrival : Nat) (t0 t1 t2 : Word) : Dev :=
  let n := smGet d.time.capNext s 0
  let k := ((s - 1) * 16 + n) * 4
  let caps := smSet (smSet (smSet (smSet d.time.caps k t0 0) (k + 1) t1 0) (k + 2) t2 0) (k + 3) (BitVec.ofNat 64 arrival) 0
  ({ d with time := { d.time with caps := caps, capNext := smSet d.time.capNext s ((n + 1) % 16) 0 } } : Dev).cnt ⟨2, 3⟩ 1

/-- TIME_FRAME_RECEIVE (R384 to R386): an arriving time frame is stamped, and on a source port judged, captured and used.
While the hub is in reset the core die drops and counts it. (DEDUCED, log 77) -/
def Dev.timeReceive (d : Dev) (port : Nat) (t0 t1 t2 t3 : Word) : Dev :=
  let die := laneDie port
  if !d.linkUp port || !d.dieRuns die then d
  else if !d.attached then
    { d with time := { d.time with dropped := smInsert d.time.dropped die (smGet d.time.dropped die 0 + 1) } }
  else if fget t2 23 19 ≠ 0 || fget t2 15 0 ≠ 0 || t3 ≠ 0 || (fget t2 31 24 = 255 && wbit t2 16) then
    d.evtAt .TIME 0 2 (some port) none 1
  else
    let arrival := hallAdd (d.copyOf die) (-(d.tsCorr port false))
    let d := d.evtAt .TIME 0 1 (some port) none 1
    let t := d.time
    let d := { d with time := { t with rx := smInsert t.rx port ⟨t0, fget t2 63 48, arrival⟩ } }
    let s := d.sourceOf port
    if s = 0 then d
    else
      let ok := fget t2 31 24 ≠ 255 && !wbit t2 17
      let t := d.time
      let rest := t.valid.filter (· != s)
      let good := if s ≠ 1 then t.good else if ok then t.good + 1 else 0
      let d := { d with time := { t with
        valid := if ok then rest ++ [s] else rest, good := good, steps := if ok then smInsert t.steps s (fget t2 31 24) else t.steps } }
      let d := d.chooseSource
      if d.rd F.TIME_STAT_source 0 0 ≠ s then d
      else
        let d := d.capture s arrival t0 t1 t2
        if wbit t2 18 then d.timeOffset port arrival t0 t1 t2 else d

/-- TIME_COPY_RELOAD (R381): the hub finds a core die copy at `found` and reloads it when it is more than 8 ns away. -/
def Dev.copyReload (d : Dev) (die found : Nat) : Dev :=
  if !d.attached || !d.dieRuns die then d
  else if (hallDiff found d.time.hall).natAbs ≤ 8 * 2 ^ 32 then d
  else ({ d with time := { d.time with copies := smSet d.time.copies die d.time.hall 0 } } : Dev).logErr .TIME 0 2 0

-- Flight recorder (R426, R427) ------------------------------------------------------------------------------------------------------

/-- FLIGHT_RECORD_PERIODIC (R427): one record each period of MEM_FR_CTRL. -/
def Dev.flightPeriodic (d : Dev) : Dev :=
  if !d.hubRuns || d.rd F.MEM_FR_CTRL_period 0 0 = 0 then d else d.flight 3 4 0 0 2 22 0 none (0, 0) []

/-- A write of 1 to MEM_FR_CTRL snap (R427). -/
def Dev.flightSnap (d : Dev) : Dev := d.flight 4 4 0 0 2 22 0 none (0, 0) []

end Sys2Proof.Machine
end

