-- ==== Sys2Proof/Machine/Optical.lean ====
section
/-! DEFINITION. Optical engines (09_optical_engines): monitors and the fade ladder (R223 to R228), feed changeover (R235 to
R238), the two ends of a substitution (R230 to R234), heater loops (R239, R240) and calibration (R222, R242, R243, R245). -/

namespace Sys2Proof.Machine

/-- The 16 bits of a signed number. -/
def u16 (n : Int) : Nat := (BitVec.ofInt 16 n).toNat

/-- The latest eight values with a new one in front. -/
def push8 (l : List Int) (v : Int) : List Int := (v :: l).take 8

/-- A mask of nine wavelengths as a word. -/
def mask9 (p : Nat → Bool) : Nat := (List.range 9).foldl (fun m w => if p w then m + 2 ^ w else m) 0

/-- Whether bit `w` of a mask is set. -/
def bitOf (m w : Nat) : Bool := m / 2 ^ w % 2 == 1

-- Feed changeover (R235 to R238) -------------------------------------------------------------------------------------

/-- Whether an engine's negotiations are paused (R233). -/
def Dev.paused (d : Dev) (e : Nat) : Bool :=
  match smFind d.oe.change e with
  | some c => !c.switched
  | none => false

/-- The negotiations that had passed step 2, or step 3's condition `all` only, go on at step 3 (R233). -/
def Dev.resumeSubs (d : Dev) (e : Nat) (all : Bool) : Dev :=
  d.each (fibresOf e) fun d f => match smFind d.oe.req f with
    | some r =>
      if (all && 2 ≤ r.phase) || (r.phase == 1 && r.ready && r.lock) then
        let d := d.setReq f (some { r with phase := 2 })
        if r.op = 0 then d.setFib f 2 else d
      else d
    | none => d

/-- Whether a feed has been ready for eight samples in a row (Table 9.6 step 3). -/
def Dev.feedReady (d : Dev) (e f : Nat) : Bool := decide (8 ≤ smGet d.oe.run (2 * e + f) 0)

/-- OE_STATE ready: the unselected feed is ready. -/
def Dev.showReady (d : Dev) (e : Nat) : Dev :=
  d.wr F.OE_STATE_ready e 0 (b2n (d.feedReady e (1 - d.rd F.OE_STATE_feed e 0)))

/-- FEED_SWITCH (Table 9.6 step 4): once the feed to go to is ready, the selector passes to it. -/
def Dev.feedSwitch (d : Dev) (e : Nat) : Dev :=
  match smFind d.oe.change e with
  | none => d
  | some c =>
    if c.switched || !d.feedReady e c.to_ then d
    else
      let d := { d with oe := { d.oe with change := smInsert d.oe.change e { c with switched := true } } }
      ((d.wr F.OE_STATE_feed e 0 c.to_).showReady e).resumeSubs e true

/-- FEED_CHANGEOVER_START (Table 9.6 step 1): raises the enable of the feed to go to, and switches to it at once where it is
ready. -/
def Dev.changeStart (d : Dev) (e to_ : Nat) : Dev :=
  if (smFind d.oe.change e).isSome then d
  else
    let d := { d with oe := { d.oe with change := smInsert d.oe.change e ⟨to_, false⟩ } }
    (d.wr (if to_ = 1 then F.OE_STATE_b_en else F.OE_STATE_a_en) e 0 1).feedSwitch e

-- The fade ladder (R226, R227) -----------------------------------------------------------------------------------------

/-- New mask of a ladder row: set at or below the threshold, cleared above the recovery level, else as before; a monitor
without a level keeps its state (R224, R226). Levels are eight times 0.01 dB. -/
def ladderMask (lev : Nat → Option Int) (old : Nat) (thr rec_ : Int) : Nat :=
  mask9 fun w => match lev w with
    | none => bitOf old w
    | some v => if v ≤ 8 * thr then true else if 8 * rec_ < v then false else bitOf old w

/-- Lanes of an engine that a wavelength carries. -/
def Dev.lanesOn (d : Dev) (e w : Nat) : List Nat := ((List.range 64).map (64 * e + ·)).filter fun n => d.carryOf n == w

/-- Takes down every port with a lane in a list; one in training falls back to its start. -/
def Dev.downLanes (d : Dev) (ls : List Nat) : Dev :=
  d.each ((ls.filterMap d.portOf).eraseDups) fun d p => if d.linkUp p || d.portState p = 1 then d.linkDown p true else d

/-- FADE_LADDER (R226, R227, Table 9.3) on the selected feed of an engine, rows from the top down. (DEDUCED, log 81) -/
def Dev.ladder (d : Dev) (e : Nat) : Dev :=
  let f := d.rd F.OE_STATE_feed e 0
  let lev := d.level8 e f
  let ow := d.rd F.OE_STATE_warn e 0
  let of_ := d.rd F.OE_STATE_fade e 0
  let od := smGet d.oe.deep e 0
  let on_ := d.rd F.OE_STATE_down e 0
  let nw := ladderMask lev ow (-100) (-50)
  let nf := ladderMask lev of_ (-200) (-150)
  let nd := ladderMask lev od (-350) (-300)
  let nn := ladderMask lev on_ (-450) (-400)
  let ws := List.range 9
  -- -1.0 dB
  let d := d.wr F.OE_STATE_warn e 0 nw
  let d := d.each ws fun d w =>
    if bitOf nw w && !bitOf ow w then d.oeEvent e 0 (oeDetail 0 w f)
    else if !bitOf nw w && bitOf ow w then d.countEvent .OE e 0 (oeDetail 0 w f)
    else d
  -- -2.0 dB
  let d := d.wr F.OE_STATE_fade e 0 nf
  let sub := d.rd F.OE_STATE_sub e 0
  let hit := ws.filter fun w => w < 8 && bitOf nf w && !bitOf of_ w && !(sub != 0 && w == d.rd F.OE_STATE_sub_wl e 0)
  let second := bitOf nf 8 && !bitOf of_ 8 && d.rd F.OE_STATE_sub e 0 != 0
  let d := if hit.isEmpty && !second then d
    else if hit.length = 1 && !second && d.spareFree e then d.subStart e (hit.headD 0)
    else if f = 0 then d.changeStart e 1
    else d
  -- -3.5 dB
  let d := { d with oe := { d.oe with deep := smSet d.oe.deep e nd 0 } }
  let d := if f = 0 && ws.any (fun w => bitOf nd w && !bitOf od w) then d.changeStart e 1 else d
  -- -4.5 dB
  let d := d.wr F.OE_STATE_down e 0 nn
  d.each ws fun d w =>
    if bitOf nn w && !bitOf on_ w then
      (((d.downLanes (d.lanesOn e w)).logErr .OE e 3 (oeDetail 0 w f)).evtCnt .OE e 5)
    else d

/-- Whether a feed's first levels call for a changeover under Table 9.3 (R222): by those of its monitors that have a level, or
because every monitor of it reads below its range. -/
def Dev.callsChange (d : Dev) (e f : Nat) (feeds : List Int) : Bool :=
  let below := fun (t : Int) (w : Nat) => match d.level8 e f w with
    | some v => decide (v ≤ 8 * t)
    | none => false
  let faded := (List.range 8).filter (below (-200))
  let dark := (List.range 9).all fun w => (d.level8 e f w).isNone && decide (feeds.getD (9 * f + w) (-10000) < -3000)
  dark || (List.range 9).any (below (-350)) || 2 ≤ faded.length || (faded.length == 1 && below (-200) 8)

/-- First evaluation of the feeds after calibration (R222): feed B only where A calls for a changeover and B does not;
one working wavelength between -2.0 and -3.5 dB gets λ8 before the links train. The engine is then settled. The first mean
comes with the eighth sample; a monitor without a level is left out (R224). (DEDUCED, log 83) -/
def Dev.firstFeeds (d : Dev) (e : Nat) (feeds : List Int) : Dev :=
  let n := smGet d.oe.rounds e 0 + 1
  let d := { d with oe := { d.oe with rounds := smInsert d.oe.rounds e n } }
  if n < 8 then d
  else
    let d := { d with oe := { d.oe with settling := d.oe.settling.filter (· != e) } }
    let d := if d.on F.OE_CAL_STAT_busy e 0 then (d.wr F.OE_CAL_STAT_busy e 0 0).wr F.OE_CAL_STAT_last e 0 4 else d
    let b := d.callsChange e 0 feeds && !d.callsChange e 1 feeds
    let d := if b then (((d.wr F.OE_STATE_feed e 0 1).wr F.OE_STATE_b_en e 0 1).wr F.OE_STATE_a_en e 0 0).showReady e else d
    let f := if b then 1 else 0
    match (List.range 8).filter fun w => match d.level8 e f w with
      | some v => decide (v ≤ -1600) && decide (-2800 < v)
      | none => false with
    | [w] => if d.spareFree e then
        -- the ladder's row of -2.0 dB is taken by this assignment
        (d.wr F.OE_STATE_fade e 0 (d.rd F.OE_STATE_fade e 0 + 2 ^ w)).subStart e w else d
    | _ => d

/-- TRANSMIT_PATH_LOW (R225): a transmit fibre 3.0 dB or more below its reference while every wavelength of the selected
feed stands above -1.0 dB: error code 8 and one event until the fibre has recovered. (DEDUCED, log 85) -/
def Dev.txPath (d : Dev) (e t : Nat) : Dev :=
  let fib := 8 * e + t
  let l := smGet d.oe.txf fib []
  let f := d.rd F.OE_STATE_feed e 0
  let healthy := (List.range 9).all fun w => match d.level8 e f w with
    | some v => decide (-800 < v)
    | none => false
  let low := l.length == 8 && decide (l.sum - 8 * s16 (d.rd F.OE_TXF_PWR_ref e t) ≤ -2400)
  if !low then { d with oe := { d.oe with low := d.oe.low.filter (· != fib) } }
  else if !healthy || d.oe.low.contains fib then d
  else
    let d := { d with oe := { d.oe with low := d.oe.low ++ [fib] } }
    (d.logErr .OE e 8 (oeDetail fib 0 f)).evtCnt .OE e 7

/-- Whether a sample lies in the photodiode's range of -30 to +25 dBm (R224). -/
def inRange (v : Int) : Bool := decide (-3000 ≤ v) && decide (v ≤ 2500)

/-- One sample of a feed monitor (R223, R224); a written reference holds from here on (Table 9.10).
(DEDUCED, log 84) -/
def Dev.feedSample (d : Dev) (e i : Nat) (v : Int) : Dev :=
  let k := e * 32 + i
  let d := { d with oe := { d.oe with ref := smInsert d.oe.ref k (s16 (d.rd F.OE_REF_ref e i)) } }
  if !inRange v then
    (({ d with oe := { d.oe with feed := smErase d.oe.feed k } } : Dev).cnt (ErrBlk.set .OE e) 2).logErr .OE e 7
      (oeDetail 0 (i % 9) (i / 9))
  else
    let d := { d with oe := { d.oe with feed := smInsert d.oe.feed k (push8 (smGet d.oe.feed k []) v) } }
    match d.level8 e (i / 9) (i % 9) with
    | none => d
    | some s =>
      let lev := d.divFree s 8
      let d := d.fresh.1.wr F.OE_FEED_PWR_level e i (u16 lev)
      if d.oe.minSet.contains k && s16 (d.rd F.OE_FEED_PWR_min e i) ≤ lev then d
      else ({ d with oe := { d.oe with minSet := if d.oe.minSet.contains k then d.oe.minSet else d.oe.minSet ++ [k] } } : Dev).wr
        F.OE_FEED_PWR_min e i (u16 lev)

/-- One sample of a transmit fibre monitor (R223, R224). -/
def Dev.txfSample (d : Dev) (e t : Nat) (v : Int) : Dev :=
  let fib := 8 * e + t
  if !inRange v then
    (({ d with oe := { d.oe with txf := smErase d.oe.txf fib } } : Dev).cnt (ErrBlk.set .OE e) 2).logErr .OE e 7
      (oeDetail fib 0 (d.rd F.OE_STATE_feed e 0))
  else
    let l := push8 (smGet d.oe.txf fib []) v
    let d := { d with oe := { d.oe with txf := smInsert d.oe.txf fib l } }
    if l.length < 8 then d
    else
      let lev := d.divFree (l.sum - 8 * s16 (d.rd F.OE_TXF_PWR_ref e t)) 8
      d.fresh.1.wr F.OE_TXF_PWR_level e t (u16 lev)

/-- Counts the samples in a row that find a feed ready (Table 9.6 step 3): all nine wavelengths above -1.0 dB. -/
def Dev.feedRun (d : Dev) (e f : Nat) (feeds : List Int) : Dev :=
  let good := (List.range 9).all fun w =>
    let v := feeds.getD (9 * f + w) (-10000)
    inRange v && decide (s16 (d.rd F.OE_REF_ref e (9 * f + w)) - 100 < v)
  let run := if good then Nat.min 8 (smGet d.oe.run (2 * e + f) 0 + 1) else 0
  { d with oe := { d.oe with run := smSet d.oe.run (2 * e + f) run 0 } }

/-- MONITOR_SAMPLE (R223 to R227, R235): the 18 feed samples (9 of feed A, 9 of feed B) and 8 transmit fibre samples of an
engine in 0.01 dBm. (DEDUCED, log 80) -/
def Dev.monitorSample (d : Dev) (e : Nat) (feeds txf : List Int) : Dev :=
  if !d.engineRuns e then d
  else
    let d := d.cntPC (ErrBlk.set .OE e) 1 none none 26
    let d := d.each (List.range 18) fun d i => d.feedSample e i (feeds.getD i (-10000))
    let d := d.each (List.range 8) fun d t => d.txfSample e t (txf.getD t (-10000))
    let d := ((d.feedRun e 0 feeds).feedRun e 1 feeds).showReady e
    let d := if d.oe.settling.contains e then d.firstFeeds e feeds else d
    let d := if d.oe.settling.contains e then d else d.ladder e
    let d := d.each (List.range 8) fun d t => d.txPath e t
    d.feedSwitch e

/-- FEED_RELEASE (Table 9.6 step 6): the old feed's enable falls, the changeover is counted and raised, the ladder applies
to the new feed. -/
def Dev.feedRelease (d : Dev) (e : Nat) : Dev :=
  match smFind d.oe.change e with
  | none => d
  | some c =>
    if !c.switched then d
    else
      let d := { d with oe := { d.oe with change := smErase d.oe.change e, deep := smErase d.oe.deep e } }
      let d := d.wr (if c.to_ = 1 then F.OE_STATE_a_en else F.OE_STATE_b_en) e 0 0
      let d := (d.cmdEnd e [3, 4]).oeEvent e (if c.to_ = 1 then 3 else 4) (oeDetail 0 0 c.to_)
      ((d.wr F.OE_STATE_warn e 0 0).wr F.OE_STATE_fade e 0 0).ladder e

/-- FEED_READY_TIMEOUT (R237, R238): the new feed is not ready within 5 ms; the engine stays on its feed. -/
def Dev.feedTimeout (d : Dev) (e : Nat) : Dev :=
  match smFind d.oe.change e with
  | none => d
  | some c =>
    if c.switched then d
    else
      let d := { d with oe := { d.oe with change := smErase d.oe.change e } }
      let d := d.wr (if c.to_ = 1 then F.OE_STATE_b_en else F.OE_STATE_a_en) e 0 0
      let d := (d.cmdEnd e [3, 4]).resumeSubs e false
      (d.logErr .OE e 2 (oeDetail 0 0 c.to_)).evtCnt .OE e 9

-- The requesting end (R230 to R232) ---------------------------------------------------------------------------------------

/-- Lane that a negotiation moves. -/
def subLane (fib op from_ to_ : Nat) : Nat := 8 * fib + (if op = 0 then from_ else to_)

/-- Sends a message of a transmit fibre's negotiation on the link that holds its lane. -/
def Dev.reqSend (d : Dev) (fib kind : Nat) (r : SubReq) : Dev :=
  match d.portOf (subLane fib r.op r.from_ r.to_) with
  | some p => d.sendSub p kind r.seq r.op r.from_ r.to_ (if kind = 0x24 then r.block else 0)
  | none => d

/-- The requesting negotiation of a port's fibre with a sequence. -/
def Dev.reqOf (d : Dev) (port seq : Nat) : Option SubReq :=
  match smFind d.oe.req (port / 8) with
  | some r => if r.seq = seq then some r else none
  | none => none

/-- Step 3 of R231, once the modulator is locked and the ready answer has arrived. -/
def Dev.reqTrain (d : Dev) (fib : Nat) (r : SubReq) : Dev :=
  if r.phase = 1 && r.lock && r.ready && !d.paused (fib / 8) then
    let d := d.setReq fib (some { r with phase := 2 })
    if r.op = 0 then d.setFib fib 2 else d
  else d.setReq fib (some r)

/-- SUB_READY_RECEIVE (R231 step 3). -/
def Dev.subReady (d : Dev) (port seq : Nat) : Dev :=
  match d.reqOf port seq with
  | some r => if r.phase = 1 then d.reqTrain (port / 8) { r with ready := true } else d
  | none => d

/-- SUB_MODULATOR_LOCKED (R231 step 3). -/
def Dev.subLocked (d : Dev) (fib : Nat) : Dev :=
  match smFind d.oe.req fib with
  | some r => if r.phase = 1 then d.reqTrain fib { r with lock := true } else d
  | none => d

/-- SUB_MIRROR_REQUEST_RECEIVE (R231 step 4): the lane's block stream is copied onto the new wavelength. This message, and those of
steps 6 and 8 and a refusal, are dropped where they arrive while a changeover pauses the negotiation.
(DESIGN CHOICE, log 195) -/
def Dev.subMirror (d : Dev) (port seq : Nat) : Dev :=
  match d.reqOf port seq with
  | some r =>
    if r.phase = 2 && !d.paused (port / 64) then
      let d := d.setReq (port / 8) (some { r with phase := 3 })
      if r.op = 0 then d.setFib (port / 8) 3 else d
    else d
  | none => d

/-- SUB_MIRROR_GOOD_RECEIVE (R231 step 6): the switch message names a block 512 past the current transmit block. -/
def Dev.subGood (d : Dev) (port seq : Nat) : Dev :=
  match d.reqOf port seq with
  | some r =>
    if r.phase = 3 && !d.paused (port / 64) then
      let r := { r with phase := 4, block := (d.txLink port).blocks + 512 }
      let d := (d.setReq (port / 8) (some r)).reqSend (port / 8) 0x24 r
      if r.op = 0 then d.setFib (port / 8) 4 else d
    else d
  | none => d

/-- The lane is on its new wavelength (R231 step 8). -/
def Dev.reqDone (d : Dev) (fib : Nat) (r : SubReq) : Dev :=
  (((d.setReq fib none).setCarry (subLane fib r.op r.from_ r.to_) r.to_).setFib fib (if r.op = 0 then 5 else 0)).subEnd (fib / 8)

/-- SUB_DONE_RECEIVE (R231 step 8). -/
def Dev.subDone (d : Dev) (port seq : Nat) : Dev :=
  match d.reqOf port seq with
  | some r => if (r.phase = 4 || r.block ≠ 0) && !d.paused (port / 64) then d.reqDone (port / 8) r else d
  | none => d

/-- Abandons one fibre's negotiation (R232): the lane stays where it is, error code 1, counted. A fibre whose revert is abandoned
is on spare (5) as before. (DESIGN CHOICE, log 194) -/
def Dev.abandon (d : Dev) (fib : Nat) (r : SubReq) : Dev :=
  let e := fib / 8
  let d := (d.setReq fib none).setFib fib (if r.op = 0 then 6 else 5)
  ((d.logErr .OE e 1 (oeDetail fib r.from_ (d.rd F.OE_STATE_feed e 0))).evtCnt .OE e 2).subEnd e

/-- SUB_REFUSE_RECEIVE (R232). -/
def Dev.subRefuse (d : Dev) (port seq : Nat) : Dev :=
  match d.reqOf port seq with
  | some r => if d.paused (port / 64) then d else d.abandon (port / 8) r
  | none => d

/-- SUB_TIMEOUT (R232): a limit has passed. A fibre whose switch message is out counts as moved, any other is
abandoned. (DEDUCED, log 174) -/
def Dev.subTimeout (d : Dev) (fib : Nat) : Dev :=
  match smFind d.oe.req fib with
  | some r => if d.paused (fib / 8) then d else if r.phase = 4 || r.block ≠ 0 then d.reqDone fib r else d.abandon fib r
  | none => d

-- The far end (R230, R231) --------------------------------------------------------------------------------------------------

/-- Sends an answer of a receive fibre's negotiation. -/
def Dev.farSend (d : Dev) (fib kind : Nat) (r : SubFar) : Dev :=
  match d.portOf (subLane fib r.op r.from_ r.to_) with
  | some p => d.sendSub p kind r.seq r.op r.from_ r.to_ 0
  | none => d

/-- SUB_REQUEST_RECEIVE (R230, R231 step 2): the far end tunes its filter, or refuses; a repeated request is answered
again and acted on once. -/
def Dev.subRequest (d : Dev) (port seq op from_ to_ : Nat) : Dev :=
  let fib := port / 8
  let rep := match smFind d.oe.far fib with
    | some r => if r.seq = seq then some r else none
    | none => none
  match rep with
  | some r => if r.phase = 7 then d.sendSub port 0x26 seq op from_ to_ 0
    else if 2 ≤ r.phase then d.sendSub port 0x21 seq op from_ to_ 0 else d
  | none =>
    let lane := subLane fib op from_ to_
    let used := ((List.range 8).map (8 * fib + ·)).any fun n => smGet d.ln.rxWl n (n % 8) == to_
    let bad := !d.linkUp port || 2 ≤ op || 9 ≤ from_ || 9 ≤ to_ || used || !(d.lanesOf port).contains lane
    let d := d.setFar fib (some ⟨seq, op, from_, to_, if bad then 7 else 1, 0⟩)
    if bad then d.sendSub port 0x26 seq op from_ to_ 0 else d

/-- A step of the far end from one phase to the next, with its answer. -/
def Dev.farStep (d : Dev) (fib from_ kind : Nat) : Dev :=
  match smFind d.oe.far fib with
  | some r => if r.phase = from_ then (d.setFar fib (some { r with phase := from_ + 1 })).farSend fib kind r else d
  | none => d

/-- SUB_FILTER_LOCKED (R231 step 2): answers ready. -/
def Dev.subFilter (d : Dev) (fib : Nat) : Dev := d.farStep fib 1 0x21

/-- SUB_RECEIVER_ADAPTED (R231 step 3): sends the mirror request. A negotiation that the requesting end resumed at step 3
(R233) adapts again. -/
def Dev.subAdapted (d : Dev) (fib : Nat) : Dev :=
  match smFind d.oe.far fib with
  | some r =>
    if 2 ≤ r.phase && r.phase ≤ 5 then (d.setFar fib (some { r with phase := 3, block := 0 })).farSend fib 0x22 r else d
  | none => d

/-- SUB_MIRROR_VERIFIED (R231 step 5): 2,048 blocks have compared equal; answers mirror good. -/
def Dev.subVerified (d : Dev) (fib : Nat) : Dev := d.farStep fib 3 0x23

/-- SUB_SWITCH_RECEIVE (R231 step 6): the agreed block; a repeated message after the switch is answered done again. -/
def Dev.subSwitch (d : Dev) (port seq block : Nat) : Dev :=
  match smFind d.oe.far (port / 8) with
  | some r =>
    if r.seq ≠ seq then d
    else if r.phase = 4 then d.setFar (port / 8) (some { r with phase := 5, block := block })
    else if r.phase = 6 then d.farSend (port / 8) 0x25 r
    else d
  | none => d

/-- SUB_SWITCH_BLOCK (R231 step 7): at the agreed block the lane is taken from the new wavelength. -/
def Dev.subBlock (d : Dev) (fib : Nat) : Dev :=
  match smFind d.oe.far fib with
  | some r =>
    if r.phase ≠ 5 then d
    else
      let lane := subLane fib r.op r.from_ r.to_
      let d := { d with ln := { d.ln with rxWl := smSet d.ln.rxWl lane r.to_ (lane % 8) } }
      (d.setFar fib (some { r with phase := 6 })).farSend fib 0x25 r
  | none => d

/-- SUB_RESEND (R230): the unanswered request or switch message of a transmit fibre, or the unanswered mirror request of a
receive fibre (`far`), goes out again with its sequence. -/
def Dev.subResend (d : Dev) (fib : Nat) (far : Bool) : Dev :=
  if far then
    match smFind d.oe.far fib with
    | some r => if r.phase = 3 then d.farSend fib 0x22 r else d
    | none => d
  else match smFind d.oe.req fib with
    | some r => if d.paused (fib / 8) then d else if r.phase = 1 && !r.ready then d.reqSend fib 0x20 r else if r.phase = 4 then d.reqSend fib 0x24 r else d
    | none => d

-- Heater loops (R239, R240) ------------------------------------------------------------------------------------------------------

/-- OE_STATE in_service (Table 9.9): the section is loaded, since the engine runs, and every heater loop is locked. -/
def Dev.inService (d : Dev) (e : Nat) : Dev :=
  d.wr F.OE_STATE_in_service e 0 (b2n ((List.range 144).all fun i => d.on F.OE_TUNE_locked e i))

/-- HEATER_LOOP_UPDATE (R239): one update of a heater loop: its lock, and the temperature and largest slew that the engine
measures. -/
def Dev.heaterUpdate (d : Dev) (e i : Nat) (locked : Bool) (temp slew : Nat) : Dev :=
  if !d.engineRuns e then d
  else (((d.wr F.OE_TUNE_locked e i (b2n locked)).wr F.OE_THERM_die e 0 temp).wr F.OE_THERM_slew e 0 slew).inService e

/-- HEATER_UNLOCK (R240): error code 4, counted; the lane that the modulator carries or the filter serves retrains. -/
def Dev.heaterUnlock (d : Dev) (e i : Nat) : Dev :=
  if !d.engineRuns e then d
  else
    let fib := 8 * e + i % 72 / 9
    let w := i % 9
    let ls := ((List.range 8).map (8 * fib + ·)).filter fun n =>
      if i < 72 then d.carryOf n == w else smGet d.ln.rxWl n (n % 8) == w
    let d := ((d.wr F.OE_TUNE_locked e i 0).inc F.OE_THERM_unlocks e 0 1).inService e
    ((d.logErr .OE e 4 (oeDetail fib w (d.rd F.OE_STATE_feed e 0))).evtCnt .OE e 6).downLanes ls

-- Commands and calibration -----------------------------------------------------------------------------------------------------------

/-- A write to OE_CMD (Table 9.9, R234, R235, R238); op 0 does nothing. (DEDUCED, log 82) -/
def Dev.oeCmd (d : Dev) (e op wl : Nat) : Dev :=
  let st := fun (d : Dev) (n : Nat) => d.wr F.OE_CMD_status e 0 n
  let f := d.rd F.OE_STATE_feed e 0
  let sub := d.rd F.OE_STATE_sub e 0
  let up := match d.level8 e f (d.rd F.OE_STATE_sub_wl e 0) with
    | some v => decide (-800 < v)
    | none => false
  let invalid := match op with
    | 1 => !d.spareFree e
    | 2 => !up || sub == 0
    | 3 => f != 0
    | _ => f != 1
  if op = 0 then d
  else if invalid then st d 2
  else if d.on F.OE_CMD_busy e 0 || (op = 2 && sub ≠ 2) || (2 < op && (smFind d.oe.change e).isSome) then st d 1
  else
    let d := { d with oe := { d.oe with cmd := smInsert d.oe.cmd e op } }
    let d := (st d 0).wr F.OE_CMD_busy e 0 1
    match op with
    | 1 => d.subStart e wl
    | 2 => d.subRevert e
    | 3 => d.changeStart e 1
    | _ => d.changeStart e 0

/-- An engine's samples, negotiations and changes are gone (R245). -/
def Dev.oeForget (d : Dev) (e : Nat) : Dev :=
  let keepF := fun (m : List (Nat × List Int)) => m.filter fun x => x.1 / 32 != e
  let fibs := fibresOf e
  { d with oe := { d.oe with
    feed := keepF d.oe.feed, ref := d.oe.ref.filter fun x => x.1 / 32 != e, txf := d.oe.txf.filter fun x => x.1 / 8 != e, deep := smErase d.oe.deep e,
    carry := d.oe.carry.filter fun x => x.1 / 64 != e, req := d.oe.req.filter fun x => x.1 / 8 != e,
    far := d.oe.far.filter fun x => x.1 / 8 != e, change := smErase d.oe.change e,
    low := d.oe.low.filter fun x => !fibs.contains x, settling := d.oe.settling.filter (· != e),
    rounds := smErase d.oe.rounds e, run := d.oe.run.filter fun x => x.1 / 2 != e, cmd := smErase d.oe.cmd e } }

/-- Loads an engine's section and starts its settling (R242, R222, R245): both enables low, then feed A's high and feed A
selected; substitution state afresh. A section whose digest fails leaves the engine out of service, error code 5. -/
def Dev.calibrate (d : Dev) (e : Nat) (s : CalSec) : Dev :=
  let d := d.oeForget e
  let d := ((d.wrw .OE_STATE e 0 0).wrw .OE_SUB_STAT e 0 0).wr F.OE_CMD_busy e 0 0
  let d := (d.wr F.OE_CAL_STAT_user e 0 (b2n s.user)).wr F.OE_CAL_STAT_commits e 0 s.commits
  if !s.ok then
    let d := if d.on F.OE_CAL_STAT_busy e 0 then (d.wr F.OE_CAL_STAT_busy e 0 0).wr F.OE_CAL_STAT_last e 0 2 else d
    (d.wr F.HUB_STRAP_state 0 (2 + e) 3).logErr .OE e 5 0
  else
    let v := fun i => s.data.getD i 0
    let d := d.each (List.range 18) fun d i => d.wr F.OE_REF_ref e i (v i)
    let d := d.each (List.range 8) fun d i => d.wr F.OE_TXF_PWR_ref e i (v (18 + i))
    let d := d.each (List.range 144) fun d i =>
      ((d.wr F.OE_TUNE_heater e i (v (26 + i))).wr F.OE_TUNE_bias e i (v (170 + i))).wr F.OE_TUNE_locked e i 1
    let d := ((d.wr F.OE_STATE_a_en e 0 1).wr F.OE_STATE_in_service e 0 1).wr F.HUB_STRAP_state 0 (2 + e) 1
    { d with oe := { d.oe with settling := d.oe.settling ++ [e] } }

/-- CALIBRATION_RECAL (R245): the engine's optical lanes go down and its section is loaded afresh. -/
def Dev.recal (d : Dev) (e : Nat) (s : CalSec) : Dev :=
  let ls := ((List.range 64).map (64 * e + ·)).filter fun n => d.carryOf n != 15
  ((d.downLanes ls).wr F.OE_CAL_STAT_busy e 0 1).calibrate e s

/-- The working values of an engine as its section would hold them (R243). -/
def Dev.oeSection (d : Dev) (e : Nat) : List Nat :=
  (List.range 18).map (d.rd F.OE_REF_ref e) ++ (List.range 8).map (d.rd F.OE_TXF_PWR_ref e) ++
    (List.range 144).map (d.rd F.OE_TUNE_heater e) ++ (List.range 144).map (d.rd F.OE_TUNE_bias e)

end Sys2Proof.Machine
end

