-- ==== Sys2Proof/Machine/Bypass.lean ====
section
/-! DEFINITION. Optical circuit bypass (10_optical_bypass): setting up, verifying and tearing down circuits (R248 to
R256), sampling and trim (R257), the circuit records of the bias cells (R258) and image activation (R259). -/

namespace Sys2Proof.Machine

/-- Mesh outputs of a mask, in rising order. -/
def outsOf (w : Word) : List Nat := (List.range 32).filter fun o => wbit w o

/-- Insertion loss limit in 0.01 dB by fan-out (Table 10.1). -/
def lossLimit (n : Nat) : Int := if n ≤ 1 then 320 else if n = 2 then 670 else if n = 3 then 850 else 970

/-- ERR_FIRST detail of a bypass die (Table 10.7). -/
def bypDetail (input output : Nat) : Word := wmk [(9, 5, input), (4, 0, output)]

/-- Counts a bypass event and raises its record of kind 1. -/
def Dev.bypEvent (d : Dev) (q k input output : Nat) : Dev :=
  (d.evtCnt .BYP q k).countEvent .BYP q k (bypDetail input output)

/-- The records of one event that spans several: all but the last say that the next one continues it (Table 14.5). -/
def Dev.moreRecs (d : Dev) (b : ErrBlk) (inst k : Nat) : List Word → Dev
  | [] => d
  | [w] => d.raiseRec (b.unit inst) false (evE0 b.num inst 1 false k) w 0
  | w :: ws => (d.raiseRec (b.unit inst) false (evE0 b.num inst 1 true k) w 0).moreRecs b inst k ws

/-- The setup event (step 10 of Table 10.2): one record for each output with its loss, one for each port taken. Table 14.5
gives no place to the losses and ports: the loss stands where BYP_OUT has it, a port in [31:22] with [21] set.
(DESIGN CHOICE, log 90) -/
def Dev.setupEvent (d : Dev) (q k i : Nat) (losses : List (Nat × Nat)) (ports : List Nat) : Dev :=
  d.moreRecs .BYP q k ((losses.map fun x => bypDetail i x.1 ||| wmk [(47, 32, x.2)]) ++
    ports.map fun p => bypDetail i ((losses.headD (0, 0)).1) ||| wmk [(31, 22, p), (21, 21, 1)])

/-- Whether bypass die `q` runs with its bias cells read (R255, R258). -/
def Dev.bypUp (d : Dev) (q : Nat) : Bool := d.dieState (18 + q) == 1 && d.by_.read.contains q

/-- Outputs of the circuit on an input. -/
def Dev.outMask (d : Dev) (q i : Nat) : Word := BitVec.ofNat 64 (d.rd F.BYP_IN_outputs q i)

/-- The optical ports with a lane on the input fibre or an output fibre of a circuit (R251). -/
def Dev.circuitPorts (d : Dev) (q i : Nat) (outs : List Nat) : List Nat :=
  let fibs := (32 * q + i) :: outs.map (32 * q + ·)
  ((fibs.flatMap fun f => (List.range 8).filterMap fun l => d.portOf (8 * f + l)).eraseDups).filter fun p => !d.electrical p

/-- Shows a circuit in BYP_IN and BYP_OUT. -/
def Dev.showCircuit (d : Dev) (q i state : Nat) (outs : List Nat) (mask : Word) : Dev :=
  let d := d.wrw .BYP_IN q i (wmk [(63, 63, 1), (62, 60, state), (54, 52, outs.length),
    (47, 32, d.rd F.BYP_IN_level q i), (31, 0, mask.toNat)])
  d.each outs fun d o => ((d.wr F.BYP_OUT_active q o 1).wr F.BYP_OUT_input q o i).wr F.BYP_OUT_low q o 0

/-- Takes a circuit's paths to dark: the fibres return to their engines. -/
def Dev.darken (d : Dev) (q i : Nat) : Dev :=
  let outs := outsOf (d.outMask q i)
  let d := { d with by_ := { d.by_ with inp := smErase d.by_.inp (q * 32 + i),
                                        outp := d.by_.outp.filter fun x => !(outs.map (q * 32 + ·)).contains x.1 } }
  (d.each outs fun d o => d.wrw .BYP_OUT q o 0).wrw .BYP_IN q i 0

/-- A bias cell commit (R253, R258): counted, with the die temperature of the time. -/
def Dev.biasCommit (d : Dev) (q i : Nat) (r : Option BiasRec) : Dev :=
  let t := d.rd F.BYP_THERM_die q 0
  let k := q * 32 + i
  let m := match r with
    | some r => smInsert d.by_.rec_ k r
    | none => smErase d.by_.rec_ k
  let d := { d with by_ := { d.by_ with rec_ := m, temp := smInsert d.by_.temp q t } }
  (d.wr F.BYP_THERM_commit q 0 t).evtCnt .BYP q 4

/-- Tears a circuit down (R256): the path goes dark and the dark state is committed. Bias cells that do not take it are error
code 2, and their record stays. -/
def Dev.teardown (d : Dev) (q i : Nat) : Dev :=
  let out := (outsOf (d.outMask q i)).headD 0
  let takes := Config.biasTakes d.freeCtr
  let d := (d.fresh.1.darken q i).evtCnt .BYP q 1
  if takes then d.biasCommit q i none else d.logErr .BYP q 2 (bypDetail i out)

/-- Whether a new circuit keeps the limits of R248. -/
def Dev.circuitFits (d : Dev) (q i : Nat) (outs : List Nat) : Bool :=
  let wide := (List.range 32).filter fun j => 2 ≤ d.rd F.BYP_IN_fanout q j
  1 ≤ outs.length && outs.length ≤ 4 && !d.on F.BYP_IN_active q i && (outs.all fun o => !d.on F.BYP_OUT_active q o) &&
    (outs.length == 1 || wide.length < 8)

/-- Whether a quad takes a new circuit: the limits of R248, and a phase table that verified (Table 10.7 code 3). -/
def Dev.circuitOk (d : Dev) (q i : Nat) (outs : List Nat) : Bool := d.circuitFits q i outs && !d.by_.noNew.contains q

/-- Begins a setup (steps 1 to 5 of Table 10.2), of an image circuit or by command: the affected links go down without an event of
their own (R251). -/
def Dev.beginSetup (d : Dev) (q i : Nat) (mask : Word) (image : Bool) : Dev :=
  let outs := outsOf mask
  let d := d.each (d.circuitPorts q i outs) fun d p =>
    if d.linkUp p || d.portState p == 1 then d.linkDown p false else d
  let d := { d with by_ := { d.by_ with op := smInsert d.by_.op q ⟨1, i, image⟩ } }
  (d.showCircuit q i 1 outs mask).wr F.BYP_CMD_busy q 0 1

/-- A write to BYP_CMD (R251, R253, R255, R256); op 0 does nothing. (DEDUCED, log 92) -/
def Dev.bypCmd (d : Dev) (q op i : Nat) (take : Bool) : Dev :=
  let st := fun (d : Dev) (n : Nat) => d.wr F.BYP_CMD_status q 0 n
  let mask := BitVec.ofNat 64 (d.rd F.BYP_CMD_OUT_outputs q 0)
  let outs := outsOf mask
  if op = 0 then d
  else if (smFind d.by_.op q).isSome || !d.bypUp q then st d 1
  else if op = 1 then
    if !d.circuitOk q i outs then st d 2
    else if !take && (d.circuitPorts q i outs).any fun p => d.linkUp p || d.portState p == 1 then st d 3
    else (st d 0).beginSetup q i mask false
  else if !d.on F.BYP_IN_active q i then st d 2
  else if op = 2 then (st d 0).teardown q i
  else
    let d := st d 0
    ({ d with by_ := { d.by_ with op := smInsert d.by_.op q ⟨3, i, false⟩ } } : Dev).wr F.BYP_CMD_busy q 0 1

/-- A quad's next image circuit, once no command runs (R259, R255); one that conflicts under R248 is error code 7. -/
def Dev.nextSetup (d : Dev) (q : Nat) : Dev :=
  match d.by_.todo.find? fun t => t.1 == q with
  | none => d
  | some t =>
    if (smFind d.by_.op q).isSome then d
    else
      let d := { d with by_ := { d.by_ with todo := d.by_.todo.erase t } }
      if d.circuitOk q t.2.1 (outsOf t.2.2) then d.beginSetup q t.2.1 t.2.2 true
      else if d.circuitFits q t.2.1 (outsOf t.2.2) then d
      else d.logErr .BYP q 7 (bypDetail t.2.1 ((outsOf t.2.2).headD 0))

/-- Takes a quad's waiting image circuits until one begins: those that conflict are refused at once. -/
def Dev.nextSetups (d : Dev) (q : Nat) : Dev := d.each ((d.by_.todo.filter fun t => t.1 == q).map fun _ => q) fun d q => d.nextSetup q

/-- A command of a bypass die ends with a status. -/
def Dev.bypDone (d : Dev) (q status : Nat) : Dev :=
  let d := { d with by_ := { d.by_ with op := smErase d.by_.op q } }
  ((d.wr F.BYP_CMD_busy q 0 0).wr F.BYP_CMD_status q 0 status).nextSetups q

/-- BYPASS_VERIFY_COMPLETE (R253, R254, Table 10.2): eight samples of the input tap and of each output tap of the circuit,
after trim, in 0.01 dBm, and whether the bias cells took the commit.
(DEDUCED, log 87; DEDUCED, log 88; DEDUCED, log 89) -/
def Dev.bypVerify (d : Dev) (q : Nat) (inTap : List Int) (outTaps : List (List Int)) (biasOk : Bool) : Dev :=
  match smFind d.by_.op q with
  | none => d
  | some c =>
    let i := c.input
    let mask := d.outMask q i
    let outs := outsOf mask
    let old := smFind d.by_.rec_ (q * 32 + i)
    let si := inTap.sum
    let so := fun j => (outTaps.getD j []).sum
    let off := fun k => s16 (smGet d.by_.offs (q * 64 + k) 0)
    let loss8 := fun j => si - so j + 8 * (off i - off (32 + outs.getD j 0))
    let d := d.wr F.BYP_IN_level q i (u16 (d.divFree si 8))
    let js := List.range outs.length
    let put := fun (d : Dev) (state : Nat) =>
      let d := d.showCircuit q i state outs mask
      let d := d.each js fun d j => ((d.wr F.BYP_OUT_loss q (outs.getD j 0) (u16 (d.divFree (loss8 j) 8))).wr
        F.BYP_OUT_level q (outs.getD j 0) (u16 (d.divFree (so j) 8))).wr F.BYP_OUT_drop q (outs.getD j 0) 0
      let r : BiasRec := ⟨mask, state,
        js.map fun j => (outs.getD j 0, d.rd F.BYP_OUT_loss q (outs.getD j 0)),
        js.map fun j => (outs.getD j 0, so j)⟩
      d.fresh.1.biasCommit q i (some r)
    let losses := js.map fun j => (outs.getD j 0, u16 (d.divFree (loss8 j) 8))
    let ports := d.circuitPorts q i outs
    -- step 10, which a verification under R254 leaves out; a setup is counted by its outcome
    let done := fun (d : Dev) (k status : Nat) =>
      let d := if c.op = 1 then d.evtCnt .BYP q k else d
      let d := if c.op = 4 then d else d.setupEvent q k i losses ports
      d.bypDone q (if c.op = 4 then d.rd F.BYP_CMD_status q 0 else status)
    let fails := js.filter fun j => decide (8 * lossLimit outs.length < loss8 j)
    let biasBad := fun (d : Dev) =>
      done ((d.logErr .BYP q 2 (bypDetail i (outs.headD 0))).darken q i) 2 4
    if si < -16000 then
      -- dark input: established on the table phases, state 3
      if !biasOk then biasBad d else done (put d 3) 0 0
    else match fails with
    | j :: _ =>
      let d := d.logErr .BYP q 1 (bypDetail i (outs.getD j 0))
      if c.op = 1 then done (d.darken q i) 2 4
      else
        let d := d.wr F.BYP_IN_state q i 4
        let d := match old with
          | some r => { d with by_ := { d.by_ with rec_ := smInsert d.by_.rec_ (q * 32 + i) { r with state := 4 } } }
          | none => d
        done d 2 4
    | [] => if !biasOk then biasBad d else done (put d 2) 0 0

/-- BYPASS_DARK_INPUT_CHECK (R254): an unverified dark-input circuit whose input reads -20 dBm or more is verified. -/
def Dev.bypDark (d : Dev) (q i : Nat) (level : Int) : Dev :=
  if !d.bypUp q || d.rd F.BYP_IN_state q i ≠ 3 || (smFind d.by_.op q).isSome || level < -2000 then d
  else { d with by_ := { d.by_ with op := smInsert d.by_.op q ⟨4, i, false⟩ } }

/-- One output's new tap sample against its verified level (R257). -/
def Dev.outSample (d : Dev) (q i o : Nat) (v : Int) : Dev :=
  let k := q * 32 + o
  let l := push8 (smGet d.by_.outp k []) v
  let d := { d with by_ := { d.by_ with outp := smInsert d.by_.outp k l } }
  if l.length < 8 then d
  else
    let d := d.fresh.1.wr F.BYP_OUT_level q o (u16 (d.divFree l.sum 8))
    match (smFind d.by_.rec_ (q * 32 + i)).bind fun r => smFind r.level o with
    | none => d
    | some ver =>
      let d := d.wr F.BYP_OUT_drop q o (u16 (d.divFree (ver - l.sum) 8))
      if d.on F.BYP_OUT_low q o then (if ver - 800 ≤ l.sum then d.wr F.BYP_OUT_low q o 0 else d)
      else if l.sum ≤ ver - 2400 then
        ((d.wr F.BYP_OUT_low q o 1).logErr .BYP q 4 (bypDetail i o)).evtCnt .BYP q 3
      else d

/-- BYPASS_TAP_SAMPLE (R257): one sample of every input and output tap in 0.01 dBm and the die temperature. -/
def Dev.bypSample (d : Dev) (q : Nat) (ins outs : List Int) (temp : Nat) : Dev :=
  if !d.bypUp q then d
  else
    let d := d.wr F.BYP_THERM_die q 0 temp
    let act := (List.range 32).filter fun i => d.on F.BYP_IN_active q i && d.rd F.BYP_IN_state q i != 1
    d.each act fun d i =>
      let k := q * 32 + i
      let l := push8 (smGet d.by_.inp k []) (ins.getD i (-10000))
      let d := { d with by_ := { d.by_ with inp := smInsert d.by_.inp k l } }
      let d := if l.length < 8 then d else d.fresh.1.wr F.BYP_IN_level q i (u16 (d.divFree l.sum 8))
      let os := outsOf (d.outMask q i)
      let d := d.cntPC (ErrBlk.set .BYP q) 1 none none (1 + os.length)
      d.each os fun d o => d.outSample q i o (outs.getD o (-10000))

/-- BYPASS_TRIM (R257): one trim of every path while BYP_CFG trim is 1. (DEDUCED, log 91) -/
def Dev.bypTrim (d : Dev) (q : Nat) : Dev :=
  if !d.bypUp q || !d.on F.BYP_CFG_trim q 0 then d
  else
    let n := ((List.range 32).filter fun o => d.on F.BYP_OUT_active q o).length
    (d.inc F.BYP_THERM_trims q 0 n).cntPC (ErrBlk.set .BYP q) 2 none none n

/-- RETAINED_CIRCUIT_RECONCILE (R259): keeps or tears down the retained circuits of a quad and sets up the image's. -/
def Dev.bypActivate (d : Dev) (q : Nat) (image : List (Nat × Word)) : Dev :=
  let d := { d with by_ := { d.by_ with await := smErase d.by_.await q } }
  let keep := d.on F.BYP_CFG_keep q 0
  let held := (List.range 32).filter fun i => d.on F.BYP_IN_active q i && d.rd F.BYP_IN_state q i == 5
  let d := d.each held fun d i =>
    if image.contains (i, d.outMask q i) || keep then
      let st := match smFind d.by_.rec_ (q * 32 + i) with
        | some r => r.state
        | none => 2
      (d.wr F.BYP_IN_state q i st).bypEvent q 5 i 0
    else (d.teardown q i).bypEvent q 6 i 0
  let new := image.filter fun c => !(d.on F.BYP_IN_active q c.1 && d.outMask q c.1 == c.2)
  ({ d with by_ := { d.by_ with todo :=
    (d.by_.todo.filter fun t => t.1 != q) ++ new.map fun (c : Nat × Word) => (q, c.1, c.2) } } : Dev).nextSetups q

/-- The comparison of R259 for a quad: at once where its die has read its records, else when it reads them. -/
def Dev.bypCompare (d : Dev) (q : Nat) (image : List (Nat × Word)) : Dev :=
  if d.bypUp q then d.bypActivate q image
  else { d with by_ := { d.by_ with await := smInsert d.by_.await q image } }

/-- BYPASS_RECORD_READ (R258): the die reads its circuit records into BYP_IN and BYP_OUT; an input in `bad`, whose record
disagrees with its bias cells, is darkened, and an input without a record shows none. Until an image is active a circuit shows
as retained, and the comparison that an activation could not make follows, or the setups that the reset of the die left undone
(R259). -/
def Dev.bypRead (d : Dev) (q : Nat) (bad : List Nat) : Dev :=
  if d.dieState (18 + q) ≠ 1 || d.by_.read.contains q then d
  else
    let d := { d with by_ := { d.by_ with read := d.by_.read ++ [q] } }
    let d := d.wr F.BYP_THERM_commit q 0 (smGet d.by_.temp q 0)
    let wait := smFind d.by_.await q
    let live := d.cfg.active && wait.isNone
    let d := d.each (List.range 32) fun d i => if (smFind d.by_.rec_ (q * 32 + i)).isNone then d.darken q i else d
    let d := d.each (List.range 32) fun d i => match smFind d.by_.rec_ (q * 32 + i) with
      | none => d
      | some r =>
        if bad.contains i then
          let d := { d with by_ := { d.by_ with rec_ := smErase d.by_.rec_ (q * 32 + i) } }
          (d.darken q i).logErr .BYP q 6 (bypDetail i 0)
        else
          let d := d.showCircuit q i (if live then r.state else 5) (outsOf r.outputs) r.outputs
          d.each (outsOf r.outputs) fun d o => d.wr F.BYP_OUT_loss q o (smGet r.loss o 0)
    match wait with
    | some image => d.bypActivate q image
    | none => d.nextSetups q

/-- Loads a quad's calibration section (R242, R261): a section whose digest fails is error code 3, no new circuit. -/
def Dev.bypCalibrate (d : Dev) (q : Nat) (s : CalSec) : Dev :=
  let d := (d.wr F.BYP_CAL_STAT_user q 0 (b2n s.user)).wr F.BYP_CAL_STAT_commits q 0 s.commits
  let rest := d.by_.noNew.filter (· != q)
  if s.ok then
    let offs := (List.range 64).foldl (fun m k => smSet m (q * 64 + k) (s.data.getD k 0) 0) d.by_.offs
    { d with by_ := { d.by_ with noNew := rest, offs := offs, phases := smInsert d.by_.phases q (s.data.drop 64) } }
  else ({ d with by_ := { d.by_ with noNew := rest ++ [q] } } : Dev).logErr .BYP q 3 0

/-- A bypass die that resets stops trimming, sampling and its command; the light holds on the bias cells (Table 10.3). A path
that a setup had not committed is on no bias cell and goes dark (R258); an image circuit is then still to be set up (R259). -/
def Dev.bypReset (d : Dev) (q : Nat) : Dev :=
  let d := match smFind d.by_.op q with
    | some c =>
      if c.op ≠ 1 then d
      else
        let again := if c.image then [(q, c.input, d.outMask q c.input)] else []
        ({ d with by_ := { d.by_ with todo := again ++ d.by_.todo } } : Dev).darken q c.input
    | none => d
  { d with by_ := { d.by_ with
      op := smErase d.by_.op q, read := d.by_.read.filter (· != q),
      inp := d.by_.inp.filter fun x => x.1 / 32 != q, outp := d.by_.outp.filter fun x => x.1 / 32 != q } }

end Sys2Proof.Machine
end

