-- ==== Sys2Proof/Machine/Crypto.lean ====
section
/-! DEFINITION. The cryptographic functions that the manual names: SHA-384 and the other functions of FIPS 180-4, HMAC-SHA-384
(FIPS 198-1, R338), HKDF-SHA-384 (RFC 5869) and the AES-256 key unwrap (RFC 3394) of key installation (R375). The manual gives their
names; their algorithms are those standards'. -/

namespace Sys2Proof.Machine

/-- Round constants 0 to 19 of SHA-384. -/
def shaK0 : List Word :=
  [0x428a2f98d728ae22#64, 0x7137449123ef65cd#64, 0xb5c0fbcfec4d3b2f#64, 0xe9b5dba58189dbbc#64,
   0x3956c25bf348b538#64, 0x59f111f1b605d019#64, 0x923f82a4af194f9b#64, 0xab1c5ed5da6d8118#64,
   0xd807aa98a3030242#64, 0x12835b0145706fbe#64, 0x243185be4ee4b28c#64, 0x550c7dc3d5ffb4e2#64,
   0x72be5d74f27b896f#64, 0x80deb1fe3b1696b1#64, 0x9bdc06a725c71235#64, 0xc19bf174cf692694#64,
   0xe49b69c19ef14ad2#64, 0xefbe4786384f25e3#64, 0x0fc19dc68b8cd5b5#64, 0x240ca1cc77ac9c65#64]

/-- Round constants 20 to 39 of SHA-384. -/
def shaK1 : List Word :=
  [0x2de92c6f592b0275#64, 0x4a7484aa6ea6e483#64, 0x5cb0a9dcbd41fbd4#64, 0x76f988da831153b5#64,
   0x983e5152ee66dfab#64, 0xa831c66d2db43210#64, 0xb00327c898fb213f#64, 0xbf597fc7beef0ee4#64,
   0xc6e00bf33da88fc2#64, 0xd5a79147930aa725#64, 0x06ca6351e003826f#64, 0x142929670a0e6e70#64,
   0x27b70a8546d22ffc#64, 0x2e1b21385c26c926#64, 0x4d2c6dfc5ac42aed#64, 0x53380d139d95b3df#64,
   0x650a73548baf63de#64, 0x766a0abb3c77b2a8#64, 0x81c2c92e47edaee6#64, 0x92722c851482353b#64]

/-- Round constants 40 to 59 of SHA-384. -/
def shaK2 : List Word :=
  [0xa2bfe8a14cf10364#64, 0xa81a664bbc423001#64, 0xc24b8b70d0f89791#64, 0xc76c51a30654be30#64,
   0xd192e819d6ef5218#64, 0xd69906245565a910#64, 0xf40e35855771202a#64, 0x106aa07032bbd1b8#64,
   0x19a4c116b8d2d0c8#64, 0x1e376c085141ab53#64, 0x2748774cdf8eeb99#64, 0x34b0bcb5e19b48a8#64,
   0x391c0cb3c5c95a63#64, 0x4ed8aa4ae3418acb#64, 0x5b9cca4f7763e373#64, 0x682e6ff3d6b2b8a3#64,
   0x748f82ee5defb2fc#64, 0x78a5636f43172f60#64, 0x84c87814a1f0ab72#64, 0x8cc702081a6439ec#64]

/-- Round constants 60 to 79 of SHA-384. -/
def shaK3 : List Word :=
  [0x90befffa23631e28#64, 0xa4506cebde82bde9#64, 0xbef9a3f7b2c67915#64, 0xc67178f2e372532b#64,
   0xca273eceea26619c#64, 0xd186b8c721c0c207#64, 0xeada7dd6cde0eb1e#64, 0xf57d4f7fee6ed178#64,
   0x06f067aa72176fba#64, 0x0a637dc5a2c898a6#64, 0x113f9804bef90dae#64, 0x1b710b35131c471b#64,
   0x28db77f523047d84#64, 0x32caab7b40c72493#64, 0x3c9ebe0a15c9bebc#64, 0x431d67c49c100d4c#64,
   0x4cc5d4becb3e42b6#64, 0x597f299cfc657e2a#64, 0x5fcb6fab3ad6faec#64, 0x6c44198c4a475817#64]

/-- Initial hash value of SHA-384. -/
def sha384Init : List Word :=
  [0xcbbb9d5dc1059ed8#64, 0x629a292a367cd507#64, 0x9159015a3070dd17#64, 0x152fecd8f70e5939#64,
   0x67332667ffc00b31#64, 0x8eb44a8768581511#64, 0xdb0c2e0d64f98fa7#64, 0x47b5481dbefa4fa4#64]

/-- Initial hash value of SHA-512. -/
def sha512Init : List Word :=
  [0x6a09e667f3bcc908#64, 0xbb67ae8584caa73b#64, 0x3c6ef372fe94f82b#64, 0xa54ff53a5f1d36f1#64,
   0x510e527fade682d1#64, 0x9b05688c2b3e6c1f#64, 0x1f83d9abfb41bd6b#64, 0x5be0cd19137e2179#64]

/-- Initial hash value of SHA-256. -/
def sha256Init : List (BitVec 32) :=
  [0x6a09e667#32, 0xbb67ae85#32, 0x3c6ef372#32, 0xa54ff53a#32, 0x510e527f#32, 0x9b05688c#32, 0x1f83d9ab#32, 0x5be0cd19#32]

/-- Round constants 0 to 31 of SHA-256. -/
def shaK4 : List (BitVec 32) :=
  [0x428a2f98#32, 0x71374491#32, 0xb5c0fbcf#32, 0xe9b5dba5#32, 0x3956c25b#32, 0x59f111f1#32, 0x923f82a4#32, 0xab1c5ed5#32,
   0xd807aa98#32, 0x12835b01#32, 0x243185be#32, 0x550c7dc3#32, 0x72be5d74#32, 0x80deb1fe#32, 0x9bdc06a7#32, 0xc19bf174#32,
   0xe49b69c1#32, 0xefbe4786#32, 0x0fc19dc6#32, 0x240ca1cc#32, 0x2de92c6f#32, 0x4a7484aa#32, 0x5cb0a9dc#32, 0x76f988da#32,
   0x983e5152#32, 0xa831c66d#32, 0xb00327c8#32, 0xbf597fc7#32, 0xc6e00bf3#32, 0xd5a79147#32, 0x06ca6351#32, 0x14292967#32]

/-- Round constants 32 to 63 of SHA-256. -/
def shaK5 : List (BitVec 32) :=
  [0x27b70a85#32, 0x2e1b2138#32, 0x4d2c6dfc#32, 0x53380d13#32, 0x650a7354#32, 0x766a0abb#32, 0x81c2c92e#32, 0x92722c85#32,
   0xa2bfe8a1#32, 0xa81a664b#32, 0xc24b8b70#32, 0xc76c51a3#32, 0xd192e819#32, 0xd6990624#32, 0xf40e3585#32, 0x106aa070#32,
   0x19a4c116#32, 0x1e376c08#32, 0x2748774c#32, 0x34b0bcb5#32, 0x391c0cb3#32, 0x4ed8aa4a#32, 0x5b9cca4f#32, 0x682e6ff3#32,
   0x748f82ee#32, 0x78a5636f#32, 0x84c87814#32, 0x8cc70208#32, 0x90befffa#32, 0xa4506ceb#32, 0xbef9a3f7#32, 0xc67178f2#32]

/-- What tells the functions of FIPS 180-4 with words of `w` bits from one another: the round constants, and the places of the four
functions that mix rotations. -/
structure Sha2 (w : Nat) where
  k : List (BitVec w)
  small0 : Nat × Nat × Nat
  small1 : Nat × Nat × Nat
  big0 : Nat × Nat × Nat
  big1 : Nat × Nat × Nat

/-- SHA-384 and SHA-512. -/
def sha2Long : Sha2 64 := ⟨shaK0 ++ shaK1 ++ shaK2 ++ shaK3, (1, 8, 7), (19, 61, 6), (28, 34, 39), (14, 18, 41)⟩

/-- SHA-256. -/
def sha2Short : Sha2 32 := ⟨shaK4 ++ shaK5, (7, 18, 3), (17, 19, 10), (2, 13, 22), (6, 11, 25)⟩

/-- Choice of SHA-2. -/
def shaCh {w : Nat} (x y z : BitVec w) : BitVec w := (x &&& y) ^^^ (~~~x &&& z)

/-- Majority of SHA-2. -/
def shaMaj {w : Nat} (x y z : BitVec w) : BitVec w := (x &&& y) ^^^ (x &&& z) ^^^ (y &&& z)

/-- The exclusive or of three rotations. -/
def rot3 {w : Nat} (x : BitVec w) (r : Nat × Nat × Nat) : BitVec w :=
  x.rotateRight r.1 ^^^ x.rotateRight r.2.1 ^^^ x.rotateRight r.2.2

/-- The exclusive or of two rotations and a shift. -/
def rot2 {w : Nat} (x : BitVec w) (r : Nat × Nat × Nat) : BitVec w := x.rotateRight r.1 ^^^ x.rotateRight r.2.1 ^^^ (x >>> r.2.2)

/-- The next schedule word from the latest sixteen, newest first. -/
def shaNext {w : Nat} (p : Sha2 w) (ws : List (BitVec w)) : BitVec w :=
  let g := fun i => ws.getD i 0
  rot2 (g 1) p.small1 + g 6 + rot2 (g 14) p.small0 + g 15

/-- The message schedule, newest word first. -/
def shaSchedule {w : Nat} (p : Sha2 w) : Nat → List (BitVec w) → List (BitVec w)
  | 0, ws => ws
  | n + 1, ws => shaSchedule p n (shaNext p ws :: ws)

/-- One round: `st` holds a to h. -/
def shaRound {w : Nat} (p : Sha2 w) (st : List (BitVec w)) (kw : BitVec w × BitVec w) : List (BitVec w) :=
  let g := fun i => st.getD i 0
  let t1 := g 7 + rot3 (g 4) p.big1 + shaCh (g 4) (g 5) (g 6) + kw.1 + kw.2
  let t2 := rot3 (g 0) p.big0 + shaMaj (g 0) (g 1) (g 2)
  [t1 + t2, g 0, g 1, g 2, g 3 + t1, g 4, g 5, g 6]

/-- One block of sixteen words. -/
def shaBlock {w : Nat} (p : Sha2 w) (h : List (BitVec w)) (b : List Byte) : List (BitVec w) :=
  let ws := (List.range 16).map fun i => BitVec.ofNat w (beNat ((b.drop (w / 8 * i)).take (w / 8)))
  List.zipWith (· + ·) h ((List.zip p.k (shaSchedule p (p.k.length - 16) ws.reverse).reverse).foldl (shaRound p) h)

/-- The blocks of a padded message. -/
def shaBlocks {w : Nat} (p : Sha2 w) : Nat → List (BitVec w) → List Byte → List (BitVec w)
  | 0, h, _ => h
  | n + 1, h, bs => shaBlocks p n (shaBlock p h (bs.take (2 * w))) (bs.drop (2 * w))

/-- A function of FIPS 180-4 before its cut: padding to blocks of `2 * w` bytes, the blocks, the eight words as bytes. -/
def sha2 {w : Nat} (p : Sha2 w) (init : List (BitVec w)) (bs : List Byte) : List Byte :=
  let m := bs ++ 0x80#8 :: List.replicate ((4 * w - w / 4 - 1 - bs.length % (2 * w)) % (2 * w)) 0#8 ++ beBytes (w / 4) (8 * bs.length)
  (shaBlocks p (m.length / (2 * w)) init m).flatMap fun x => beBytes (w / 8) x.toNat

/-- SHA-384 of a string of bytes, 48 bytes. (PRESUMED, log 19) -/
def sha384 (bs : List Byte) : List Byte := (sha2 sha2Long sha384Init bs).take 48

/-- SHA-512, 64 bytes. (PRESUMED, log 19) -/
def sha512 (bs : List Byte) : List Byte := sha2 sha2Long sha512Init bs

/-- SHA-256, 32 bytes. (PRESUMED, log 19) -/
def sha256 (bs : List Byte) : List Byte := sha2 sha2Short sha256Init bs

/-- HMAC (FIPS 198-1) of a function with blocks of 128 bytes. -/
def hmacOf (hash : List Byte → List Byte) (key msg : List Byte) : List Byte :=
  let k := if 128 < key.length then hash key else key
  let k := k ++ List.replicate (128 - k.length) 0
  hash (k.map (· ^^^ 0x5C) ++ hash (k.map (· ^^^ 0x36) ++ msg))

/-- HMAC-SHA-384. -/
def hmac384 (key msg : List Byte) : List Byte := hmacOf sha384 key msg

/-- MGF1 (RFC 8017) over a hash function: `n` blocks. -/
def mgf1 (hash : List Byte → List Byte) (seed : List Byte) (n : Nat) : List Byte :=
  (List.range n).flatMap fun i => hash (seed ++ beBytes 4 i)

/-- HKDF-SHA-384 (RFC 5869) with one block of output, 48 bytes. -/
def hkdf384 (ikm salt info : List Byte) : List Byte := hmac384 (hmac384 salt ikm) (info ++ [1])

-- AES-256 -----------------------------------------------------------------------------------------------------------------------

/-- Doubling in the field of AES. -/
def xtime (a : Byte) : Byte := if a.getLsbD 7 then (a <<< 1) ^^^ 0x1B else a <<< 1

/-- Product in the field of AES; `n` bits of the second factor, least significant first. -/
def gmul : Nat → Byte → Byte → Byte
  | 0, _, _ => 0
  | n + 1, a, b => (if b.getLsbD 0 then a else 0) ^^^ gmul n (xtime a) (b >>> 1)

/-- Squaring `n` times. -/
def gsq : Nat → Byte → Byte
  | 0, a => a
  | n + 1, a => gsq n (gmul 8 a a)

/-- The inverse of a field element, 0 for 0: its power 254. -/
def ginv (a : Byte) : Byte := (List.range 7).foldl (fun p i => gmul 8 p (gsq (i + 1) a)) 1

/-- The S-box of AES. -/
def sbox (a : Byte) : Byte :=
  let b := ginv a
  b ^^^ b.rotateLeft 1 ^^^ b.rotateLeft 2 ^^^ b.rotateLeft 3 ^^^ b.rotateLeft 4 ^^^ 0x63

/-- The inverse S-box of AES. -/
def sboxInv (a : Byte) : Byte := ginv (a.rotateLeft 1 ^^^ a.rotateLeft 3 ^^^ a.rotateLeft 6 ^^^ 0x05)

/-- The next word of the AES-256 key schedule, from the words so far, newest first; `i` is its number. -/
def keyWord (i : Nat) (w : List (List Byte)) : List Byte :=
  let t := w.getD 0 []
  let t := if i % 8 = 0 then
      List.zipWith (· ^^^ ·) ((t.drop 1 ++ t.take 1).map sbox) [BitVec.ofNat 8 (2 ^ (i / 8 - 1)), 0, 0, 0]
    else if i % 8 = 4 then t.map sbox else t
  List.zipWith (· ^^^ ·) t (w.getD 7 [])

/-- The key schedule of AES-256 from its first eight words, newest first. -/
def keySchedule : Nat → Nat → List (List Byte) → List (List Byte)
  | 0, _, w => w
  | n + 1, i, w => keySchedule n (i + 1) (keyWord i w :: w)

/-- The fifteen round keys of a 256-bit key, last first. -/
def roundKeys (key : List Byte) : List (List Byte) :=
  let ws := keySchedule 52 8 ((List.range 8).map fun i => (key.drop (4 * i)).take 4).reverse
  (List.range 15).map fun r => ((List.range 4).map fun j => ws.getD (4 * r + 3 - j) []).flatten

/-- One column of the inverse MixColumns. -/
def unmix (c : List Byte) : List Byte :=
  (List.range 4).map fun i => (List.range 4).foldl
    (fun a j => a ^^^ gmul 8 (c.getD j 0) ([0x0E#8, 0x0B, 0x0D, 0x09].getD ((j + 4 - i) % 4) 0)) 0

/-- The inverse of ShiftRows. -/
def unshift (s : List Byte) : List Byte := (List.range 16).map fun k => s.getD ((k + 16 - 4 * (k % 4)) % 16) 0

/-- The inverse cipher of AES with a 256-bit key on a block of 16 bytes. -/
def aesDecrypt (key block : List Byte) : List Byte :=
  let ks := roundKeys key
  let add := fun (s : List Byte) (k : List Byte) => List.zipWith (· ^^^ ·) s k
  let s := add block (ks.getD 0 [])
  (List.range 14).foldl (fun s r =>
    let s := add ((unshift s).map sboxInv) (ks.getD (r + 1) [])
    if r = 13 then s else ((List.range 4).map fun c => unmix ((s.drop (4 * c)).take 4)).flatten) s

/-- The steps of the AES key unwrap (RFC 3394): `a` the integrity register, `r` the registers, `t` the step from the
last down to 1. -/
def unwrapSteps (key : List Byte) : Nat → List Byte → List (List Byte) → List Byte × List (List Byte)
  | 0, a, r => (a, r)
  | t + 1, a, r =>
    let i := t % r.length
    let x := List.zipWith (· ^^^ ·) a (beBytes 8 (t + 1))
    let b := aesDecrypt key (x ++ r.getD i [])
    unwrapSteps key t (b.take 8) (r.set i (b.drop 8))

/-- AES-256 key unwrap: none when the integrity check fails. -/
def keyUnwrap (key wrapped : List Byte) : Option (List Byte) :=
  let n := wrapped.length / 8 - 1
  let (a, r) := unwrapSteps key (6 * n) (wrapped.take 8) ((List.range n).map fun i => (wrapped.drop (8 * (i + 1))).take 8)
  if a = List.replicate 8 0xA6#8 then some r.flatten else none

end Sys2Proof.Machine
end

