-- ==== Sys2Proof/Machine/Ingress.lean ====
section
/-! DEFINITION. What arrives on a port: a frame at the parser (R60), a link-local frame (R45, R276), a received link block
(R267 to R274, R281, R286). -/

namespace Sys2Proof.Machine

/-- LINK_CONTROL_UNKNOWN (R276): a link control frame of an unknown kind is dropped and counted. -/
def Dev.ctlUnknown (d : Dev) (port : Nat) : Dev :=
  if d.linkUp port || d.portState port == 1 then d.portEvt port 8 else d

/-- A link control frame by its kind (Table 11.4). -/
def Dev.linkControl (d : Dev) (port : Nat) (pay : List Byte) : Dev :=
  let w := payWord pay
  let s0 := w 0
  let seq := fget s0 55 48
  match fget s0 63 56 with
  | 0x01 => d.creditReturn port (w 1) (w 2)
  | 0x02 => d.advertReceive port (wbit s0 0) (w 1) (w 2)
  | 0x03 => d.replayRequest port (fget s0 9 0)
  | 0x05 => d.idleEntry port
  | 0x10 => d.lichenReceive port pay
  | 0x20 => d.subRequest port seq (fget s0 47 44) (fget s0 43 40) (fget s0 39 36)
  | 0x21 => d.subReady port seq
  | 0x22 => d.subMirror port seq
  | 0x23 => d.subGood port seq
  | 0x24 => d.subSwitch port seq (w 1).toNat
  | 0x25 => d.subDone port seq
  | 0x26 => d.subRefuse port seq
  | _ => d.ctlUnknown port

/-- A link-local frame that passed the parser (R45): type 4 link control, 8 heartbeat, 9 time. -/
def Dev.localFrame (d : Dev) (port : Nat) (f : Frame) : Dev :=
  let w := payWord f.payload
  if f.ftype = 4 then d.linkControl port f.payload
  else if f.ftype = 8 then
    if wbit (w 0) 63 then d.hbAnswer port (fget (w 0) 31 0) (fget (w 1) 63 32) (fget (w 1) 31 0)
    else d.hbRequest port (fget (w 0) 31 0) (fget (w 1) 63 32)
  else d.timeReceive port (w 0) (w 1) (w 2) (w 3)

/-- Job blocks an ingress port may carry (R56). -/
def Dev.portBlocks (d : Dev) (port : Nat) : Word := d.rdw .FWD_PORT_MASK (laneDie port) (port % 512)

/-- A whole frame's bytes at the parser of an ingress port (R60, Table 2.8). (DESIGN CHOICE, log 176) -/
def Dev.parse (d : Dev) (port : Nat) (bs : List Byte) (followed : Bool) : Dev :=
  let f := parseFrame bs
  match parserReason bs (d.portBlocks port) with
  | some r => d.dropParser port r f.cls bs.length (linkLocal f.ftype)
  | none => if linkLocal f.ftype then d.localFrame port f else d.accept (laneDie port) port f followed

/-- FRAME_ARRIVAL (R60): the link layer delivers a frame, trailer included. `followed` says whether another frame follows
it at once (R78), `faults` the memory errors that its lookups meet. (DESIGN CHOICE, log 153) -/
def Dev.frameArrive (d : Dev) (port : Nat) (bs : List Byte) (followed : Bool) (faults : List MemFault) : Dev :=
  if !d.isPort port || !d.dieRuns (laneDie port) then d
  else
    let d := { d with ln := { d.ln with delivered := d.ln.delivered.erase (port, bs) } }
    let d := d.each faults fun d m => d.plant (laneDie port) m
    d.parse port bs followed

/-- Cuts whole frames off the front of a received stream (R269): a frame's length is 36 plus its payload length. -/
def cutFrames : Nat → List Byte → List (List Byte) × List Byte
  | 0, s => ([], s)
  | n + 1, s =>
    let len := 36 + beNat ((s.drop 20).take 2)
    if s.length < 32 || s.length < len then ([], s)
    else let r := cutFrames n (s.drop len); (s.take len :: r.1, r.2)

/-- Cuts the frames of a stream that ends in a kind 1 segment: what stands after the last frame is fill, and zero bytes to the
end of the segment are (R269). (DESIGN CHOICE, log 169) -/
def cutLast : Nat → List Byte → List (List Byte)
  | 0, _ => []
  | n + 1, s =>
    let len := 36 + beNat ((s.drop 20).take 2)
    if s.all (· == 0) || s.length < 32 || s.length < len then []
    else s.take len :: cutLast n (s.drop len)

/-- One data segment of a block in sequence: whole frames go to the parser; fill after the last frame of a kind 1 segment
is dropped (R269). -/
def Dev.takeSeg (d : Dev) (port : Nat) (s : Seg) : Dev :=
  let r := d.rxLink port
  let put := fun (fs : List (List Byte)) (rest : List Byte) =>
    let d := d.setRx port { r with stream := rest }
    ({ d with ln := { d.ln with delivered := d.ln.delivered ++ fs.map fun f => (port, f) } } : Dev)
  match s with
  | .data bs => let c := cutFrames 8 (r.stream ++ bs); put c.1 c.2
  | .last bs => put (cutLast 8 (r.stream ++ bs)) []
  | _ => d

/-- The result of a codeword of a lane (R266): symbols corrected, 0-15, or 16 for uncorrectable. -/
def Dev.fecResult (d : Dev) (lane : Nat) (n : Nat) : Dev :=
  let e := laneDie lane
  let port := d.portOf lane
  let d := d.inc F.LANE_FEC_HDATA_count e (lane % 512 * 32 + n) 1
  if n = 16 then (d.pinc F.LANE_FEC_CNT_uncorrectable lane 1).cntPC ⟨e, 5⟩ 4 port none 1
  else if n = 0 then d
  else (d.pinc F.LANE_FEC_CNT_corrected lane n).cntPC ⟨e, 5⟩ 3 port none n

/-- A link block that did not decode (R272): one replay request names the expected sequence. -/
def Dev.badBlock (d : Dev) (port : Nat) : Dev :=
  let r := d.rxLink port
  let ask := !r.waiting && d.linkUp port
  let d := d.setRx port { r with bad := r.bad + 1, good := 0, waiting := r.waiting || ask }
  if ask then
    let d := d.sendCtl port (d.linkCtl port [wmk [(63, 56, 3), (9, 0, r.expected)]])
    (d.pinc F.LANE_RETRY_requests port 1).portEvt port 3
  else d

/-- The data segments of a decoded block (R268, R269, R272): delivered in sequence, otherwise discarded. -/
def Dev.dataBlock (d : Dev) (port : Nat) (b : LinkBlock) : Dev :=
  let r := d.rxLink port
  if !b.hasData || b.seq ≠ r.expected then d
  else
    let d := d.setRx port { r with expected := (r.expected + 1) % 1024, waiting := false }
    d.each b.lanes.flatten fun d s => d.takeSeg port s

/-- What a lane decodes from the symbols of one block: precoding undone where the partner precodes, the Gray map, both
codewords (R264 to R267). The receiver keeps the last symbol. -/
def Dev.readLane (d : Dev) (lane : Nat) (syms : List Nat) : Dev × Option (List Byte) × Nat × Nat :=
  let x := if d.prd F.LANE_STAT_pre_rx lane = 1 then unprecode (smGet d.ln.rxPre lane 0) syms else syms
  ({ d with ln := { d.ln with rxPre := smSet d.ln.rxPre lane (syms.getLastD 0) 0 } }, fecDecode (x.map graySymbol))

/-- The results of the lanes of a port for one link block, lowest lane first. -/
def Dev.readLanes (d : Dev) (port : Nat) (syms : List (List Nat)) : Dev × List (Option (List Byte) × Nat × Nat) :=
  (d.lanesOf port).foldl (fun a n =>
    let r := a.1.readLane n (syms.getD (n - port) [])
    (r.1, a.2 ++ [r.2])) (d, [])

/-- The link block of the lanes' messages; every header carries the same sequence and ack (R268). -/
def blockOf (ms : List (List Byte)) : LinkBlock :=
  let r := ms.map readMessage
  let h := r.headD (0, 0, [])
  ⟨h.1, h.2.1, r.map fun x => x.2.2⟩

/-- A link block that decodes on a locked port (R271, R272, R276): its ack, its data segments in sequence and its link-local
frames. -/
def Dev.goodBlock (d : Dev) (port : Nat) (b : LinkBlock) : Dev :=
  let d := (d.ackBlocks port b.ack).dataBlock port b
  d.each b.lanes.flatten fun d s => match s with
    | .ctl bs => d.parse port (bs.take (36 + beNat ((bs.drop 20).take 2))) false
    | _ => d

/-- Whether a port has block lock: since four blocks in a row decoded (R281), and outside an idle or its exit (Table 11.9). -/
def Dev.locked (d : Dev) (port : Nat) : Bool :=
  d.prd F.LANE_STAT_block port == 1 && d.prd F.LANE_PORT_STAT_rx_idle port == 0

/-- One link block at the link layer, by the messages and codeword results of its lanes. Until the port has block lock, blocks
only count towards it; the fourth in a row is the first whose content is taken. (DEDUCED, log 65) -/
def Dev.takeBlock (d : Dev) (port : Nat) (rs : List (Option (List Byte) × Nat × Nat)) : Dev :=
  let d := d.each (rs.zipIdx) fun d x => (d.fecResult (port + x.2) x.1.2.1).fecResult (port + x.2) x.1.2.2
  let d := d.cntPC ⟨laneDie port, 5⟩ 2 (some port) none 1
  let r := d.rxLink port
  let d := d.setRx port { r with blocks := r.blocks + 1 }
  match rs.mapM Prod.fst with
  | none => if d.locked port then d.badBlock port else d.setRx port { d.rxLink port with bad := r.bad + 1, good := 0 }
  | some ms =>
    let d := d.setRx port { d.rxLink port with bad := 0, good := r.good + 1 }
    let d := if 4 ≤ r.good + 1 then
        (d.each (d.lanesOf port) fun d n => d.pwr F.LANE_STAT_block n 1).pwr F.LANE_PORT_STAT_rx_idle port 0
      else d
    if d.locked port then d.goodBlock port (blockOf ms) else d

/-- Whether a port takes a block stream: its link is up, or it trains and the partner has announced block 0 on every lane. -/
def Dev.streams (d : Dev) (port : Nat) : Bool :=
  d.isPort port && (d.linkUp port || (d.portState port == 1 && (d.lanesOf port).all (d.train port).starts.contains))

/-- LINK_BLOCK_RECEIVE (R264 to R272, R281, R286, R290, R292): the symbols of one block time on each lane of a port. Lanes in test
or loopback take them as such; else they are a link block. -/
def Dev.blockReceive (d : Dev) (port : Nat) (syms : List (List Nat)) : Dev :=
  if !d.dieRuns (laneDie port) then d
  else
    let lanes := if d.isPort port then d.lanesOf port else [port]
    let d := d.each (lanes.filter d.laneTest) fun d n => d.testReceive n (syms.getD (n - port) [])
    if !d.streams port then d
    else
      let r := d.readLanes port syms
      r.1.takeBlock port r.2

end Sys2Proof.Machine
end

