-- ==== Sys2Proof/Machine/D2d.lean ====
section
/-! DEFINITION. Rhizoid links (R297 to R301), the loss of a peer die (R84), measurements (R377) and the UCIe site (R302
to R304). -/

namespace Sys2Proof.Machine

-- Measurements (R377) ----------------------------------------------------------------------------------------------------

/-- Six words of 48 bytes, most significant first. -/
def words6 (bs : List Byte) : List Word := (List.range 6).map (payWord bs)

/-- Measurement Mm, 48 bytes. -/
def Dev.meas (d : Dev) (m : Nat) : List Byte := (List.range 6).flatMap fun j => wordBytes (d.rdw .SEC_MEAS 0 (6 * m + j))

/-- Sets measurement Mm. -/
def Dev.setMeas (d : Dev) (m : Nat) (bs : List Byte) : Dev :=
  d.each (List.range 6) fun d j => d.wrw .SEC_MEAS 0 (6 * m + j) (payWord bs j)

/-- Extends Mm with a value (R377). -/
def Dev.extend (d : Dev) (m : Nat) (v : List Byte) : Dev := d.setMeas m (sha384 (d.meas m ++ v))

-- Rhizoid bundles ----------------------------------------------------------------------------------------------------------

/-- ERR_FIRST detail of a bundle (Table 12.9). -/
def d2dDetail (b : Nat) : Word := wmk [(4, 0, b)]

/-- Key of a bundle by receiving die; bundle 16 is the control bundle. -/
def bndKey (die b : Nat) : Nat := die * 32 + b

/-- Wires of a bundle, the data positions that they carry, and how many may be out of use before it stays down (R299). -/
def bundleWires (b : Nat) : Nat × Nat × Nat := if b < 16 then (264, 256, 8) else (6, 4, 2)

/-- Spare wires that a bundle still has, in wire order (R299). (DEDUCED, log 73) -/
def Dev.spareWires (d : Dev) (die b : Nat) : List Nat :=
  let k := bndKey die b
  (List.range (bundleWires b).1).filter fun w => !(smGet d.d2.bad k []).contains w && !(smGet d.d2.wires k []).contains w

/-- Data bundles up toward a die. -/
def Dev.bundlesUp (d : Dev) (die : Nat) : Nat := ((List.range 16).filter fun b => d.on F.D2D_BND_STAT_up die b).length

/-- Sets a receive bundle up or down: BND_STAT, rx_up here and tx_up in the peer. -/
def Dev.setBundle (d : Dev) (die b : Nat) (up : Bool) : Dev :=
  let bit := fun (d : Dev) (f : Fld) (u : Nat) => d.wr f u 0 (wset (BitVec.ofNat 64 (d.rd f u 0)) b up).toNat
  let d := d.wr F.D2D_BND_STAT_up die b (b2n up)
  bit (bit d F.D2D_STAT_rx_up die) F.D2D_STAT_tx_up (1 - die)

/-- Shows on each running die whether fewer than 14 data bundles are up in either direction (R301). -/
def Dev.showDegraded (d : Dev) : Dev :=
  let v := b2n (decide (d.bundlesUp 0 < 14) || decide (d.bundlesUp 1 < 14))
  d.each [0, 1] fun d x => if d.dieRuns x then d.wr F.D2D_STAT_degraded x 0 v else d

/-- Error code 2 as the bundles of a direction fall below 14 (R301). -/
def Dev.checkDegraded (d : Dev) (die before : Nat) : Dev :=
  let d := d.showDegraded
  if 14 ≤ before && d.bundlesUp die < 14 then d.logErr .D2D die 2 0 else d

/-- A core die treats its peer as lost (R84, R301): peer absent, one peer loss, code 3 when the control bundle is silent,
members on the lost die leave its bundles. (DEDUCED, log 72) -/
def Dev.peerLost (d : Dev) (die : Nat) : Dev :=
  if !d.dieRuns die || !d.on F.D2D_STAT_peer die 0 then d
  else
    let silent := !d.d2.ctlDown.isEmpty || !d.dieRuns (1 - die)
    let d := (d.wr F.D2D_STAT_peer die 0 0).evtCnt .D2D die 4
    let d := if silent then d.logErr .D2D die 3 (d2dDetail 16) else d
    (d.losePeer die).dropDeadMaps

/-- PEER_DIE_LOST (R84): the surviving die finds the control bundle silent or every data bundle of a direction down.
(DEDUCED, log 72) -/
def Dev.peerDieLost (d : Dev) (die : Nat) : Dev :=
  if !d.dieRuns (1 - die) || !d.d2.ctlDown.isEmpty || d.bundlesUp 0 = 0 || d.bundlesUp 1 = 0 then d.peerLost die else d

/-- The two ends of a data bundle forget its flits; those not acknowledged wait for another bundle (R300). -/
def Dev.moveFlits (d : Dev) (die b : Nat) : Dev :=
  let k := bndKey die b
  let t := smGet d.d2.tx k ⟨0, []⟩
  { d with d2 := { d.d2 with
    rx := smErase d.d2.rx k, tx := smErase d.d2.tx k, moved := smSet d.d2.moved die (smGet d.d2.moved die [] ++ t.retry) [] } }

/-- BUNDLE_DOWN (R300, R301), by receiving die. -/
def Dev.bundleDown (d : Dev) (die b : Nat) : Dev :=
  if b < 16 then
    if !d.on F.D2D_BND_STAT_up die b then d
    else
      let before := d.bundlesUp die
      let d := ((d.setBundle die b false).logErr .D2D die 1 (d2dDetail b)).evtCnt .D2D die 2
      let d := (d.moveFlits die b).checkDegraded die before
      if d.bundlesUp die = 0 then (d.peerLost 0).peerLost 1 else d
  else
    let d := { d with d2 := { d.d2 with ctlDown := d.d2.ctlDown.filter (· != die) ++ [die] } }
    (d.peerLost 0).peerLost 1

/-- Whether a bundle carries flits. -/
def Dev.bundleUp (d : Dev) (die b : Nat) : Bool :=
  if b < 16 then d.on F.D2D_BND_STAT_up die b else !d.d2.ctlDown.contains die

/-- A flit but for its CRC (R297): two cells of 256 bytes, then 28 bytes of header. The manual gives the header's content and
size, not its order. (DESIGN CHOICE, log 172) -/
def Flit.body (f : Flit) : List Byte :=
  let cell := fun (c : List Byte) => (c ++ List.replicate 256 0).take 256
  cell f.cell0 ++ cell f.cell1 ++ beBytes 8 f.idx0 ++ beBytes 8 f.idx1 ++
    wordBytes (wmk [(63, 54, f.seq), (53, 44, f.ack)]) ++ List.replicate 4 0

/-- The 544 bytes of a flit on its wires, its CRC-32C last. -/
def Flit.image (f : Flit) : List Byte := f.body ++ leBytes 4 (crc32c f.body)

/-- Bytes with the bits of the given numbers flipped. -/
def flipBits (bs : List Byte) (flips : List Nat) : List Byte :=
  flips.foldl (fun bs n => bs.modify (n / 8) fun x => x ^^^ BitVec.ofNat 8 (2 ^ (n % 8))) bs

/-- What the sender of a bundle sends under a sequence (R298): again a flit of its retry buffer, which counts as a resend; or,
while the buffer has room, the next flit, one of a lost bundle (R300) before a new one. -/
def Dev.flitSend (d : Dev) (die b seq : Nat) (new : Flit) : Option (Dev × Flit) :=
  let k := bndKey die b
  let t := smGet d.d2.tx k ⟨0, []⟩
  match t.retry.find? fun f => f.seq == seq with
  | some f => some (((d.inc F.D2D_BND_STAT_resends die b 1).cnt ⟨1 - die, 6⟩ 1).cnt ⟨1 - die, 6⟩ 2, f)
  | none =>
    if seq ≠ t.next || 64 ≤ t.retry.length then none
    else
      let moved := smGet d.d2.moved die []
      let ack := (smGet d.d2.rx (bndKey (1 - die) b) ⟨0, false, 0⟩).expected
      let f := { moved.headD new with seq := seq, ack := ack }
      let d := { d with d2 := { d.d2 with
        tx := smInsert d.d2.tx k ⟨(seq + 1) % 1024, t.retry ++ [f]⟩, moved := smSet d.d2.moved die moved.tail [] } }
      some (d.cnt ⟨1 - die, 6⟩ 1, f)

/-- An acknowledgement names the next sequence that its sender expects: the flits before it leave the retry buffer. -/
def Dev.flitAcked (d : Dev) (die b ack : Nat) : Dev :=
  let k := bndKey die b
  match smFind d.d2.tx k with
  | none => d
  | some t =>
    let open_ := t.retry.filter fun f => 64 ≤ (ack + 1023 - f.seq) % 1024
    { d with d2 := { d.d2 with tx := smInsert d.d2.tx k { t with retry := open_ } } }

/-- The cells of an accepted flit, read from its bytes, go to their destination indices (R297). -/
def Dev.placeCells (d : Dev) (die : Nat) (body : List Byte) : Dev :=
  let at_ := fun i => die * 2 ^ 64 + (payWord body (64 + i)).toNat
  let cell := fun i => (body.drop (256 * i)).take 256
  { d with d2 := { d.d2 with cells := smInsert (smInsert d.d2.cells (at_ 0) (cell 0)) (at_ 1) (cell 1) } }

/-- FLIT_RECEIVE (R297, R298): the flit that was sent under `seq` arrives with the bits `flips` in error. A flit whose CRC fails
is discarded and a resend asked for; an intact one with the expected sequence is accepted and its cells go to their places, another
is discarded. (DEDUCED, log 71) -/
def Dev.flitReceive (d : Dev) (die b seq : Nat) (new : Flit) (flips : List Nat) : Dev :=
  if !d.dieRuns die || !d.on F.D2D_BND_STAT_up die b then d
  else match d.flitSend die b seq new with
  | none => d
  | some (d, f) =>
    let k := bndKey die b
    let r := smGet d.d2.rx k ⟨0, false, 0⟩
    let put := fun (d : Dev) (r : RxBundle) => { d with d2 := { d.d2 with rx := smInsert d.d2.rx k r } }
    let got := flipBits f.image flips
    let body := got.take 540
    let head := payWord body 66
    if leNat (got.drop 540) ≠ crc32c body then
      let fails := if seq = r.expected then r.fails + 1 else r.fails
      (put (d.evtCnt .D2D die 0) { r with waiting := true, fails := fails }).emit (.flitAsk die b r.expected)
    else if fget head 63 54 = r.expected then
      ((put d ⟨(r.expected + 1) % 1024, false, 0⟩).placeCells die body).flitAcked (1 - die) b (fget head 53 44)
    else d

/-- FLIT_RESEND_LIMIT (R298): the expected flit has failed once and in eight resends. Of the codes of one instant the lowest
latches first (R408). (DEDUCED, log 177) -/
def Dev.flitLimit (d : Dev) (die b : Nat) : Dev :=
  if !d.on F.D2D_BND_STAT_up die b || (smGet d.d2.rx (bndKey die b) ⟨0, false, 0⟩).fails < 9 then d
  else (d.bundleDown die b).logErr .D2D die 4 (d2dDetail b)

/-- WIRE_REPAIR (R299, R300): the data position of a wire with 16 CRC errors within 1 ms moves to the first spare; with none
free its bundle goes down. -/
def Dev.wireRepair (d : Dev) (die b wire : Nat) : Dev :=
  let k := bndKey die b
  let used := smGet d.d2.wires k []
  if !d.dieRuns die || !d.bundleUp die b || !used.contains wire then d
  else match d.spareWires die b with
  | [] => d.bundleDown die b
  | spare :: _ =>
    let d := { d with d2 := { d.d2 with
      wires := smInsert d.d2.wires k (used.map fun w => if w = wire then spare else w),
      bad := smInsert d.d2.bad k (smGet d.d2.bad k [] ++ [wire]) } }
    let d := if b < 16 then
        (d.wr F.D2D_BND_STAT_repaired die b (d.rd F.D2D_BND_STAT_repaired die b + 1)).wr F.D2D_BND_STAT_last_wire die b wire
      else d
    (d.evtCnt .D2D die 1).countEvent .D2D die 1 (d2dDetail b)

/-- RHIZOID_TRAINING of one receive bundle (R299): `found` are the wires beyond the fuse record that showed an error; the data
positions take the first wires that are left. With more than eight wires excluded, or two of the control bundle, it does not come
up. BND_STAT counts of the latest start change at a start alone. -/
def Dev.trainBundle (d : Dev) (start : Bool) (die b : Nat) (found : List Nat) : Dev :=
  let k := bndKey die b
  let (n, pos, most) := bundleWires b
  let fused := smGet d.d2.fused k []
  let more := (found.filter fun w => w < n && !fused.contains w).eraseDups
  let bad := fused ++ more
  let good := (List.range n).filter fun w => !bad.contains w
  let up := decide (bad.length ≤ most)
  let d := { d with d2 := { d.d2 with
    rx := smErase d.d2.rx k, tx := smErase d.d2.tx k, bad := smSet d.d2.bad k bad [], wires := smInsert d.d2.wires k (good.take pos) } }
  let d := if more.isEmpty then d else d.countEvent .D2D die 1 (d2dDetail b)
  if b < 16 then
    let d := if start then
        (d.wr F.D2D_BND_STAT_added die b (Nat.min 15 more.length)).wr F.D2D_BND_STAT_repaired die b 0
      else d
    let d := match more.getLast? with
      | some w => d.wr F.D2D_BND_STAT_last_wire die b w
      | none => d
    d.setBundle die b up
  else
    let down := d.d2.ctlDown.filter (· != die)
    { d with d2 := { d.d2 with ctlDown := if up then down else down ++ [die] } }

/-- Presence of both dies once their bundles have trained. Members that a die reaches again become selectable (R95). -/
def Dev.showPeers (d : Dev) : Dev :=
  let ok := d.dieRuns 0 && d.dieRuns 1 && d.d2.ctlDown.isEmpty && 0 < d.bundlesUp 0 && 0 < d.bundlesUp 1
  let e := (d.wr F.D2D_STAT_peer 0 0 (b2n (ok && d.dieRuns 0))).wr F.D2D_STAT_peer 1 0 (b2n (ok && d.dieRuns 1))
  if e.peerOk && !d.peerOk then e.settleAll d else e

/-- RHIZOID_TRAINING of every bundle at a start or a rejoin: `found` lists (die*32 + bundle, wires). A die without its peer runs
with no bundle up (R301). -/
def Dev.trainRhizoid (d : Dev) (found : List (Nat × List Nat)) : Dev :=
  let d := if d.dieRuns 0 && d.dieRuns 1 then
      d.each [0, 1] fun d die => d.each (List.range 17) fun d b => d.trainBundle true die b (smGet found (bndKey die b) [])
    else d
  let d := d.showDegraded
  let d := d.each [0, 1] fun d die => if d.dieRuns die && d.bundlesUp die < 14 then d.logErr .D2D die 2 0 else d
  d.showPeers

/-- A write of D2D_CTRL retrain (R299, R300): every down data bundle of a die's reception and transmission trains. -/
def Dev.d2dRetrain (d : Dev) (die : Nat) : Dev :=
  if !(d.dieRuns 0 && d.dieRuns 1) then d
  else
    let d := d.each [die, 1 - die] fun d x => d.each (List.range 16) fun d b =>
      if d.on F.D2D_BND_STAT_up x b then d
      else
        let (d, n) := d.fresh
        d.trainBundle false x b ((Config.wiresFound n (bndKey x b)).map (·.val))
    d.showDegraded.showPeers

-- UCIe (R302 to R304) ----------------------------------------------------------------------------------------------------------

/-- UCIE_BRING_UP (R303): the site trains and sends a measurement request. The rate and the lanes repaired depend on the
chiplet. (DEDUCED, log 148) -/
def Dev.ucieBring (d : Dev) : Dev :=
  let d := d.wr F.HUB_UCIE_STAT_streams 0 0 0
  if !d.on F.HUB_UCIE_CTRL_enable 0 0 || !d.hubRuns || !d.cfg.active then d.wr F.HUB_UCIE_STAT_state 0 0 0
  else
    let (d, n) := d.fresh
    (((d.wr F.HUB_UCIE_STAT_state 0 0 2).wr F.HUB_UCIE_STAT_rate 0 0 (Config.ucieRate n).val).wr
      F.HUB_UCIE_STAT_repaired 0 0 (Config.ucieRepaired n).val).emit .ucieAsk

/-- The link is held in reset (R303). -/
def Dev.ucieRefuse (d : Dev) : Dev :=
  ((d.wr F.HUB_UCIE_STAT_state 0 0 4).wr F.HUB_UCIE_STAT_streams 0 0 0).logErr .HUB 0 7 0

/-- UCIE_MEASUREMENT_ANSWER (R303, R377): the chiplet's 8-byte identity and 48-byte firmware digest; a malformed answer
has another length. -/
def Dev.ucieAnswer (d : Dev) (answer : List Byte) : Dev :=
  if !d.hubRuns || d.rd F.HUB_UCIE_STAT_state 0 0 ≠ 2 then d
  else if answer.length ≠ 56 then d.ucieRefuse
  else
    let d := d.extend 4 answer
    let d := d.each (List.range 7) fun d j => d.wrw .HUB_UCIE_MEAS 0 j (payWord answer j)
    if d.cfg.allow.contains (answer.drop 8) then
      (d.wr F.HUB_UCIE_STAT_state 0 0 3).wr F.HUB_UCIE_STAT_streams 0 0 (Nat.min 4 d.cfg.streams)
    else d.ucieRefuse

/-- UCIE_MEASUREMENT_TIMEOUT (R303). -/
def Dev.ucieTimeout (d : Dev) : Dev :=
  if !d.hubRuns || d.rd F.HUB_UCIE_STAT_state 0 0 ≠ 2 then d else d.ucieRefuse

/-- UCIE_LINK_DOWN (R304). -/
def Dev.ucieDown (d : Dev) : Dev :=
  let s := d.rd F.HUB_UCIE_STAT_state 0 0
  if !d.hubRuns || (s ≠ 2 && s ≠ 3) then d
  else ((d.wr F.HUB_UCIE_STAT_streams 0 0 0).logErr .HUB 0 8 0).ucieBring

/-- A write of HUB_UCIE_CTRL readmit (R304): a link that is not off retrains, so its streams close and code 8 is logged. -/
def Dev.ucieReadmit (d : Dev) : Dev :=
  if !d.on F.HUB_UCIE_CTRL_enable 0 0 then d
  else
    let d := d.wr F.HUB_UCIE_STAT_streams 0 0 0
    (if d.rd F.HUB_UCIE_STAT_state 0 0 = 0 then d else d.logErr .HUB 0 8 0).ucieBring

end Sys2Proof.Machine
end

