-- ==== Sys2Proof/Machine/Power.lean ====
section
/-! DEFINITION. Adaptive voltage scaling (R321 to R323), supply sag and shedding (R325 to R327), thermal states (R330), the
bulk cap (R331). -/

namespace Sys2Proof.Machine

-- The bulk cap (R331) -------------------------------------------------------------------------------------------------------

/-- Thermal state of a part: core dies 0 and 1, engine e at 2 + e (HUB_THERM_STAT). -/
def Dev.therm (d : Dev) (i : Nat) : Nat := fget (d.rdw .HUB_THERM_STAT 0 0) (2 * i + 1) (2 * i)

/-- Sets the thermal state of a part. -/
def Dev.setTherm (d : Dev) (i v : Nat) : Dev := d.wrw .HUB_THERM_STAT 0 0 (fput (d.rdw .HUB_THERM_STAT 0 0) (2 * i + 1) (2 * i) v)

/-- Whether the bulk cap holds on a port: shedding step 4, a throttled die or engine, a die without speed margin. -/
def Dev.capHolds (d : Dev) (p : Nat) : Bool :=
  decide (4 ≤ d.shed) || d.therm (laneDie p) == 2 || d.pw.margin.contains (laneDie p) ||
    (!d.electrical p && d.therm (2 + p / 64) == 2)

/-- Brings the caps of the ports up to date: a new cap starts full. -/
def Dev.capUpdate (d : Dev) : Dev :=
  { d with tm := { d.tm with bulkTokens := d.cfg.ports.foldl (fun m (e : Nat × PortInfo) =>
      if d.capHolds e.1 then (if (smFind m e.1).isSome then m else smInsert m e.1 4132) else smErase m e.1) d.tm.bulkTokens } }

/-- BULK_CAP_REFILL (R331): half the port's payload rate of 25 B/ns a lane for 256 ns, to at most 4,132 B. -/
def Dev.bulkRefill (d : Dev) (port : Nat) : Dev :=
  match smFind d.tm.bulkTokens port with
  | none => d
  | some t =>
    { d with tm := { d.tm with bulkTokens := smInsert d.tm.bulkTokens port (min 4132 (t + 3200 * d.portWidth port)) } }

-- Voltage scaling (R321 to R323) -----------------------------------------------------------------------------------------

/-- Whether s × 0.996^(k/16) is below num/den, all in M handshakes/s: both sides to the power 16. -/
def speedBelow (s k num den : Nat) : Bool := decide ((s * den) ^ 16 * 996 ^ k < num ^ 16 * 1000 ^ k)

/-- The largest whole number of M handshakes/s that s × 0.996^(k/16) reaches, by halving an interval `n` times. -/
def speedFloor (s k : Nat) : Nat → Nat → Nat → Nat
  | 0, lo, _ => lo
  | n + 1, lo, hi =>
    let m := (lo + hi) / 2
    if speedBelow s k m 1 then speedFloor s k n lo m else speedFloor s k n m hi

/-- Sixteenths of a degree by which a die stands below 105 °C; its temperature is signed, in 1/16 °C. -/
def coolBy (temp : Nat) : Nat := (1680 - s16 temp).toNat

/-- AVS_LOOP (R321 to R323): one pass of a die's loop with the lowest ring speed in M handshakes/s and the hottest sensor.
The first pass that finds too little speed at 0.85 V raises the event and holds the cap. -/
def Dev.avsLoop (d : Dev) (die speed temp : Nat) : Dev :=
  if !d.dieRuns die then d
  else
    let k := coolBy temp
    let g := d.rd F.HUB_AVS_CTRL_guard 0 die
    let below := speedBelow speed k (21 * (100 + g)) 2
    let above := !speedBelow speed k (2142 * (100 + g)) 200 && !(k = 0 && 200 * speed = 2142 * (100 + g))
    let v := d.rd F.HUB_AVS_STAT_setpoint 0 die
    let fl := speedFloor speed k 17 0 (speed + 1)
    let exact := !speedBelow speed k fl 1 && decide ((speed ^ 16) * 996 ^ k = fl ^ 16 * 1000 ^ k)
    let s105 := if exact then fl else if Config.roundUp d.freeCtr then fl + 1 else fl
    let d := d.fresh.1
    let d := ((d.wr F.HUB_AVS_STAT_speed 0 die speed).wr F.HUB_AVS_STAT_s105 0 die s105).wr F.HUB_AVS_STAT_temp 0 die temp
    let atLo := if below then smErase d.pw.atLo die else if (smFind d.pw.atLo die).isSome then d.pw.atLo
      else smInsert d.pw.atLo die d.tick
    let d := { d with pw := { d.pw with atLo := atLo } }
    let auto := !d.on F.HUB_AVS_CTRL_mode 0 die
    if below && v < 850 then (if auto then d.setpoint die (v + 5) else d)
    else if below then
      if d.pw.margin.contains die then d
      else
        let d := { d with pw := { d.pw with margin := d.pw.margin ++ [die] } }
        ((d.evtCnt .HUB 0 5).countEvent .HUB 0 5 (wmk [(4, 0, die)])).capUpdate
    else if auto && above && 700 < v && 15625 ≤ d.tick - smGet d.pw.lastStep die 0 then d.setpoint die (v - 5)
    else d

/-- SPEED_MARGIN_RECOVER (R322): every pass of the last 1 ms (156,250 ticks) has found s105 at or above the lower bound. -/
def Dev.marginRecover (d : Dev) (die : Nat) : Dev :=
  let held := match smFind d.pw.atLo die with
    | some t => decide (t + 156250 ≤ d.tick)
    | none => false
  if !d.pw.margin.contains die || !held then d
  else ({ d with pw := { d.pw with margin := d.pw.margin.filter (· != die) } } : Dev).capUpdate

-- Shedding (R325 to R327) ---------------------------------------------------------------------------------------------------

/-- Raises a record of block HUB: by the hub, or, while it is in reset, held by a running core die (R326). -/
def Dev.hubEvent (d : Dev) (code : Nat) (e2 e3 : Word) : Dev :=
  d.raiseRec 22 false (evE0 0 0 2 false code) e2 e3

/-- Steps of Table 13.5 that a rail in mV calls for. -/
def stepOf (rail : Nat) : Nat :=
  if rail < 890 then 5 else if rail < 910 then 4 else if rail < 930 then 3 else if rail < 950 then 2
  else if rail < 970 then 1 else 0

/-- Ends an open transfer with a result (R352); one that is verifying too. (DEDUCED, log 94) -/
def Dev.endXfer (d : Dev) (result : Nat) : Dev :=
  match d.mg.xfer with
  | none => d
  | some _ =>
    let d := { d with mg := { d.mg with xfer := none } }
    let d := (d.wr F.MGT_FILE_STAT_state 0 0 0).wr F.MGT_FILE_STAT_last 0 0 result
    d.event .MGT 0 10 (d.rdw .MGT_FILE_STAT 0 0) 0

/-- Enters one shedding step (R325): counted, raised; step 2 takes spill and an open transfer, step 5 is hold. -/
def Dev.shedStep (d : Dev) (rail k : Nat) : Dev :=
  let d := (d.wr F.HUB_PWR_STAT_step 0 0 k).peak F.HUB_PWR_STAT_deepest 0 0 k
  let d := (d.evtCnt .HUB 0 0).hubEvent 7 (wmk [(63, 61, k)]) (wmk [(45, 32, rail)])
  let d := if k = 2 then ((d.spillLoss 0).spillLoss 1).endXfer 10 else d
  let d := if k = 5 then d.evtCnt .HUB 0 1 else d
  d.capUpdate

/-- The monitors' reading of VDD_CORE_IN in mV at this tick. -/
def Dev.readRail (d : Dev) (rail : Nat) : Dev :=
  ({ d with pw := { d.pw with railAt := some d.tick } } : Dev).wr F.HUB_PWR_STAT_rail 0 0 rail

/-- SHEDDING_STEP_ENTER (R325): the lower monitor of VDD_CORE_IN reads `rail` mV; every step crossed is taken in order.
(DEDUCED, log 93) -/
def Dev.shedEnter (d : Dev) (rail : Nat) : Dev :=
  let now := d.shed
  let d := d.readRail rail
  d.each ((List.range (stepOf rail - now)).map (now + 1 + ·)) fun d k => d.shedStep rail k

/-- SHEDDING_STEP_EXIT (R326): the rail has stayed above the step's threshold plus 10 mV for 100 µs: one step is left. -/
def Dev.shedExit (d : Dev) (rail : Nat) : Dev :=
  let k := d.shed
  let d := d.readRail rail
  if k = 0 || rail ≤ 990 - 20 * k + 10 then d
  else
    ((d.wr F.HUB_PWR_STAT_step 0 0 (k - 1)).hubEvent 7 (wmk [(63, 61, k), (60, 60, 1)]) (wmk [(45, 32, rail)])).capUpdate

-- Heat (R329, R330) ------------------------------------------------------------------------------------------------------------

/-- Threshold of a part's state 1 to 3 in 1/16 °C (Tables 13.6 and 13.7). -/
def thermThr (i s : Nat) : Int :=
  16 * (if i < 2 then (if s = 1 then 100 else if s = 2 then 103 else 110) else (if s = 1 then 72 else if s = 2 then 75 else 80))

/-- The state of a part in state `s` whose sensor reads `t`: entered at its threshold, left 3 °C below it. -/
def thermNext (i s : Nat) (t : Int) : Nat :=
  let up := if thermThr i 2 ≤ t then 2 else if thermThr i 1 ≤ t then 1 else 0
  let keep := fun k => decide (k ≤ s) && decide (thermThr i k - 48 < t)
  let down := if keep 3 then 3 else if keep 2 then 2 else if keep 1 then 1 else 0
  Nat.max up down

/-- A part's thermal state changes; an entry, which is a change upward, is counted and raised (R330).
(DEDUCED, log 95) -/
def Dev.thermEnter (d : Dev) (i s : Nat) : Dev :=
  let old := d.therm i
  let d := d.setTherm i s
  if s ≤ old then d.capUpdate else
  let d := if s = 2 then d.evtCnt .HUB 0 (if i < 2 then 2 else 3) else if s = 3 then d.evtCnt .HUB 0 4 else d
  (d.hubEvent 8 (d.rdw .HUB_THERM_STAT 0 0) 0).capUpdate

/-- THERMAL_STATE_CHANGE (R330): a core die (0, 1) or engine (2 + e) whose sensor reads `temp`, signed in 1/16 °C. -/
def Dev.thermChange (d : Dev) (i temp : Nat) : Dev :=
  let d := if i < 2 then d.wr F.HUB_AVS_STAT_temp 0 i temp else d.wr F.OE_THERM_case (i - 2) 0 temp
  let s := thermNext i (d.therm i) (s16 temp)
  if s = d.therm i then d else d.thermEnter i s

/-- GDDR7_CASE_TRIP (R329): the channel's device enters self-refresh as at shedding step 2: the chunks spilled to it abort, an
open transfer ends. -/
def Dev.gddrTrip (d : Dev) (ch : Nat) : Dev :=
  if d.pw.hot.contains ch then d
  else
    let d := { d with pw := { d.pw with hot := d.pw.hot ++ [ch] } }
    ((d.spillLossIf 0 fun k => k.channel == ch).spillLossIf 1 fun k => k.channel == ch).endXfer 10

/-- THERM_ALERT_N pulled low (R447): a core die in throttle or tripped, or, while the hub runs, an engine. -/
def Dev.thermAlert (d : Dev) : Bool :=
  decide (2 ≤ d.therm 0) || decide (2 ≤ d.therm 1) || (d.hubRuns && (List.range 16).any fun e => decide (2 ≤ d.therm (2 + e)))

end Sys2Proof.Machine
end

