-- ==== Sys2Proof/Machine/RegRules.lean ====
section
/-! DEFINITION. The rules of a register access (R8 to R14, R429 to R431): which register an address names, what a selector
selects, the classes, the limits of the Descriptions and the effect of a write on the fields. -/

namespace Sys2Proof.Machine

-- Addresses (R429, R430) ---------------------------------------------------------------------------------------------------

/-- A register an address names: core die, engine or quad, and index. -/
structure RegAt where
  reg : Reg
  unit : Nat
  idx : Nat
  deriving DecidableEq, Repr

/-- The register of a block's map at an offset, and its index. -/
def findLoc (ls : List RegLoc) (off : Nat) : Option (Reg × Nat) :=
  match ls.find? fun l => l.off ≤ off && (off - l.off) % l.stride == 0 && decide ((off - l.off) / l.stride < l.count) with
  | some l => some (l.reg, (off - l.off) / l.stride)
  | none => none

/-- A register of a map, as instance `unit`. -/
def atLoc (ls : List RegLoc) (unit off : Nat) : Option RegAt :=
  match findLoc ls off with
  | some (r, i) => if r = .TM_RED_PROF && i % 4 = 3 then none else some ⟨r, unit, i⟩
  | none => none

/-- A register of a counter set (Table 18.3): index 32 times the set plus its own. -/
def atSet (unit off : Nat) : Option RegAt :=
  let s := off / 0x100
  if (if unit = 2 then s ≤ 4 else s ≤ 17 && s != 7) then
    match findLoc locsCNT (off % 0x100) with
    | some (r, i) => some ⟨r, unit, 32 * s + i⟩
    | none => none
  else none

/-- The register at an address (R429 to R431); none where the address is reserved. (DEDUCED, log 134) -/
def decodeAddr (a : Nat) : Option RegAt :=
  if a % 8 ≠ 0 then none
  else if a < 0x06000000 then
    let off := a % 0x01000000
    match a / 0x01000000 with
    | 0 => atLoc locsHUB 0 off
    | 1 => atLoc locsMGT 0 off
    | 2 => atLoc locsSEC 0 off
    | 3 => atLoc locsTIME 0 off
    | 4 => if off < 0x10000 then none else if off < 0x20000 then atSet 2 (off - 0x10000) else atLoc locsMEM 0 off
    | _ => atLoc locsUCIE 0 off
  else if 0x100000000 ≤ a && a < 0x110000000 then
    let die := (a - 0x100000000) / 0x08000000
    let off := a % 0x01000000
    match (a - 0x100000000) % 0x08000000 / 0x01000000 with
    | 0 => atLoc locsFWD die off
    | 1 => atLoc locsSWC die off
    | 2 => atLoc locsTM die off
    | 3 => atLoc locsRED die off
    | 4 => atLoc locsLANE die off
    | 5 => atLoc locsD2D die off
    | 6 => atSet die off
    | _ => none
  else if 0x200000000 ≤ a && a < 0x201000000 then atLoc locsOE ((a - 0x200000000) / 0x00100000) (a % 0x00100000)
  else if 0x280000000 ≤ a && a < 0x280400000 then atLoc locsBYP ((a - 0x280000000) / 0x00100000) (a % 0x00100000)
  else none

/-- Whether the die that holds a register is available (R431). -/
def Dev.available (d : Dev) (x : RegAt) : Bool :=
  match x.reg.block with
  | .FWD | .SWC | .TM | .RED | .LANE | .D2D => d.dieRuns x.unit
  | .CNT => x.unit == 2 || d.dieRuns x.unit
  | .OE => d.engineRuns x.unit
  | .BYP => d.dieState (18 + x.unit) == 1
  | _ => true

-- Selectors ------------------------------------------------------------------------------------------------------------------

/-- The index that a data window's selector selects; the register's own index elsewhere. -/
def Dev.selIdx (d : Dev) (x : RegAt) : Nat :=
  let u := x.unit
  match x.reg with
  | .SWC_MC_DATA => d.rd F.SWC_MC_SEL_word u 0
  | .SWC_BND_ADMIN | .SWC_BND_INFO | .SWC_BND_LIVE => d.rd F.SWC_BND_SEL_bundle u 0
  | .TM_MAP_DATA => d.rd F.TM_MAP_SEL_port u 0 * 8 + d.rd F.TM_MAP_SEL_class u 0
  | .TM_MTR_CFG | .TM_MTR_BURST => d.rd F.TM_MTR_SEL_meter u 0
  | .TM_Q_CFG | .TM_Q_STAT | .TM_SAMP_DATA => d.rd F.TM_QSEL_port u 0 * 8 + d.rd F.TM_QSEL_class u 0
  | .TM_SHP_CFG => d.rd F.TM_SHP_SEL_port u 0 * 8 + d.rd F.TM_SHP_SEL_shaper u 0
  | .TM_SCH_CFG => d.rd F.TM_PORT_SEL_port u 0 % 512
  | .TM_ADM_CFG | .TM_ADM_STAT => d.rd F.TM_PORT_SEL_port u 0
  | .TM_CRD_CFG | .TM_CRD_STAT => d.rd F.TM_PORT_SEL_port u 0 % 512 * 8 + d.rd F.TM_PORT_SEL_class u 0
  | .RED_CELL_CFG | .RED_CELL_STAT => cellIdx (d.rd F.RED_CELL_SEL_array u 0) (d.rd F.RED_CELL_SEL_cell u 0)
  | .SYNC_HOME_DATA => d.rd F.SYNC_HOME_SEL_group u 0
  | .SYNC_DESC_DATA => d.rd F.SYNC_DESC_SEL_word u 0
  | .SYNC_DESC_STAT => d.rd F.SYNC_DESC_SEL_desc u 0
  | .SYNC_HIST_DATA => d.rd F.SYNC_HIST_SEL_watch u 0 * 2048 + d.rd F.SYNC_HIST_SEL_item u 0
  | .SYNC_BAR_CFG | .SYNC_BAR_TGT | .SYNC_BAR_STAT => d.rd F.SYNC_BAR_SEL_counter u 0
  | .SYNC_CRZ_DATA =>
    (d.rd F.SYNC_CRZ_SEL_block u 0 * 4 + d.rd F.SYNC_CRZ_SEL_tree u 0) * 16 + d.rd F.SYNC_CRZ_SEL_word u 0
  | .LANE_FEC_HDATA => d.rd F.LANE_FEC_HSEL_lane u 0 * 32 + d.rd F.LANE_FEC_HSEL_bin u 0
  | _ => x.idx

/-- Whether an instance of a register that belongs to a port belongs to an active one: a port register of LANE, a TM
window at a port's index, the admission window at a port. -/
def Dev.namesPort (d : Dev) (r : Reg) (u i : Nat) : Bool :=
  match r with
  | .LANE_PORT_CTRL | .LANE_PORT_STAT | .LANE_RETRY | .LANE_HB_STAT | .LANE_LIVE | .TM_SCH_CFG => d.isPort (512 * u + i)
  | .TM_MAP_DATA | .TM_Q_CFG | .TM_Q_STAT | .TM_SAMP_DATA | .TM_SHP_CFG | .TM_CRD_CFG | .TM_CRD_STAT =>
    d.isPort (512 * u + i / 8)
  | .TM_ADM_CFG | .TM_ADM_STAT => d.isPort i
  | _ => true

/-- Whether an access reaches something. Elsewhere a read returns 0 and a write is invalid. (DEDUCED, log 138) -/
def Dev.selects (d : Dev) (x : RegAt) : Bool :=
  let own := laneDie (d.rd F.TM_PORT_SEL_port x.unit 0) == x.unit
  d.namesPort x.reg x.unit (d.selIdx x) &&
    (match x.reg with
     | .TM_SCH_CFG | .TM_CRD_CFG | .TM_CRD_STAT => own
     | _ => true)

-- Quiescing (R349, R350) -----------------------------------------------------------------------------------------------------

/-- Frames of a job block held in a Thallus, control buffer, staging window or miss buffer, both dies, or waiting for the home
die's answer. A multicast frame counts once; a frame that has left counts until its last cell is acknowledged (R24). -/
def Dev.blockFrames (d : Dev) (b : Nat) : Nat :=
  let xs := (d.sw.queue ++ d.sw.tx.map fun t => t.2.desc).filter fun x => x.frame.block == b
  let left := (d.sw.acks.filter fun a => a.block == b && !(xs.any fun x => x.id == a.frame)).map Ack.frame
  (xs.filter fun x => x.mrec.isNone).length + (xs.filterMap fun x => x.mrec).eraseDups.length + left.eraseDups.length +
    ((d.fw.miss ++ d.fw.homeWait).filter fun p => p.frame.block == b).length

/-- Chunk records of a job block that are neither free nor closed, both dies. -/
def Dev.blockChunks (d : Dev) (b : Nat) : Nat := (d.sy.recs.filter fun r => r.block == b && r.state != .closed).length

/-- Whether some barrier counter of a job block holds a weight. -/
def Dev.blockBarriers (d : Dev) (b : Nat) : Bool :=
  let n := Reg.ctorIdx .SYNC_BAR_STAT * 32
  d.regs.any fun e => e.1 / 2097152 / 2 == n / 2 && 0 < fget e.2 F.SYNC_BAR_STAT_weight.hi F.SYNC_BAR_STAT_weight.lo &&
    d.rd F.SYNC_BAR_CFG_block (e.1 / 2097152 % 32) (e.1 % 2097152) == b

/-- Whether a job block holds nothing. -/
def Dev.blockEmpty (d : Dev) (b : Nat) : Bool := d.blockFrames b == 0 && d.blockChunks b == 0 && !d.blockBarriers b

/-- Whether a job block reports quiesced now (R349): the bit, as long as its conditions hold. -/
def Dev.isQuiesced (d : Dev) (b : Nat) : Bool :=
  d.mg.quiesced.getLsbD b && d.on F.MGT_BLK_CTRL_quiesce 0 b && d.blockEmpty b

/-- The bits of the blocks that report quiesced still. -/
def Dev.stillQuiesced (d : Dev) : BitVec 64 :=
  (List.range 64).foldl (fun (q : BitVec 64) b =>
    if q.getLsbD b && !(d.on F.MGT_BLK_CTRL_quiesce 0 b && d.blockEmpty b) then q &&& ~~~ BitVec.twoPow 64 b else q)
    d.mg.quiesced

/-- Drops the bits of blocks that no longer report quiesced. -/
def Dev.requiesce (d : Dev) : Dev := { d with mg := { d.mg with quiesced := d.stillQuiesced } }

/-- Whether every block of a list reports quiesced. -/
def Dev.allQuiesced (d : Dev) (bs : List Nat) : Bool := bs.all d.isQuiesced

/-- Bits set in a word. -/
def bitsOf (w : Word) : List Nat := (List.range 64).filter fun b => wbit w b

/-- The block whose multicast region holds an entry (R88). -/
def Dev.mcBlock (d : Dev) (u entry : Nat) : Option Nat :=
  (List.range 64).find? fun b =>
    let base := d.rd F.SWC_MC_REGION_base u b
    decide (base ≤ entry) && decide (entry < base + d.rd F.SWC_MC_REGION_size u b)

/-- The word of the descriptor buffer. -/
def Dev.descBuf (d : Dev) (u w : Nat) : Word := d.rdw .SYNC_DESC_DATA u w

/-- The blocks that a field affects which serves the given ones: all where it serves none (R13). -/
def orAll (bs : List Nat) : List Nat := if bs.isEmpty then List.range 64 else bs

/-- The job blocks that the QUIESCE fields of a register serve (R13): of a descriptor or barrier, before and after the write;
of a requester, those of its ports (R56); of the lichen registers, the mirrored blocks before or after the write (R218). A field
that serves none in particular affects all. (DEDUCED, log 35; DEDUCED, log 36; DEDUCED, log 54; DEDUCED, log 55) -/
def Dev.serves (d : Dev) (x : RegAt) (i : Nat) (new : Word) : List Nat :=
  let u := x.unit
  let valid := fun (c : Dsc) => if c.valid then [c.block] else []
  match x.reg with
  | .SWC_REQ_CFG =>
    if 896 ≤ i then List.range 64
    else
      let ps := d.cfg.ports.filter fun e => laneDie e.1 == u && e.1 % 512 / 4 == i % 128
      orAll ((List.range 64).filter fun b => ps.any fun e => wbit (d.rdw .FWD_PORT_MASK u (e.1 % 512)) b)
  | .SWC_MC_CMD => (d.mcBlock u (d.rd F.SWC_MC_SEL_entry u 0)).toList
  | .SYNC_DESC_CMD =>
    let old := d.dsc u (d.rd F.SYNC_DESC_SEL_desc u 0)
    orAll (valid old ++ if fget new 1 0 = 2 then valid (dscOfWords (d.descBuf u)) else [])
  | .SYNC_BLK_CFG => [i]
  | .SYNC_BAR_CFG => [d.rd F.SYNC_BAR_CFG_block u i, fget new 62 57]
  | .SYNC_BAR_TGT => [d.rd F.SYNC_BAR_CFG_block u i]
  | .RED_LCH_CFG => bitsOf (d.rdw .RED_LCH_BLOCKS u 0)
  | .RED_LCH_BLOCKS => bitsOf (d.rdw .RED_LCH_BLOCKS u 0 ||| new)
  | _ => List.range 64

-- Classes and merging (R9, R13, R14) --------------------------------------------------------------------------------------------

/-- Whether a write changes a field: an RW or RWS field gets another value, an RW1C bit is cleared, a WO field gets a value
other than "no action". -/
def FieldSpec.changed (f : FieldSpec) (old new : Word) : Bool :=
  match f.acc with
  | .RO => false
  | .RW | .RWS => fget new f.hi f.lo != fget old f.hi f.lo
  | .RW1C => fget (new &&& old) f.hi f.lo != 0
  | .WO => fget new f.hi f.lo != 0

/-- The operations of a QUIESCE command that change a table: op 2 of SWC_MC_CMD, ops 2 and 3 of SYNC_DESC_CMD. -/
def checkedOp (r : Reg) (new : Word) : Bool :=
  match r with
  | .SWC_MC_CMD => fget new 1 0 == 2
  | .SYNC_DESC_CMD => fget new 1 0 == 2 || fget new 1 0 == 3
  | _ => true

/-- The status of the first field, from bit 63 downward, that a write would change and that is refused under R13:
0 for none, 1 busy, 2 image-only. -/
def Dev.classCheck (d : Dev) (x : RegAt) (i : Nat) (old new : Word) : List FieldSpec → Nat
  | [] => 0
  | f :: fs =>
    if f.changed old new then
      match f.cls with
      | .IMAGE => 2
      | .QUIESCE =>
        if checkedOp x.reg new && !d.allQuiesced (d.serves x i new) then 1 else d.classCheck x i old new fs
      | _ => d.classCheck x i old new fs
    else d.classCheck x i old new fs

/-- What a write leaves in a register (R9): RW and RWS fields take the value, RW1C bits written 1 clear, RO and WO
fields stay. -/
def mergeWord (old new : Word) (fs : List FieldSpec) : Word :=
  fs.foldl (fun w f => match f.acc with
    | .RW | .RWS => fput w f.hi f.lo (fget new f.hi f.lo)
    | .RW1C => fput w f.hi f.lo (fget (old &&& ~~~ new) f.hi f.lo)
    | _ => w) old

-- Limits ------------------------------------------------------------------------------------------------------------------------

/-- Whether a code names an event of a counter set's block (Tables 18.1 and 18.2), by unit and set. -/
def eventOk (unit set ev : Nat) : Bool :=
  let (own, drops, evts, errs) : Nat × Nat × Nat × Nat :=
    if unit = 2 then
      match set with
      | 0 => (1, 0, 6, 9)
      | 1 => (3, 10, 0, 9)
      | 2 => (2, 0, 0, 7)
      | 3 => (1, 0, 5, 3)
      | _ => (3, 0, 0, 0)
    else
      match set with
      | 0 => (5, 5, 10, 5)
      | 1 => (6, 11, 0, 8)
      | 2 => (6, 4, 0, 4)
      | 3 => (3, 0, 6, 7)
      | 4 => (3, 10, 12, 6)
      | 5 => (5, 0, 10, 6)
      | 6 => (3, 0, 6, 6)
      | 16 | 17 => (2, 0, 8, 7)
      | _ => (2, 0, 11, 8)
  let lane := unit != 2 && set == 5
  if ev < 0x100 then ev ≤ own || (lane && 0x11 ≤ ev && ev ≤ 0x1B)
  else if ev < 0x200 then decide (ev - 0x100 < drops)
  else if ev < 0x300 then decide (ev - 0x200 < evts)
  else 1 ≤ ev - 0x300 && ev - 0x300 ≤ errs

/-- The quota sum of the requesters of a pool, but for one (R76). -/
def Dev.poolQuota (d : Dev) (die pool but : Nat) : Nat :=
  (List.range 912).foldl (fun n q =>
    if q != but && d.rd F.SWC_REQ_CFG_pool die q == pool then n + d.rd F.SWC_REQ_CFG_quota die q else n) 0

/-- Whether every port with a lane on `lane`, or on its fibre for an optical loopback, is held (R289). -/
def Dev.laneHeld (d : Dev) (lane : Nat) (fibre : Bool) : Bool :=
  (if fibre then (List.range 8).map (lane / 8 * 8 + ·) else [lane]).all fun l => match d.portOf l with
    | some p => d.prd F.LANE_PORT_CTRL_hold p == 1
    | none => true

/-- Whether a lane may enter the test or loopback that a write sets (R289). -/
def Dev.laneCfgOk (d : Dev) (lane : Nat) (old new : Word) : Bool :=
  let lb := fget new 61 60
  let enters := (wbit new 59 && !wbit old 59) || (lb != 0 && lb != fget old 61 60)
  let optical := d.optical lane
  !enters || (d.laneHeld lane (lb == 3) && (lb != 3 ||
    (optical && !d.txTaken (lane / 8) && !d.rxTaken (lane / 8))))

/-- The highest error code that the code field of an ERR_FIRST register lists. -/
def Reg.lastCode : Reg → Option Nat
  | .HUB_ERR_FIRST | .MGT_ERR_FIRST => some 9
  | .SWC_ERR_FIRST | .OE_ERR_FIRST => some 8
  | .SEC_ERR_FIRST | .RED_ERR_FIRST | .BYP_ERR_FIRST => some 7
  | .SYNC_ERR_FIRST | .LANE_ERR_FIRST | .D2D_ERR_FIRST => some 6
  | .FWD_ERR_FIRST => some 5
  | .TM_ERR_FIRST => some 4
  | .TIME_ERR_FIRST => some 3
  | _ => none

/-- Whether a value breaks a limit in a Description (R8, Table 14.4). `i` is the selected index, `new` the written word; `ch`
tells which fields count: a limit holds where a field that it binds does (R14). A key or length that a table command cannot use
is a status of the command (Table 5.4), so FWD_KEY takes any value. RED_LCH_CFG takes the first lane of an active port only.
(DEDUCED, log 43; DEDUCED, log 53; DEDUCED, log 136; DEDUCED, log 179; DEDUCED, log 180; DESIGN CHOICE, log 193) -/
def Dev.badValue (d : Dev) (x : RegAt) (i : Nat) (ch : Nat → Nat → Bool) (old new : Word) : Bool :=
  let u := x.unit
  let g := fun hi lo => fget new hi lo
  let lim := fun hi lo (p : Nat → Bool) => ch hi lo && p (g hi lo)
  let outside := fun lo hi v => decide (v < lo) || decide (hi < v)
  let code := match x.reg.lastCode with
    | some n => lim 55 48 (decide <| n < ·)
    | none => false
  code || match x.reg with
  | .SWC_MC_SEL => lim 20 16 (decide <| 18 < ·)
  | .SWC_REQ_CFG =>
    let p := g 22 19
    (ch 18 0 || ch 22 19) && d.on F.SWC_POOL_CFG_kind u p &&
      decide (d.rd F.SWC_POOL_CFG_size u p < d.poolQuota u p i + g 18 0)
  | .TM_RED_SEED => lim 31 0 (· == 0)
  | .TM_MAP_SEL => lim 2 0 (· == 7)
  | .TM_MTR_CFG => lim 63 62 (· == 3) ||
    ((ch 63 62 || ch 39 20 || ch 19 0) && g 63 62 == 2 && decide (g 19 0 < g 39 20))
  | .TM_MTR_BURST => lim 47 24 (decide <| · < 4132) || lim 23 0 fun v => v != 0 && decide (v < 4132)
  | .TM_RED_PROF => (ch 37 19 || ch 18 0) && decide (g 37 19 < g 18 0)
  | .TM_SHP_SEL => lim 2 0 (decide <| 5 < ·)
  | .TM_SHP_CFG => (ch 63 63 || ch 19 0) && wbit new 63 && decide (g 19 0 < 4132)
  | .TM_SCH_CFG => ch 39 0 && (List.range 5).any fun c => g (8 * c + 7) (8 * c) == 0
  | .TM_CRD_CFG =>
    lim 11 0 fun v => v != 0 && !d.lossless u (requester (.port (512 * u + i / 8)) (i % 8)) (i % 8)
  | .FWD_EPOCH => lim 10 0 (outside 1 1000)
  | .FWD_AGE_CFG => lim 4 0 (decide <| 20 < ·)
  | .FWD_PORT_CFG => (ch 15 15 || ch 14 13) && wbit new 15 && (g 14 13 == 0 || g 14 13 == 3)
  | .FWD_CMD => lim 3 0 (decide <| 7 < ·) || lim 7 4 (decide <| 3 < ·) || lim 11 10 (decide <| 1 < ·)
  | .RED_KAT_CTRL => lim 62 59 (decide <| 11 < ·) || lim 57 55 (decide <| 5 < ·) ||
    ((ch 62 59 || ch 57 55) && !rowOk (g 62 59) (g 62 59) (g 57 55)) || lim 45 36 (· == 0) || lim 31 0 (· == 0)
  | .SYNC_DESC_SEL => lim 20 16 (decide <| 26 < ·)
  | .SYNC_BLK_CFG => lim 45 32 (decide <| 12288 < ·)
  | .SYNC_HIST_SEL => lim 10 0 (decide <| 1039 < ·)
  | .SYNC_BAR_CFG => lim 56 46 (outside 1 1024) || lim 35 20 (· == 0)
  | .SYNC_CRZ_SEL => lim 4 0 (decide <| 15 < ·)
  | .RED_LCH_CFG => lim 13 0 (outside 10 10000) || ((ch 63 63 || ch 60 51) && wbit new 63 && !d.isPort (g 60 51))
  | .OE_CMD => lim 3 0 (decide <| 4 < ·) || (g 3 0 == 1 && decide (7 < g 7 4))
  | .OE_ERR_FIRST => lim 7 4 (decide <| 8 < ·)
  | .D2D_ERR_FIRST => lim 4 0 (decide <| 16 < ·)
  | .OE_CAL_CMD | .BYP_CAL_CMD => wbit new 0 && g 31 16 != 0xC0A1
  | .BYP_CMD => lim 2 0 (decide <| 3 < ·)
  | .LANE_HB_CFG => lim 31 16 (outside 10 1000) || lim 15 0 (outside 10 1000)
  | .LANE_FEC_HSEL => lim 4 0 (decide <| 16 < ·)
  | .LANE_CFG => lim 63 62 (· == 3) || !d.laneCfgOk (512 * u + i) old new
  | .LANE_PAT => lim 63 61 (decide <| 4 < ·) || lim 60 58 (decide <| 3 < ·) ||
    ((ch 63 61 || ch 57 53) && g 63 61 == 4 && g 57 53 == 0)
  | .LANE_INJ => lim 63 62 (· == 3) || ((ch 63 62 || ch 61 57) && g 63 62 == 2 && outside 1 16 (g 61 57)) ||
    ((ch 63 62 || ch 56 52) && g 63 62 == 1 && decide (g 56 52 < 10))
  | .HUB_BOOT_STAT => lim 57 55 (decide <| 5 < ·)
  | .HUB_AVS_CTRL => lim 51 40 (fun v => outside 700 850 v || v % 5 != 0) || lim 7 0 (outside 2 20)
  | .HUB_INJ_CTRL =>
    lim 4 1 (decide <| 9 < ·) || (wbit new 0 && (if g 4 1 = 9 then g 47 32 != 0xFA7A
      else g 31 24 == 0 || g 9 8 == 0 || g 9 8 == 3))
  | .MGT_AUTH_CFG => lim 3 0 (· == 15)
  | .MGT_NET_CFG => lim 29 24 (outside 8 30) || lim 23 12 (· == 4095)
  | .MGT_EVT_DEST => (ch 63 63 || ch 47 32) && wbit new 63 && g 47 32 == 0
  | .SEC_ROLLBACK => wbit new 0 && g 16 1 != 0x5EC1
  | .SEC_OWNER_CMD => wbit new 0 && g 16 1 != 0xA77E
  | .SEC_KEY_CMD => lim 5 2 (· == 15) || lim 1 0 (· == 3)
  | .SEC_QUOTE_CMD => lim 12 1 (decide <| 2119 < ·)
  | .TIME_INC => lim 63 0 fun v => decide (10000 * v < 63936 * 2 ^ 32) || decide (64064 * 2 ^ 32 < 10000 * v)
  | .TIME_CTRL => lim 44 40 (outside 20 30) || lim 9 0 (outside 10 1000)
  | .CNT_SEL => lim 11 0 (fun v => !eventOk u (i / 32) v) || ((ch 51 51 || ch 50 41) && wbit new 51 && !d.isPort (g 50 41))
  | .MEM_FR_CTRL => lim 9 0 (decide <| 1000 < ·)
  | _ => false

/-- Whether a write is refused busy because of the register itself (Table 14.4): its own command runs, or TIME_INC or
TIME_ADJ in mode 0. (DEDUCED, log 78) -/
def Dev.ownBusy (d : Dev) (x : RegAt) (old new : Word) : Bool :=
  let u := x.unit
  let any := x.reg.layout.any fun f => f.changed old new
  match x.reg with
  | .FWD_CMD => any && d.on F.FWD_CMD_busy u 0
  | .RED_KAT_CTRL => any && d.on F.RED_KAT_STAT_busy u 0
  | .HUB_INJ_CTRL => any && d.on F.HUB_INJ_CTRL_busy 0 0
  | .TIME_INC | .TIME_ADJ => any && !d.on F.TIME_CTRL_mode 0 0
  | _ => false

/-- The status of a write before it acts (Table 14.4); 0 where it goes ahead: selection, then the classes of the fields, then own
busy, then limits. No rule orders them. (DESIGN CHOICE, log 135) -/
def Dev.writeStatus (d : Dev) (x : RegAt) (old new : Word) : Nat :=
  let i := d.selIdx x
  if !d.selects x then 3
  else
    let c := d.classCheck x i old new x.reg.layout
    if c ≠ 0 then c
    else if d.ownBusy x old new then 1
    else if d.badValue x i (fun hi lo => fget new hi lo != fget old hi lo) old new then 3
    else 0

end Sys2Proof.Machine
end

