-- ==== Sys2Proof/Machine/RegEffects.lean ====
section
/-! DEFINITION. What a changed RW field does at once, beside the value it holds: shared by KXX-M writes and image loads. -/

namespace Sys2Proof.Machine

/-- Clears the counts of a watch (SYNC_WATCH). -/
def Dev.clearWatch (d : Dev) (u i : Nat) : Dev :=
  let lo := regKey .SYNC_HIST_DATA u (2048 * i)
  { d with regs := d.regs.filter fun e => !(decide (lo ≤ e.1) && decide (e.1 < lo + 2048)) }

/-- A write to SYNC_BAR_CFG resets the counter's generation, vector and weight. -/
def Dev.resetBarrier (d : Dev) (u i : Nat) : Dev :=
  let d := { d with sy := { d.sy with barVec := smErase d.sy.barVec (u * 4096 + i) } }
  (d.wr F.SYNC_BAR_STAT_generation u i 0).wr F.SYNC_BAR_STAT_weight u i 0

/-- A change of the source configuration (R385): a source whose port or enable changes has not been heard yet; the other one goes on.
-/
def Dev.restartSources (d : Dev) (primary secondary : Bool) : Dev :=
  let t := d.time
  let gone := fun s => (s == 1 && primary) || (s == 2 && secondary)
  ({ d with time := { t with valid := t.valid.filter fun s => !gone s, good := if primary then 0 else t.good } } : Dev).chooseSource

/-- A change of a meter's mode refills its buckets (Table 4.6). -/
def Dev.refillMeter (d : Dev) (u i : Nat) : Dev :=
  let m := fullMeter (d.rd F.TM_MTR_BURST_cbs u i) (d.rd F.TM_MTR_BURST_xbs u i) d.tick
  { d with tm := { d.tm with meters := smInsert d.tm.meters (u * 4096 + i) m } }

/-- A change of CNT_CTRL enable acts from the next tick (Table 18.5). -/
def Dev.flipEnable (d : Dev) (u set : Nat) : Dev :=
  let t := d.time
  { d with time := { t with cntEn := if t.cntEn.contains (u, set) then t.cntEn.filter (· != (u, set)) else t.cntEn ++ [(u, set)] } }

/-- A shaper write waits for its refill boundary (R112). -/
def Dev.dirtyShaper (d : Dev) (u i : Nat) : Dev :=
  let k := shpKey (512 * u) 0 + i
  if d.tm.shaperDirty.contains k then d else { d with tm := { d.tm with shaperDirty := d.tm.shaperDirty ++ [k] } }

/-- What a changed register does at once. `before` is the device before the write, `i` the index the write reached, `old`
and `new` the register's words before and after. -/
def Dev.afterWrite (d before : Dev) (x : RegAt) (i : Nat) (old new : Word) : Dev :=
  let u := x.unit
  let diff := fun hi lo => fget old hi lo != fget new hi lo
  match x.reg with
  | .SWC_BND_ADMIN => if old = new then d else (d.settle u i (before.selMask u i)).dropDeadMaps
  | .TM_RED_SEED => { d with tm := { d.tm with lfsrLoaded := smErase d.tm.lfsrLoaded u } }
  | .TM_MTR_CFG => if diff 63 62 then d.refillMeter u i else d
  | .TM_SHP_CFG => d.dirtyShaper u i
  | .TM_Q_CFG => d.satSweep
  | .SYNC_WATCH => if wbit new 63 && (!wbit old 63 || diff 14 0) then d.clearWatch u i else d
  | .SYNC_BAR_CFG => d.resetBarrier u i
  | .LANE_PORT_CTRL => if diff 63 63 then d.portHold (512 * u + i) else d
  | .LANE_CFG => d.laneCfg (512 * u + i) (before.laneTest (512 * u + i))
  | .LANE_PAT => d.lanePattern (512 * u + i) (diff 63 61 || fget new 63 61 == 4 && diff 57 53) (diff 60 58)
  | .LANE_INJ => d.laneInj (512 * u + i)
  | .HUB_AVS_CTRL => d.forcedStep i
  | .TIME_INC => { d with time := { d.time with pendInc := some (fget new 63 0) } }
  | .TIME_CTRL => if diff 62 62 then d.chooseSource else d
  | .TIME_SRC_CFG => if old = new then d else d.restartSources (diff 63 63 || diff 9 0) (diff 62 62 || diff 25 16)
  | .HUB_FATAL_STAT => if wbit new 63 then d else d.wrw .HUB_FATAL_STAT 0 0 (fput new 63 42 0)
  | .CNT_CTRL => if diff 63 63 then d.flipEnable u (i / 32) else d
  | _ => d

end Sys2Proof.Machine
end

