-- ==== Sys2Proof/Machine/Image.lean ====
section
/-! DEFINITION. The Iaham image (R36, R355, R453, Table 14.8): its content, the rules boot checks, its activation and the
application of a region image (R356). -/

namespace Sys2Proof.Machine

/-- A register load of section 1 (R453). `sel` is the index the load reaches in a register behind a selector.
(DESIGN CHOICE, log 111) -/
structure ImgLoad where
  addr : Nat
  sel : Nat
  value : Word
  deriving DecidableEq, Repr

/-- A word of the memories that sections 3 and 6 to 9 hold: section type, register or memory, core die, index. -/
structure ImgWord where
  sec : Nat
  reg : Reg
  unit : Nat
  idx : Nat
  value : Word
  deriving DecidableEq, Repr

/-- A route of section 3: core die and entry; both banks hold it (R139). -/
structure ImgRoute where
  die : Nat
  entry : RouteEntry
  deriving DecidableEq, Repr

/-- Initial bypass circuits of section 10: quad, mesh input, outputs. -/
structure ImgCircuit where
  quad : Nat
  input : Nat
  outputs : Word
  deriving DecidableEq, Repr

/-- An entry of an image's directory (R355): section type, offset in the file, length, SHA-384 digest. -/
structure ImgSection where
  type : Nat
  offset : Nat
  length : Nat
  digest : List Byte
  deriving DecidableEq, Repr

/-- An Iaham image (R355). `kind` is 1 full or 2 region; `count` is the header's section count, `sections` the directory;
`keeps` the quads for which section 10 sets keep; `logical` gives the core die of each static entry; `leads` says whether every bundle that a reduction frame takes leads each member toward the reducing
device (R96), a fact about the fabric that only the compiler's output shows. (DEDUCED, log 114) -/
structure Image where
  kind : Nat
  id : Nat
  minStep : Nat × Nat
  mask : Word
  base : List Byte
  count : Nat
  sections : List ImgSection
  loads : List ImgLoad
  groups : SMap GroupInfo
  ports : SMap PortInfo
  epoch : Nat
  routes : List ImgRoute
  logical : List (Nat × LogEntry)
  backing : List LogEntry
  words : List ImgWord
  bundles : SMap (List Nat)
  leads : Bool
  originHop : Nat
  circuits : List ImgCircuit
  keeps : List Nat
  allow : List (List Byte)
  streams : Nat
  stage : StageCfg
  deriving DecidableEq, Repr

-- Descriptors (R152, R173) ------------------------------------------------------------------------------------------------------

/-- Set bits of a leaf mask. -/
def leafCount (m : BitVec 1024) : Nat := (List.range 1024).foldl (fun n i => if m.getLsbD i then n + 1 else n) 0

/-- Whether a descriptor breaks R173, R152 or a limit of Table 7.1. One whose valid is 0 is not checked.
(DEDUCED, log 56) -/
def Dsc.bad (c : Dsc) : Bool :=
  let ents := c.entries.filter fun e => e.1
  c.valid && (!rowOk c.inF c.outF c.op || decide (4096 < payBytes c.outF c.elems) ||
    (fmtInt c.inF && c.op == 0 && c.parentKind == 1 && !c.exact) ||
    c.members != leafCount c.leaf || c.members == 0 ||
    (ents.any fun e => c.leaf.getLsbD e.2.1 || decide (1023 < e.2.2.1 + e.2.2.2 - 1) || e.2.2.2 == 0) ||
    ents.length != c.partials || c.parentKind == 0 || c.parentKind == 3 || c.timeout == 0 || c.units64 == 0 ||
    decide (64 < c.units64))

-- Register loads (R453) ---------------------------------------------------------------------------------------------------------

/-- What a load leaves in a register: RW and RWS fields take the value, the others stay. -/
def loadWord (old new : Word) (fs : List FieldSpec) : Word :=
  fs.foldl (fun w f => match f.acc with
    | .RW | .RWS => fput w f.hi f.lo (fget new f.hi f.lo)
    | _ => w) old

/-- The bits of a value that a load sets: those of RW and RWS fields. A write's action bits count as 0 in the limits. -/
def loadValue (new : Word) (fs : List FieldSpec) : Word := loadWord 0 new fs

/-- Whether a register is a data window, whose instance a load's `sel` gives. -/
def Reg.isWindow : Reg → Bool
  | .SWC_MC_DATA | .SWC_BND_ADMIN | .TM_MAP_DATA | .TM_MTR_CFG | .TM_MTR_BURST | .TM_Q_CFG | .TM_SHP_CFG | .TM_SCH_CFG
  | .TM_ADM_CFG | .TM_CRD_CFG | .RED_CELL_CFG | .SYNC_HOME_DATA | .SYNC_DESC_DATA | .SYNC_BAR_CFG | .SYNC_BAR_TGT
  | .SYNC_CRZ_DATA => true
  | _ => false

/-- The index a load reaches. -/
def loadIdx (x : RegAt) (sel : Nat) : Nat := if x.reg.isWindow then sel else x.idx

/-- Memories whose contents both core dies share: the multicast table (R88), the home map (R171), the crozier trees (R199). -/
def Reg.onBoth : Reg → Bool
  | .VM_MC | .SYNC_HOME_DATA | .SYNC_CRZ_DATA => true
  | _ => false

/-- Performs one load; none where it names no register or breaks a limit. -/
def Dev.loadReg (d : Dev) (l : ImgLoad) : Option Dev :=
  match decodeAddr l.addr with
  | none => none
  | some x =>
    let i := loadIdx x l.sel
    let old := d.rdw x.reg x.unit i
    let new := loadWord old l.value x.reg.layout
    if !d.namesPort x.reg x.unit i || d.badValue x i (fun _ _ => true) old (loadValue l.value x.reg.layout) then none
    else
      let d' := d.wrw x.reg x.unit i new
      some ((if x.reg.onBoth then d'.wrw x.reg (1 - x.unit) i new else d').afterWrite d x i old new)

/-- Runs `f` over a list until it fails. -/
def Dev.eachOpt {α : Type} (d : Dev) (l : List α) (f : Dev → α → Option Dev) : Option Dev :=
  l.foldl (fun o a => o.bind fun d => f d a) (some d)

-- Tables ------------------------------------------------------------------------------------------------------------------------

/-- Places a static on-die logical entry; none where both buckets are full (R121). -/
def Dev.placeLog (d : Dev) (die : Nat) (e : LogEntry) : Option Dev :=
  match d.findLog die e.key with
  | some (p, _) => some (d.putLog die p e)
  | none => ((d.logPos die e.key 32768).find? fun p => (smFind d.fw.logical (lgBase die + p)).isNone).map
      fun p => d.putLog die p e

/-- Places a backing entry of an image; none where both buckets are full. It is not among those written since (R314): an attach
restores it. -/
def Dev.placeBack (d : Dev) (e : LogEntry) : Option Dev :=
  let r := d.insertBack 0 e
  if r.2 = 2 then none else some { r.1 with fw := { r.1.fw with written := r.1.fw.written.dropLast } }

/-- Places a route in one bank; none where its length is not enabled or both buckets are full (R120, R121). -/
def Dev.placeBank (d : Dev) (bank : Nat) (r : ImgRoute) : Option Dev :=
  let x := d.insertRoute r.die bank r.entry
  if rtArgOk ⟨r.entry.len, r.entry.pfx⟩ = false || x.2 = 2 || x.2 = 5 then none else some x.1

/-- Places a route in both banks (R139). -/
def Dev.placeRoute (d : Dev) (r : ImgRoute) : Option Dev := (d.placeBank 0 r).bind fun d => d.placeBank 1 r

/-- Which memories a section holds (Table 14.8). -/
def secHolds (sec : Nat) (r : Reg) : Bool :=
  match sec with
  | 3 => r == .FWD_RT_GEOM
  | 6 => r == .VM_MC || r == .SWC_MC_REGION
  | 7 => r == .SWC_POOL_CFG || r == .SWC_REQ_CFG || r == .TM_CRD_CFG || r == .TM_ADM_CFG
  | 8 => r == .SYNC_HOME_DATA || r == .VM_DESC
  | 9 => r == .SYNC_CRZ_DATA
  | _ => false

/-- Writes one word of an image, its reserved bits 0; a word of a memory that both dies share goes to both. -/
def Dev.loadImgWord (d : Dev) (w : ImgWord) : Dev :=
  let v := w.value &&& w.reg.known w.idx
  if w.reg.onBoth then (d.wrw w.reg 0 w.idx v).wrw w.reg 1 w.idx v else d.wrw w.reg w.unit w.idx v

/-- The descriptors that an image's words touch, as (die, descriptor). -/
def descsOf (ws : List ImgWord) : List (Nat × Nat) :=
  ((ws.filter fun w => w.reg == .VM_DESC).map fun w => (w.unit, w.idx / 27)).eraseDups

-- What boot checks --------------------------------------------------------------------------------------------------------------

/-- The electrical attachment groups of a die with their long-reach groups (R19). -/
def electricalGroups (gs : SMap GroupInfo) (die : Nat) : List (Nat × Nat) :=
  (gs.filter fun e => e.2.electrical && e.1 / 128 == die).map fun e => (e.1, e.2.longReach)

/-- The port map (R19, R20): widths and places, no overlap, each port in an active group, at most 32 electrical groups a die
on long-reach groups of their own. A group has one attachment and one role (R33). -/
def portsOk (groups : SMap GroupInfo) (ps : SMap PortInfo) : Bool :=
  let ws := fun (e : Nat × PortInfo) => decide (e.1 < 1024) &&
    (e.2.width == 1 || e.2.width == 2 || e.2.width == 4) && e.1 % e.2.width == 0
  let lanes := ps.flatMap fun e => (List.range e.2.width).map (e.1 + ·)
  let kinds := (ps.all fun e => (smFind groups (e.1 / 4)).isSome) && (groups.all fun e => decide (e.1 < 256)) &&
    decide ((groups.map Prod.fst).eraseDups.length = groups.length)
  let die := fun k =>
    let gs := electricalGroups groups k
    decide (gs.length ≤ 32) && (gs.all fun g => decide (g.2 < 32)) &&
      decide ((gs.map Prod.snd).eraseDups.length = gs.length)
  ps.all ws && decide (lanes.eraseDups.length = lanes.length) && kinds && die 0 && die 1

/-- Pools and requesters of a die (R76). -/
def Dev.poolsOk (d : Dev) (u : Nat) : Bool :=
  let lossless := fun q => d.on F.SWC_POOL_CFG_kind u (d.rd F.SWC_REQ_CFG_pool u q)
  let always := (List.range 912).all fun q => q < 640 || lossless q
  let sums := (List.range 16).all fun p => !d.on F.SWC_POOL_CFG_kind u p ||
    decide (d.poolQuota u p 912 ≤ d.rd F.SWC_POOL_CFG_size u p)
  always && sums && decide (((List.range 16).foldl (fun n p => n + d.rd F.SWC_POOL_CFG_size u p) 0) ≤ 393216)

/-- Credits of a die's ports (R108). -/
def Dev.creditsOk (d : Dev) (u : Nat) : Bool :=
  let ps := (d.cfg.ports.map Prod.fst).filter fun p => laneDie p == u
  let zero := ps.all fun p => (List.range 8).all fun c =>
    (d.advert p c != 0) == d.lossless u (requester (.port p) c) c
  let sums := ps.all fun p => (List.range 7).all fun c => !d.lossless u (requester (.port p) c) c ||
    decide (((ps.filter fun q => q / 4 == p / 4).foldl (fun n q => n + d.advert q c) 0) ≤
      d.rd F.SWC_REQ_CFG_quota u (requester (.port p) c))
  zero && sums && decide ((ps.foldl (fun n p => n + d.advert p 7) 0) ≤ 4096)

/-- Admission budget of a port width in bytes (Table 4.3). -/
def admBudget (w : Nat) : Nat := if w = 1 then 18432 else if w = 2 then 45056 else 98560

/-- Admission shares (R114). -/
def Dev.sharesOk (d : Dev) : Bool :=
  d.cfg.ports.all fun e =>
    let s := fun u => d.rd F.TM_ADM_CFG_share u e.1
    decide (4132 ≤ s 0) && decide (4132 ≤ s 1) && decide (s 0 + s 1 ≤ admBudget e.2.width)

/-- Route regions of a die: inside the 32,768 buckets and disjoint (R120). -/
def Dev.geomOk (d : Dev) (u : Nat) : Bool :=
  let rs := ((List.range 25).filter fun n => d.on F.FWD_RT_GEOM_enable u n).map fun n =>
    (n, d.rd F.FWD_RT_GEOM_base u n, 2 ^ d.rd F.FWD_RT_GEOM_size u n)
  (rs.all fun r => decide (r.2.1 + r.2.2 ≤ 32768)) &&
    (rs.all fun a => rs.all fun b => a.1 == b.1 || decide (a.2.1 + a.2.2 ≤ b.2.1) || decide (b.2.1 + b.2.2 ≤ a.2.1))

/-- Bundles (R92): at most 1,024, each of 1 to 64 active ports. -/
def bundlesOk (bs : SMap (List Nat)) (ps : SMap PortInfo) : Bool :=
  bs.all fun b => decide (b.1 < 1024) && decide (1 ≤ b.2.length) && decide (b.2.length ≤ 64) &&
    b.2.all fun p => (smFind ps p).isSome

/-- The stepping minima (R306). -/
def steppingOk (img : Image) (steppings : Nat × Nat) : Bool :=
  decide (img.minStep.1 ≤ steppings.1) && decide (img.minStep.2 ≤ steppings.2)

/-- The section types present. -/
def Image.types (img : Image) : List Nat := img.sections.map ImgSection.type

/-- The section types that an image's content needs (Table 14.8). -/
def Image.needs (img : Image) : List Nat :=
  let on := fun (b : Bool) (n : Nat) => if b then [n] else []
  on (!img.loads.isEmpty) 1 ++ on (!img.groups.isEmpty || !img.ports.isEmpty) 2 ++ on (!img.routes.isEmpty) 3 ++
    on (!img.logical.isEmpty) 4 ++ on (!img.backing.isEmpty) 5 ++ on (!img.bundles.isEmpty) 7 ++
    on (!img.circuits.isEmpty || !img.keeps.isEmpty) 10 ++ on (!img.allow.isEmpty || img.streams != 0) 11 ++
    on (!img.stage.sites.isEmpty || img.stage.prio != 0) 12 ++ img.words.map ImgWord.sec

/-- Whether an image's directory has as many entries as its header counts, each of a type of its own that the kind may hold, and
one for each type of its content (R355, Table 14.8). -/
def Image.dirOk (img : Image) : Bool :=
  let may := if img.kind = 1 then List.range' 1 12 else [1, 4, 5, 6, 8, 9]
  decide (img.count = img.sections.length) && decide (img.types.eraseDups.length = img.types.length) &&
    img.types.all may.contains && img.needs.all img.types.contains

/-- Whether the sections of a file's body have the digests that its directory gives; they follow the 256-byte header (R355). -/
def Image.digestsOk (img : Image) (body : List Byte) : Bool :=
  img.sections.all fun s => decide (256 ≤ s.offset) && decide (s.offset + s.length ≤ body.length) &&
    sha384 ((body.drop s.offset).take s.length) == s.digest

/-- Section 12 (R361): at most 32 sites in use, none with more insertion loss than a channel's 28 dB (R263), the groups of the
device's own sites electrical. (DEDUCED, log 173) -/
def Image.stageOk (img : Image) : Bool :=
  let s := img.stage
  decide (s.sites.length ≤ 32) && s.sites.all fun e => decide (e.1 < 128) && decide (e.2.maxLoss ≤ 2800) &&
    (e.1 / 8 != s.pos || e.2.ports.all fun p => match smFind img.groups (p / 4) with
      | some g => g.electrical
      | none => false)

/-- The rules of earlier chapters that boot checks on the loaded image. -/
def Dev.imageRulesOk (d : Dev) (img : Image) : Bool :=
  d.poolsOk 0 && d.poolsOk 1 && d.creditsOk 0 && d.creditsOk 1 && d.sharesOk && d.geomOk 0 && d.geomOk 1 && img.leads &&
    (descsOf img.words).all fun x => !(d.dsc x.1 x.2).bad

-- Activation (step 11 of Table 12.2) --------------------------------------------------------------------------------------------

/-- Sections 2, 10 and 12 as far as registers show them: masks, widths, keep, priority and position. -/
def Dev.loadPorts (d : Dev) (img : Image) : Dev :=
  let d := d.each img.ports fun d e =>
    (d.wrw .FWD_PORT_MASK (laneDie e.1) (e.1 % 512) e.2.blocks).wr F.LANE_PORT_STAT_width (laneDie e.1) (e.1 % 512)
      (widthCode e.2.width)
  let d := d.each img.keeps fun d q => d.wr F.BYP_CFG_keep q 0 1
  (d.wr F.MGT_STAGE_STAT_priority 0 0 img.stage.prio).wr F.MGT_STAGE_STAT_position 0 0 img.stage.pos

/-- What the image says that no register holds; `digest` is the configuration digest (R357). -/
def Image.cfg (img : Image) (digest : List Byte) : Cfg :=
  { active := true, groups := img.groups, ports := img.ports, bundles := img.bundles, originHop := img.originHop, allow := img.allow,
    streams := img.streams, stage := img.stage, digest := digest }

/-- Loads a full image into registers and tables; none where a rule refuses it.
(DEDUCED, log 110; DESIGN CHOICE, log 175) -/
def Dev.loadImage (d : Dev) (img : Image) (digest : List Byte) (steppings : Nat × Nat) : Option Dev :=
  if img.kind != 1 || !steppingOk img steppings || !portsOk img.groups img.ports || !bundlesOk img.bundles img.ports ||
    !(img.words.all fun w => secHolds w.sec w.reg) || !img.dirOk || !img.stageOk then none
  else
    let d := ({ d with cfg := img.cfg digest } : Dev).loadPorts img
    let d := d.each img.words Dev.loadImgWord
    let d := (d.wr F.FWD_EPOCH_epoch 0 0 img.epoch).wr F.FWD_EPOCH_epoch 1 0 img.epoch
    let d := (d.eachOpt img.loads Dev.loadReg).bind fun d => d.eachOpt img.routes Dev.placeRoute
    let d := (d.bind fun d => d.eachOpt img.logical fun d e => d.placeLog e.1 e.2).bind fun d =>
      d.eachOpt img.backing Dev.placeBack
    d.bind fun d => if d.imageRulesOk img then some d else none

-- Region images (R356) ----------------------------------------------------------------------------------------------------------

/-- Whether a logical entry is of a masked block. -/
def LogEntry.inMask (e : LogEntry) (mask : Word) : Bool := wbit mask e.block

/-- Whether a register load may stand in a region image: FWD_BLK_CFG and SYNC_BLK_CFG of a masked block, SYNC_BAR_CFG
and SYNC_BAR_TGT of a counter whose block before and after the load is masked. -/
def Dev.regionLoadOk (d after : Dev) (mask : Word) (l : ImgLoad) : Bool :=
  match decodeAddr l.addr with
  | none => false
  | some x => match x.reg with
    | .FWD_BLK_CFG | .SYNC_BLK_CFG => wbit mask x.idx
    | .SYNC_BAR_CFG | .SYNC_BAR_TGT =>
      wbit mask (d.rd F.SYNC_BAR_CFG_block x.unit l.sel) && wbit mask (after.rd F.SYNC_BAR_CFG_block x.unit l.sel)
    | _ => false

/-- Whether a word of a region image lies within the masked blocks. -/
def Dev.regionWordOk (d after : Dev) (mask : Word) (w : ImgWord) : Bool :=
  let held := fun (c : Dsc) => !c.valid || wbit mask c.block
  match w.reg with
  | .VM_MC => match d.mcBlock w.unit (w.idx / 19) with
    | some b => wbit mask b
    | none => false
  | .SYNC_HOME_DATA =>
    wbit mask (fget w.value 42 37) &&
      (!d.on F.SYNC_HOME_DATA_valid w.unit w.idx || wbit mask (d.rd F.SYNC_HOME_DATA_block w.unit w.idx))
  | .VM_DESC => held (d.dsc w.unit (w.idx / 27)) && held (after.dsc w.unit (w.idx / 27))
  | .SYNC_CRZ_DATA => wbit mask (w.idx / 64)
  | _ => false

/-- Indices of a register array of a die that the store lists. -/
def Dev.listed (d : Dev) (r : Reg) (u : Nat) : List Nat :=
  (d.regs.filter fun e => e.1 / 2097152 == r.ctorIdx * 32 + u).map fun e => e.1 % 2097152

/-- Clears the instances of a register array of both dies that `pick` names. -/
def Dev.clearArray (d : Dev) (r : Reg) (pick : Nat → Nat → Bool) : Dev :=
  d.each [0, 1] fun d u => d.each ((d.listed r u).filter (pick u)) fun d i => d.wrw r u i 0

/-- Removes the masked blocks' content of one section type. -/
def Dev.clearSection (d : Dev) (mask : Word) (sec : Nat) : Dev :=
  match sec with
  | 1 =>
    let bars := fun u => (d.listed .SYNC_BAR_CFG u).filter fun i => wbit mask (d.rd F.SYNC_BAR_CFG_block u i)
    let d := (d.clearArray .FWD_BLK_CFG fun _ b => wbit mask b).clearArray .SYNC_BLK_CFG fun _ b => wbit mask b
    d.each [0, 1] fun d u => d.each (bars u) fun d i =>
      ((d.wrw .SYNC_BAR_CFG u i 0).wrw .SYNC_BAR_TGT u i 0).resetBarrier u i
  | 4 => { d with fw := { d.fw with logical := d.fw.logical.filter fun e => !(e.2.kind == 0 && e.2.inMask mask) } }
  | 5 =>
    let gone := (d.fw.backing.filter fun e => e.2.inMask mask).map Prod.fst
    { d with fw := { d.fw with backing := d.fw.backing.filter fun e => !e.2.inMask mask,
                               written := d.fw.written.filter fun p => !gone.contains p } }
  | 6 => d.clearArray .VM_MC fun u i => match d.mcBlock u (i / 19) with
    | some b => wbit mask b
    | none => false
  | 8 =>
    let e := d.clearArray .SYNC_HOME_DATA fun u i => wbit mask (d.rd F.SYNC_HOME_DATA_block u i)
    e.clearArray .VM_DESC fun u i => (d.dsc u (i / 27)).valid && wbit mask (d.dsc u (i / 27)).block
  | 9 => d.clearArray .SYNC_CRZ_DATA fun _ i => wbit mask (i / 64)
  | _ => d

/-- Flushes the learned, cached and absent entries of the masked blocks. -/
def Dev.flushMask (d : Dev) (mask : Word) : Dev :=
  { d with fw := { d.fw with logical := d.fw.logical.filter fun e => e.2.kind == 0 || !e.2.inMask mask } }

/-- Applies a region image (R356); none where it holds anything that it may not hold or breaks a rule.
(DEDUCED, log 113) -/
def Dev.applyRegion (d : Dev) (img : Image) : Option Dev :=
  let m := img.mask
  let has := img.types.contains
  if img.kind != 2 || !img.dirOk || !(img.words.all fun w => secHolds w.sec w.reg) || !(img.logical.all fun e => e.2.inMask m) || !(img.backing.all fun e => e.inMask m) then none
  else
    let e := d.each img.types fun d s => d.clearSection m s
    let e := if has 4 || has 5 then e.flushMask m else e
    let e := (e.each img.words Dev.loadImgWord).eachOpt img.loads Dev.loadReg
    let e := (e.bind fun e => e.eachOpt img.logical fun e x => e.placeLog x.1 x.2).bind fun e =>
      e.eachOpt img.backing Dev.placeBack
    e.bind fun e =>
      if (img.loads.all fun l => d.regionLoadOk e m l) && (img.words.all fun w => d.regionWordOk e m w) &&
        ((descsOf img.words).all fun x => !(e.dsc x.1 x.2).bad) then some e else none

end Sys2Proof.Machine
end

