-- ==== Sys2Proof/Machine/Signatures.lean ====
section
/-! DEFINITION. The two signature schemes of Table 15.2 and Table 15.4: RSASSA-PSS (RFC 8017) with a 3072-bit modulus, and
SLH-DSA-SHA2-192s (FIPS 205), pure mode with an empty context. The manual names them; their algorithms are those standards'.
(PRESUMED, log 198) -/

namespace Sys2Proof.Machine

-- RSASSA-PSS (RFC 8017, 8.1 and 9.1) --------------------------------------------------------------------------------------------

/-- `x` to the power `e`, modulo `n`; `e` below 2^k. -/
def powMod (n : Nat) : Nat → Nat → Nat → Nat
  | 0, _, _ => 1 % n
  | k + 1, x, e => if e % 2 = 1 then x * powMod n k (x * x % n) (e / 2) % n else powMod n k (x * x % n) (e / 2)

/-- The public exponent of Table 15.2. -/
def rsaExponent : Nat := 65537

/-- Bytes xor bytes. -/
def xorBytes (a b : List Byte) : List Byte := List.zipWith (· ^^^ ·) a b

/-- The 335 bytes of mask that a hash value of 48 bytes spreads to. -/
def pssMask (h : List Byte) : List Byte := (mgf1 sha384 h 7).take 335

/-- The hash that an encoding carries of a message and a salt of 48 bytes. -/
def pssHash (msg salt : List Byte) : List Byte := sha384 (List.replicate 8 0#8 ++ sha384 msg ++ salt)

/-- The padding before the salt: 286 bytes of zero and a one. -/
def pssPad : List Byte := List.replicate 286 0#8 ++ [1#8]

/-- Clears the highest bit of a string of bytes: an encoding has 3,071 bits. -/
def clearTop (bs : List Byte) : List Byte := bs.modify 0 (· &&& 0x7F)

/-- EMSA-PSS encoding, 384 bytes. -/
def pssEncode (msg salt : List Byte) : List Byte :=
  let h := pssHash msg salt
  clearTop (xorBytes (pssPad ++ salt) (pssMask h)) ++ h ++ [0xBC#8]

/-- EMSA-PSS verification of an encoding. -/
def pssOk (msg em : List Byte) : Bool :=
  let masked := em.take 335
  let h := (em.drop 335).take 48
  let db := clearTop (xorBytes masked (pssMask h))
  em.drop 383 == [0xBC#8] && clearTop masked == masked && db.take 287 == pssPad && pssHash msg (db.drop 287) == h

/-- Whether a signature verifies under a 3072-bit modulus. (PRESUMED, log 198) -/
def rsaVerify (n : Nat) (msg sig : List Byte) : Bool :=
  n.log2 == 3071 && decide (beNat sig < n) && pssOk msg (beBytes 384 (powMod n 17 (beNat sig) rsaExponent))

/-- The signature of a message under modulus `n` and private exponent `d`. -/
def rsaSign (n d : Nat) (msg salt : List Byte) : List Byte := beBytes 384 (powMod n 3072 (beNat (pssEncode msg salt)) d)

-- Trees of hashes (FIPS 205, 6.1 and 8.2) ---------------------------------------------------------------------------------------

/-- Node `i` at a height of the tree over `leaf`; `h` joins two nodes below a height and an index. -/
def treeNode (leaf : Nat → List Byte) (h : Nat → Nat → List Byte → List Byte) : Nat → Nat → List Byte
  | 0, i => leaf i
  | z + 1, i => h (z + 1) i (treeNode leaf h z (2 * i) ++ treeNode leaf h z (2 * i + 1))

/-- The node beside node `i`. -/
def sibling (i : Nat) : Nat := if i % 2 = 0 then i + 1 else i - 1

/-- The authentication path of a leaf: the node beside the path at each height from 0. -/
def authPath (leaf : Nat → List Byte) (h : Nat → Nat → List Byte → List Byte) (height i : Nat) : List (List Byte) :=
  (List.range height).map fun z => treeNode leaf h z (sibling (i / 2 ^ z))

/-- The node that a path leads to from node `i` at height `z`. -/
def climb (h : Nat → Nat → List Byte → List Byte) : List (List Byte) → Nat → Nat → List Byte → List Byte
  | [], _, _, x => x
  | p :: ps, z, i, x => climb h ps (z + 1) (i / 2) (h (z + 1) (i / 2) (if i % 2 = 0 then x ++ p else p ++ x))

-- SLH-DSA-SHA2-192s: n 24, h 63, d 7, h' 9, a 14, k 17, w 16 --------------------------------------------------------------------

/-- A compressed address (FIPS 205, 11.2): layer, tree, type, key pair, chain or height, hash or index. -/
def slhAddr (layer tree type pair x y : Nat) : List Byte :=
  beBytes 1 layer ++ beBytes 8 tree ++ beBytes 1 type ++ beBytes 4 pair ++ beBytes 4 x ++ beBytes 4 y

/-- F and PRF (FIPS 205, 11.2.2). -/
def slhF (seed addr m : List Byte) : List Byte := (sha256 (seed ++ List.replicate 40 0#8 ++ addr ++ m)).take 24

/-- H and T (FIPS 205, 11.2.2). -/
def slhT (seed addr m : List Byte) : List Byte := (sha512 (seed ++ List.replicate 104 0#8 ++ addr ++ m)).take 24

/-- A private key: the secret seed, the key of the randomizer, the public seed. -/
structure SlhKey where
  secret : List Byte
  prf : List Byte
  seed : List Byte
  deriving DecidableEq, Repr

/-- `n` steps of a chain from place `i`. -/
def wotsChain (seed : List Byte) (layer tree pair chain : Nat) : Nat → Nat → List Byte → List Byte
  | 0, _, x => x
  | n + 1, i, x => wotsChain seed layer tree pair chain n (i + 1) (slhF seed (slhAddr layer tree 0 pair chain i) x)

/-- The 51 digits of a message of 24 bytes: its own and those of their checksum. -/
def wotsDigits (m : List Byte) : List Nat :=
  let ds := m.flatMap fun b => [b.toNat / 16, b.toNat % 16]
  let sum := (ds.map fun x => 15 - x).sum
  ds ++ [sum / 256 % 16, sum / 16 % 16, sum % 16]

/-- The start of a chain. -/
def SlhKey.chainSecret (k : SlhKey) (layer tree pair chain : Nat) : List Byte :=
  slhF k.seed (slhAddr layer tree 5 pair chain 0) k.secret

/-- A one-time public key from the ends of its chains. -/
def wotsPublic (seed : List Byte) (layer tree pair : Nat) (ends : List (List Byte)) : List Byte :=
  slhT seed (slhAddr layer tree 1 pair 0 0) ends.flatten

/-- A one-time public key: leaf `pair` of a tree. -/
def SlhKey.wotsLeaf (k : SlhKey) (layer tree pair : Nat) : List Byte :=
  wotsPublic k.seed layer tree pair ((List.range 51).map fun c =>
    wotsChain k.seed layer tree pair c 15 0 (k.chainSecret layer tree pair c))

/-- A one-time signature. -/
def SlhKey.wotsSign (k : SlhKey) (layer tree pair : Nat) (m : List Byte) : List (List Byte) :=
  (List.range 51).map fun c =>
    wotsChain k.seed layer tree pair c ((wotsDigits m).getD c 0) 0 (k.chainSecret layer tree pair c)

/-- The one-time public key that a signature of a message leads to. -/
def wotsFrom (seed : List Byte) (layer tree pair : Nat) (sig : List (List Byte)) (m : List Byte) : List Byte :=
  wotsPublic seed layer tree pair ((List.range 51).map fun c =>
    let x := (wotsDigits m).getD c 0
    wotsChain seed layer tree pair c (15 - x) x (sig.getD c []))

/-- How the trees of one-time keys join nodes. -/
def keyJoin (seed : List Byte) (layer tree : Nat) (z i : Nat) (m : List Byte) : List Byte :=
  slhT seed (slhAddr layer tree 2 0 z i) m

/-- The root of a tree of one-time keys. -/
def SlhKey.root (k : SlhKey) (layer tree : Nat) : List Byte :=
  treeNode (k.wotsLeaf layer tree) (keyJoin k.seed layer tree) 9 0

/-- The signature of a message by a leaf, then by the roots above: `n` layers. -/
def SlhKey.treesSign (k : SlhKey) : Nat → Nat → Nat → Nat → List Byte → List (List Byte)
  | 0, _, _, _, _ => []
  | n + 1, layer, tree, leaf, m =>
    k.wotsSign layer tree leaf m ++ authPath (k.wotsLeaf layer tree) (keyJoin k.seed layer tree) 9 leaf ++
      k.treesSign n (layer + 1) (tree / 512) (tree % 512) (k.root layer tree)

/-- The root that such a signature leads to. -/
def treesRoot (seed : List Byte) : Nat → Nat → Nat → Nat → List (List Byte) → List Byte → List Byte
  | 0, _, _, _, _, m => m
  | n + 1, layer, tree, leaf, sig, m =>
    let node := climb (keyJoin seed layer tree) ((sig.drop 51).take 9) 0 leaf (wotsFrom seed layer tree leaf (sig.take 51) m)
    treesRoot seed n (layer + 1) (tree / 512) (tree % 512) (sig.drop 60) node

/-- What a message's digest of 39 bytes selects: the 17 leaves of the small trees, the tree and the leaf that sign them. -/
def slhLeaves (digest : List Byte) : List Nat :=
  (List.range 17).map fun i => i * 2 ^ 14 + beNat (digest.take 30) / 2 ^ (240 - 14 * (i + 1)) % 2 ^ 14
def slhTree (digest : List Byte) : Nat := beNat ((digest.drop 30).take 7) % 2 ^ 54
def slhLeaf (digest : List Byte) : Nat := beNat ((digest.drop 37).take 2) % 2 ^ 9

/-- A secret of the small trees, its leaf, and how they join nodes. -/
def SlhKey.forsSecret (k : SlhKey) (tree pair i : Nat) : List Byte := slhF k.seed (slhAddr 0 tree 6 pair 0 i) k.secret
def forsLeaf (seed : List Byte) (tree pair i : Nat) (secret : List Byte) : List Byte := slhF seed (slhAddr 0 tree 3 pair 0 i) secret
def forsJoin (seed : List Byte) (tree pair : Nat) (z i : Nat) (m : List Byte) : List Byte :=
  slhT seed (slhAddr 0 tree 3 pair z i) m

/-- Node `i` of the small trees at a height. -/
def SlhKey.forsNode (k : SlhKey) (tree pair : Nat) : Nat → Nat → List Byte :=
  treeNode (fun i => forsLeaf k.seed tree pair i (k.forsSecret tree pair i)) (forsJoin k.seed tree pair)

/-- The public key of the small trees from their roots. -/
def forsPublic (seed : List Byte) (tree pair : Nat) (roots : List (List Byte)) : List Byte :=
  slhT seed (slhAddr 0 tree 4 pair 0 0) roots.flatten

/-- The signature by the small trees: for each leaf its secret and its path. -/
def SlhKey.forsSign (k : SlhKey) (tree pair : Nat) (leaves : List Nat) : List (List Byte) :=
  leaves.flatMap fun i => k.forsSecret tree pair i ::
    authPath (fun i => forsLeaf k.seed tree pair i (k.forsSecret tree pair i)) (forsJoin k.seed tree pair) 14 i

/-- The roots that such a signature leads to. -/
def forsRoots (seed : List Byte) (tree pair : Nat) : List Nat → List (List Byte) → List (List Byte)
  | [], _ => []
  | i :: is, sig =>
    climb (forsJoin seed tree pair) ((sig.drop 1).take 14) 0 i (forsLeaf seed tree pair i (sig.getD 0 [])) ::
      forsRoots seed tree pair is (sig.drop 15)

/-- The public key: the public seed and the root of the uppermost tree. -/
def SlhKey.pub (k : SlhKey) : List Byte := k.seed ++ k.root 6 0

/-- The digest of 39 bytes that selects the leaves (H_msg). -/
def slhDigest (r pub m : List Byte) : List Byte := (mgf1 sha512 (r ++ pub.take 24 ++ sha512 (r ++ pub ++ m)) 1).take 39

/-- A message in pure mode with an empty context. -/
def slhPure (msg : List Byte) : List Byte := [0#8, 0#8] ++ msg

/-- The elements of a signature, 24 bytes each: the randomizer, the small trees, the seven layers. -/
def SlhKey.elements (k : SlhKey) (rand msg : List Byte) : List (List Byte) :=
  let r := (hmacOf sha512 k.prf (rand ++ slhPure msg)).take 24
  let digest := slhDigest r k.pub (slhPure msg)
  let tree := slhTree digest
  let pair := slhLeaf digest
  let leaves := slhLeaves digest
  r :: (k.forsSign tree pair leaves ++
    k.treesSign 7 0 tree pair (forsPublic k.seed tree pair (leaves.map fun i => k.forsNode tree pair 14 (i / 2 ^ 14))))

/-- The signature of a message; `rand` 24 bytes of randomness (FIPS 205, algorithm 22). -/
def SlhKey.sign (k : SlhKey) (rand msg : List Byte) : List Byte := (k.elements rand msg).flatten

/-- A signature cut into elements of 24 bytes. -/
def slhCut (sig : List Byte) : List (List Byte) := (List.range 676).map fun i => (sig.drop (24 * i)).take 24

/-- Whether a signature verifies under a public key of 48 bytes (FIPS 205, algorithm 24). -/
def slhVerify (pub msg sig : List Byte) : Bool :=
  let el := slhCut sig
  let seed := pub.take 24
  let digest := slhDigest (el.getD 0 []) pub (slhPure msg)
  let tree := slhTree digest
  let pair := slhLeaf digest
  let fors := forsPublic seed tree pair (forsRoots seed tree pair (slhLeaves digest) (el.drop 1))
  sig.length == 16224 && pub.length == 48 && treesRoot seed 7 0 tree pair (el.drop 256) fors == pub.drop 24

end Sys2Proof.Machine
end

