-- ==== Sys2Proof/Machine/Stage.lean ====
section
/-! DEFINITION. Stage control over the peer sideband (R359 to R364): election, status, cartridges. -/

namespace Sys2Proof.Machine

/-- Whether the device has a stage-role group and its hub runs. -/
def Dev.inStage (d : Dev) : Bool := d.hubRuns && d.cfg.active && d.cfg.groups.any fun e => e.2.stage

/-- Position of the device. -/
def Dev.stagePos (d : Dev) : Nat := d.cfg.stage.pos

/-- Role: 0 none, 1 follower, 2 controller, 3 claiming. -/
def Dev.role (d : Dev) : Nat := d.rd F.MGT_STAGE_STAT_role 0 0

/-- Sets the role. -/
def Dev.setRole (d : Dev) (v : Nat) : Dev := d.wr F.MGT_STAGE_STAT_role 0 0 v

/-- Shows a controller and its epoch. -/
def Dev.setController (d : Dev) (pos epoch : Nat) : Dev :=
  (d.wr F.MGT_STAGE_STAT_controller 0 0 pos).wr F.MGT_STAGE_STAT_epoch 0 0 epoch

/-- Detail of an MGT error: position and site or link (Table 14.13). -/
def mgtDetail (pos site : Nat) : Word := wmk [(7, 4, pos), (3, 0, site)]

/-- Whether an election key is higher than another (R360): epoch, then priority, then 15 less the position.
(DEDUCED, log 142) -/
def keyAbove (a b : Nat × Nat × Nat) : Bool :=
  decide (b.1 < a.1) || (a.1 == b.1 && (decide (b.2.1 < a.2.1) || (a.2.1 == b.2.1 && decide (b.2.2 < a.2.2))))

-- Messages (R359) ---------------------------------------------------------------------------------------------------------------

/-- Kind of a sideband message, as the relay recognises it. -/
def StageBody.kind : StageBody → Nat
  | .claim .. => 0
  | .beacon .. => 1
  | .status _ => 2
  | .enable .. => 3
  | .result .. => 4

/-- Sideband links that lead to a peer. -/
def Dev.sideLinks (d : Dev) : List Nat := List.range (Nat.min 6 d.cfg.stage.links.length)

/-- Remembers a message among the last 64. -/
def Dev.noteMsg (d : Dev) (m : StageMsg) : Dev :=
  { d with st := { d.st with seen := ((m.origin, m.body.kind, m.seq) :: d.st.seen).take 64 } }

/-- Floods a message of this device on every link. -/
def Dev.flood (d : Dev) (body : StageBody) : Dev :=
  let m : StageMsg := ⟨d.stagePos, d.st.nextSeq, body⟩
  let d := ({ d with st := { d.st with nextSeq := d.st.nextSeq + 1 } } : Dev).noteMsg m
  d.each d.sideLinks fun d l => d.emit (.side l m)

/-- Whether a message has been seen before. -/
def Dev.msgSeen (d : Dev) (m : StageMsg) : Bool := d.st.seen.contains (m.origin, m.body.kind, m.seq)

/-- Relays a message not seen before to the links other than the one it came from. -/
def Dev.relay (d : Dev) (link : Nat) (m : StageMsg) : Dev :=
  (d.noteMsg m).each (d.sideLinks.filter (· != link)) fun d l => d.emit (.side l m)

-- Election (R360) ---------------------------------------------------------------------------------------------------------------

/-- Raises the record of a controller change (Table 14.6 code 13). -/
def Dev.controllerEvent (d : Dev) : Dev := d.event .MGT 0 13 (d.rdw .MGT_STAGE_STAT 0 0) 0

/-- Claims the stage with the next epoch; a device of priority 0 never does. -/
def Dev.stageClaim (d : Dev) : Dev :=
  let p := d.cfg.stage.prio
  if p = 0 then d
  else
    let e := d.st.epochSeen + 1
    let d := { d with st := { d.st with epochSeen := e, key := (e, p, 15 - d.stagePos) } }
    (d.setRole 3).flood (.claim e p)

/-- Joins the stage as the image becomes active: follower, then a claim. -/
def Dev.stageJoin (d : Dev) : Dev :=
  if !d.inStage then d
  else
    let d := { d with st := { d.st with key := (0, d.cfg.stage.prio, 15 - d.stagePos) } }
    ((d.setRole 1).wr F.MGT_STAGE_STAT_peers 0 0 (2 ^ d.stagePos)).stageClaim

/-- A claim or beacon is taken in: the highest epoch is kept, and a higher key makes the device a follower of its origin. -/
def Dev.yieldTo (d : Dev) (origin epoch prio : Nat) (beacon : Bool) : Dev :=
  let d := { d with st := { d.st with epochSeen := Nat.max d.st.epochSeen epoch } }
  if !keyAbove (epoch, prio, 15 - origin) d.st.key then d
  else
    let was := d.role
    let old := d.rd F.MGT_STAGE_STAT_controller 0 0
    let d := (d.setRole 1).setController origin epoch
    if was = 2 then (if beacon then d.logErr .MGT 0 4 (mgtDetail origin 0) else d).controllerEvent
    else if beacon && old ≠ origin then d.controllerEvent
    else d

/-- STAGE_CLAIM_RECEIVE and STAGE_BEACON_RECEIVE (R359, R360), from the sideband link it arrives on. -/
def Dev.electionReceive (d : Dev) (link origin seq epoch prio : Nat) (beacon : Bool) : Dev :=
  let m : StageMsg := ⟨origin, seq, if beacon then .beacon epoch prio else .claim epoch prio⟩
  if !d.inStage || origin = d.stagePos || d.msgSeen m then d else (d.relay link m).yieldTo origin epoch prio beacon

/-- STAGE_CLAIM_RECEIVE. -/
def Dev.claimReceive (d : Dev) (link origin seq epoch prio : Nat) : Dev := d.electionReceive link origin seq epoch prio false

/-- STAGE_BEACON_RECEIVE. -/
def Dev.beaconReceive (d : Dev) (link origin seq epoch prio : Nat) : Dev := d.electionReceive link origin seq epoch prio true

/-- STAGE_BEACON_TIMEOUT (R360): no beacon for 30 ms. A controller hears none of its own. -/
def Dev.beaconTimeout (d : Dev) : Dev := if !d.inStage || d.role = 2 then d else d.stageClaim

/-- STAGE_CLAIM_WON (R360): 20 ms in claiming without a higher key. -/
def Dev.claimWon (d : Dev) : Dev :=
  if !d.inStage || d.role ≠ 3 then d
  else ((d.setRole 2).setController d.stagePos d.st.key.1).controllerEvent

/-- STAGE_BEACON_SEND (R360): every 10 ms while controller. -/
def Dev.beaconSend (d : Dev) : Dev :=
  if !d.inStage || d.role ≠ 2 then d else d.flood (.beacon d.st.key.1 d.st.key.2.1)

-- Status (R364) -----------------------------------------------------------------------------------------------------------------

/-- Presence, enable and state of the device's eight sites. -/
def Dev.siteStats (d : Dev) : List SiteStat :=
  (List.range 8).map fun c => ⟨d.on F.MGT_CART_STAT_present 0 c, d.on F.MGT_CART_STAT_enable 0 c, d.rd F.MGT_CART_STAT_state 0 c⟩

/-- STAGE_STATUS_SEND (R364): every 10 ms. -/
def Dev.statusSend (d : Dev) : Dev :=
  if !d.inStage then d
  else d.flood (.status ⟨d.rd F.HUB_ID_serial 0 0, d.cfg.stage.digest, d.rdw .HUB_THERM_STAT 0 0, d.on F.HUB_BOOT_STAT_ready 0 0,
    d.siteStats⟩)

/-- Whether some part is in throttle or tripped in a HUB_THERM_STAT. -/
def throttles (w : Word) : Bool := (List.range 18).any fun i => decide (2 ≤ fget w (2 * i + 1) (2 * i))

/-- The record of a peer lost, found or mismatched (Table 14.6 code 14). -/
def Dev.peerEvent (d : Dev) (pos what serial : Nat) : Dev :=
  d.event .MGT 0 14 (wmk [(63, 60, pos), (59, 58, what)]) (wmk [(47, 0, serial)])

/-- What the controller does with a peer's status; `old` is the peer's last. -/
def Dev.judgePeer (d : Dev) (pos : Nat) (old : Option StageStat) (s : StageStat) : Dev :=
  if d.role ≠ 2 then d
  else
    let d := if old.isNone then d.peerEvent pos 1 s.serial else d
    let differs := s.digest != d.cfg.stage.digest
    let d := if differs && !d.st.mismatched.contains pos then
        (({ d with st := { d.st with mismatched := d.st.mismatched ++ [pos] } } : Dev).logErr .MGT 0 8 (mgtDetail pos 0)).peerEvent
          pos 2 s.serial
      else if differs then d
      else { d with st := { d.st with mismatched := d.st.mismatched.filter (· != pos) } }
    let was := match old with
      | some o => throttles o.therm
      | none => false
    if throttles s.therm && !was then d.hubEvent 8 s.therm 0 else d

/-- STAGE_STATUS_RECEIVE (R359, R364). -/
def Dev.statusReceive (d : Dev) (link origin seq : Nat) (s : StageStat) : Dev :=
  let m : StageMsg := ⟨origin, seq, .status s⟩
  if !d.inStage || origin = d.stagePos || d.msgSeen m then d
  else
    let d := d.relay link m
    let old := smFind d.st.peers origin
    let waits := fun k => match s.sites[k % 8]? with
      | some x => x.state == 1 && x.present
      | none => false
    let d := { d with st := { d.st with
      peers := smInsert d.st.peers origin s, started := d.st.started.filter fun k => k / 8 != origin || waits k } }
    let bits := BitVec.ofNat 64 (d.rd F.MGT_STAGE_STAT_peers 0 0)
    (d.wr F.MGT_STAGE_STAT_peers 0 0 (wset bits origin true).toNat).judgePeer origin old s

/-- STAGE_PEER_LOST (R364): a peer has been silent for 30 ms. -/
def Dev.peerSilent (d : Dev) (pos : Nat) : Dev :=
  match smFind d.st.peers pos with
  | none => d
  | some s =>
    if !d.inStage then d
    else
      let d := { d with st := { d.st with peers := smErase d.st.peers pos, mismatched := d.st.mismatched.filter (· != pos) } }
      let bits := BitVec.ofNat 64 (d.rd F.MGT_STAGE_STAT_peers 0 0)
      let d := d.wr F.MGT_STAGE_STAT_peers 0 0 (wset bits pos false).toNat
      if d.role = 2 then d.peerEvent pos 0 s.serial else d

/-- SIDEBAND_SILENT (R359): a link has carried no valid message for 30 ms. -/
def Dev.sideSilent (d : Dev) (link : Nat) : Dev := if d.inStage then d.logErr .MGT 0 9 (mgtDetail 0 link) else d

-- Cartridges (R361 to R364) -----------------------------------------------------------------------------------------------------

/-- Section 12 of a site in use. -/
def Dev.siteCfg (d : Dev) (pos site : Nat) : Option SiteCfg := smFind d.cfg.stage.sites (pos * 8 + site)

/-- The record of a cartridge (Table 14.6 code 12). -/
def Dev.cartEvent (d : Dev) (pos site state : Nat) (stat : Word) : Dev :=
  d.event .MGT 0 12 (wmk [(63, 60, pos), (59, 57, site), (56, 54, state)]) stat

/-- Holds or releases the ports of the device's own site (R362, R363). -/
def Dev.holdSite (d : Dev) (site : Nat) (hold : Bool) : Dev :=
  match d.siteCfg d.stagePos site with
  | none => d
  | some c => d.each (c.ports.filter d.isPort) fun d p => (d.pwr F.LANE_PORT_CTRL_hold p (b2n hold)).portHold p

/-- Whether the site of the device itself is in use and holds a cartridge that waits for its power (Table 14.11 step 1). -/
def Dev.ownWaits (d : Dev) (site : Nat) : Bool :=
  (d.siteCfg d.stagePos site).isSome && d.rd F.MGT_CART_STAT_state 0 site == 1

/-- Ports of a core die at own sites that are not in service stay held when the die starts anew (R362). -/
def Dev.holdUnreleased (d : Dev) (die : Nat) : Dev :=
  d.each ((List.range 8).filter fun c => d.rd F.MGT_CART_STAT_state 0 c ≠ 3) fun d c => match d.siteCfg d.stagePos c with
    | none => d
    | some s => d.each (s.ports.filter fun p => laneDie p == die && d.isPort p) fun d p =>
      (d.pwr F.LANE_PORT_CTRL_hold p 1).portHold p

/-- At activation the ports of every own site are held and every enable is low; a cartridge at a site in use waits (R362, R363). -/
def Dev.holdSites (d : Dev) : Dev :=
  d.each (List.range 8) fun d c =>
    let d := d.holdSite c true
    if d.on F.MGT_CART_STAT_present 0 c && (d.siteCfg d.stagePos c).isSome && !d.on F.MGT_CART_STAT_enable 0 c
    then d.wr F.MGT_CART_STAT_state 0 c 1 else d

/-- Whether the controller manages a peer's cartridges: the peer is heard, and its section 12 is this device's (R364). -/
def Dev.manages (d : Dev) (pos : Nat) : Bool :=
  match smFind d.st.peers pos with
  | some s => s.digest == d.cfg.stage.digest
  | none => false

/-- A peer's site as its last status shows it. -/
def Dev.peerSite (d : Dev) (pos site : Nat) : SiteStat :=
  match smFind d.st.peers pos with
  | some s => s.sites.getD site ⟨false, false, 0⟩
  | none => ⟨false, false, 0⟩

/-- Whether a site of a peer that the controller manages waits for its power, as the peer's status says. -/
def Dev.peerWaits (d : Dev) (pos site : Nat) : Bool :=
  let x := d.peerSite pos site
  d.manages pos && x.present && !x.enable && x.state == 1 && !d.st.started.contains (pos * 8 + site)

/-- The site that the controller starts next: the lowest position and site that waits (R362). -/
def Dev.nextSite (d : Dev) : Option Nat :=
  ((List.range 128).filter fun k => (d.siteCfg (k / 8) (k % 8)).isSome).find? fun k =>
    if k / 8 = d.stagePos then d.ownWaits (k % 8) else d.peerWaits (k / 8) (k % 8)

/-- An own site's presence input is high: it shows, and a site in use waits for the controller. -/
def Dev.cartPresent (d : Dev) (site : Nat) : Dev :=
  if d.on F.MGT_CART_STAT_present 0 site then d
  else
    let d := d.wr F.MGT_CART_STAT_present 0 site 1
    if d.inStage && (d.siteCfg d.stagePos site).isSome then d.wr F.MGT_CART_STAT_state 0 site 1 else d

/-- An own site's power enable goes high. -/
def Dev.cartPower (d : Dev) (site : Nat) : Dev :=
  let d := { d with st := { d.st with ident := smErase d.st.ident site, dynamic := d.st.dynamic.filter (· != site) } }
  (d.wr F.MGT_CART_STAT_enable 0 site 1).wr F.MGT_CART_STAT_state 0 site 2

/-- CARTRIDGE_BRING_UP (R362 step 1). At a site of the device itself the presence input is high; one that shows already is powered:
by a controller as its turn comes, by a follower as the controller commands. A controller commands the enable of a peer's site in
its turn. Turns go by position and site, at least 50 ms (7,812,500 ticks) apart. (DESIGN CHOICE, log 143) -/
def Dev.cartBringUp (d : Dev) (pos site : Nat) : Dev :=
  let own := decide (pos = d.stagePos)
  let late := match d.st.lastStart with
    | some t => decide (t + 7812500 ≤ d.tick)
    | none => true
  let turn := d.inStage && d.role == 2 && late && d.nextSite == some (pos * 8 + site)
  let mark := fun (d : Dev) => { d with st := { d.st with lastStart := some d.tick } }
  if !d.hubRuns then d
  else if own && !d.on F.MGT_CART_STAT_present 0 site then d.cartPresent site
  else if own then
    if turn then mark (d.cartPower site)
    else if d.inStage && d.role == 1 && d.ownWaits site then d.cartPower site
    else d
  else if turn then
    mark (({ d with st := { d.st with started := d.st.started ++ [pos * 8 + site] } } : Dev).flood (.enable pos site true))
  else d

/-- Whether an identity record's CRC-32C holds (Table 14.10). -/
def identCrc (bs : List Byte) : Bool := bs.length == 128 && crc32c (bs.take 124) == leNat (bs.drop 124)

/-- The part code and the insertion loss in 0.01 dB of an identity record. -/
def identPart (bs : List Byte) : Nat := beNat ((bs.drop 2).take 2)
def identLoss (bs : List Byte) : Nat := beNat ((bs.drop 14).take 2)

/-- The loss field of MGT_CART_STAT for an identity record, in 0.2 dB, saturating. -/
def Dev.lossField (d : Dev) (bs : List Byte) : Dev × Nat :=
  let l := identLoss bs
  if l % 20 = 0 then (d, Nat.min 255 (l / 20))
  else (d.fresh.1, Nat.min 255 (l / 20 + b2n (Config.roundUp d.freeCtr)))

/-- CARTRIDGE_IDENTITY_READ (R361, R362 step 2): the owning device assigns the dynamic address and reads bytes 0 to 127. -/
def Dev.cartRead (d : Dev) (site : Nat) (bs : List Byte) : Dev :=
  if !d.inStage || d.rd F.MGT_CART_STAT_state 0 site ≠ 2 then d
  else
    let d := ((d.emit (.i3c site .rstdaa)).emit (.i3c site (.setdasa 0x50 0x08))).emit (.i3c site (.read 0x08 0 128))
    let dyn := d.st.dynamic.filter (· != site) ++ [site]
    let d := { d with st := { d.st with ident := smInsert d.st.ident site bs, dynamic := dyn } }
    let (d, loss) := d.lossField bs
    ((d.wr F.MGT_CART_STAT_valid 0 site (b2n (identCrc bs))).wr F.MGT_CART_STAT_part 0 site (identPart bs)).wr
      F.MGT_CART_STAT_loss 0 site loss

/-- A site without power has no dynamic address. -/
def Dev.cartDown (d : Dev) (site : Nat) : Dev := { d with st := { d.st with dynamic := d.st.dynamic.filter (· != site) } }

/-- The state that the check of an answer ends in: 3 in service, 4 refused, 5 no answer. -/
def checkState (c : SiteCfg) (answer : Option (List Byte)) : Nat :=
  match answer with
  | none => 5
  | some bs => if identCrc bs && identPart bs == c.part && decide (identLoss bs ≤ c.maxLoss) then 3 else 4

/-- The outcome of a check: error codes 5 and 6, and a record. -/
def Dev.cartOutcome (d : Dev) (pos site state : Nat) (stat : Word) : Dev :=
  let d := if state = 4 then d.logErr .MGT 0 5 (mgtDetail pos site)
    else if state = 5 then d.logErr .MGT 0 6 (mgtDetail pos site) else d
  d.cartEvent pos site state stat

/-- CARTRIDGE_CHECK (R362 steps 3 and 4). For a site of the device itself the record it read is checked, and a follower acts as the
controller then commands; `answer` is the record that the controller has of a peer's site, empty where none came. A site is checked
while its bring-up runs: its state, a peer's as its status shows it, is powering. The controller alone logs and reports the outcome. -/
def Dev.cartCheck (d : Dev) (pos site : Nat) (answer : List Byte) : Dev :=
  match d.siteCfg pos site with
  | none => d
  | some c =>
    if !d.inStage || d.role = 3 then d
    else if pos = d.stagePos then
      if d.rd F.MGT_CART_STAT_state 0 site ≠ 2 then d
      else
        let s := checkState c (smFind d.st.ident site)
        let d := d.wr F.MGT_CART_STAT_state 0 site s
        let d := if s = 3 then d.holdSite site false else (d.wr F.MGT_CART_STAT_enable 0 site 0).cartDown site
        if d.role = 2 then d.cartOutcome pos site s (d.rdw .MGT_CART_STAT 0 site) else d
    else if d.role = 2 && d.manages pos && (d.peerSite pos site).state = 2 then
      let s := checkState c (if answer.isEmpty then none else some answer)
      let d := if s = 3 then d else d.flood (.enable pos site false)
      let (d, loss) := d.lossField answer
      let stat := wmk [(63, 63, b2n (d.peerSite pos site).present), (62, 62, b2n (s == 3)), (61, 61, b2n (identCrc answer)), (60, 58, s),
        (39, 24, identPart answer), (23, 16, loss)]
      let d := { d with st := { d.st with checked := smInsert d.st.checked (pos * 8 + site) stat } }
      (d.flood (.result pos site s)).cartOutcome pos site s stat
    else d

/-- CARTRIDGE_REMOVAL (R363): the groups are held and the enable goes low. (DEDUCED, log 145) -/
def Dev.cartRemove (d : Dev) (site : Nat) : Dev :=
  if !d.hubRuns || !d.on F.MGT_CART_STAT_present 0 site then d
  else if !d.inStage then d.wrw .MGT_CART_STAT 0 site 0
  else
    let d := ({ d with st := { d.st with ident := smErase d.st.ident site } } : Dev).cartDown site
    ((d.wrw .MGT_CART_STAT 0 site 0).holdSite site true).cartEvent d.stagePos site 0 0

/-- CARTRIDGE_TEMPERATURE_POLL (R364): the controller reads a cartridge temperature, signed in 1/16 °C; one that reaches the
limit is reported. A peer's cartridge is read while the peer's status shows it powered and its section 12 agrees.
(DEDUCED, log 144; DESIGN CHOICE, log 197) -/
def Dev.cartPoll (d : Dev) (pos site temp : Nat) : Dev :=
  if !d.inStage || d.role ≠ 2 || (d.siteCfg pos site).isNone then d
  else
    let own := pos = d.stagePos
    let x := d.peerSite pos site
    if (own && !d.st.dynamic.contains site) || (!own && !(d.manages pos && x.present && x.enable)) then d
    else
      let d := if own then (d.emit (.i3c site (.read 0x08 0x80 2))).wr F.MGT_CART_STAT_temp 0 site temp else d
      let k := pos * 8 + site
      let tooHot := decide ((d.cfg.stage.limit : Int) ≤ s16 temp)
      if tooHot && !d.st.hot.contains k then
        let known := smGet d.st.checked k (Config.cartStat k)
        let stat := if own then d.rdw .MGT_CART_STAT 0 site
          else wmk [(63, 63, b2n x.present), (62, 62, b2n x.enable), (61, 61, fget known 61 61), (60, 58, x.state),
            (39, 24, fget known 39 24), (23, 16, fget known 23 16), (15, 0, temp)]
        ({ d with st := { d.st with hot := d.st.hot ++ [k] } } : Dev).cartEvent pos site (fget stat 60 58) stat
      else if tooHot then d
      else { d with st := { d.st with hot := d.st.hot.filter (· != k) } }

end Sys2Proof.Machine
end

