-- ==== Sys2Proof/Machine/Chip.lean ====
section
/-! DEFINITION. The whole module: device, fuses and flash (12, 14, 15), the device right after power-on, and what a reset
of a die leaves of it (R11). -/

namespace Sys2Proof.Machine

/-- The private halves of the identity keys, generated in the security engine (Table 15.1): the RSA modulus with its private exponent,
and the SLH-DSA key. -/
structure Identity where
  modulus : Nat
  exponent : Nat
  slh : SlhKey
  deriving DecidableEq, Repr

/-- Fuses and what the security engine keeps with them (Table 15.1, R296, R299, R305, R369, R373 to R375). `owner` are both owner digests, 96 bytes, once enrolled; `firmware`
and `calibration` the digests of Liasto's keys; `device` the device-unique key of 256 bits; `wires` the wires excluded at assembly by `die*32 + bundle`; `steppings` 1 for B0. -/
structure Fuses where
  serial : Nat
  mac : Nat
  steppings : Nat × Nat
  wires : SMap (List Nat)
  owner : Option (List Byte)
  firmware : List Byte
  calibration : List Byte
  rollback : Nat
  slot0Disabled : Bool
  debugLocked : Bool
  device : Nat
  identity : Identity
  deriving DecidableEq, Repr

/-- A firmware slot: the bytes of its file (R371). -/
structure FwSlot where
  file : List Byte
  deriving DecidableEq, Repr

/-- An image in flash: its content and the bytes of its file (R354). -/
structure ImgSlot where
  image : Image
  file : List Byte
  deriving DecidableEq, Repr

/-- The SHA-384 of an image's file (R357). -/
def ImgSlot.digest (s : ImgSlot) : List Byte := sha384 s.file

/-- An HMAC key in secure flash (Table 15.1): encrypted under the device-unique key `under`. The manual names no cipher, so the entry
holds the key and what it is encrypted under. (DESIGN CHOICE, log 199) -/
structure SealedKey where
  under : Nat
  key : List Byte
  deriving DecidableEq, Repr

/-- The management record (R334, R365, R402): MGT_NET_CFG and MGT_NET_GW of both networks, MGT_AUTH_CFG, the eight
MGT_EVT_DEST, HUB_GUARD. -/
structure MgmtRec where
  nets : List Word
  gws : List Word
  auth : Word
  dests : List Word
  guard : Word
  deriving DecidableEq, Repr

/-- Flash (R241, R334, R341, R353, R354, R371, Table 15.1). `cal` holds the calibration store by HUB_STRAP index, `keys` the
encrypted HMAC keys by slot, `certs` the identity certificates (0 RSA, 1 SLH-DSA). -/
structure Flash where
  fw : SMap FwSlot
  fwActive : Nat
  fwStaged : Bool
  img : SMap ImgSlot
  imgActive : Nat
  imgStaged : Bool
  log : List ImgSlot
  mgmt : Option MgmtRec
  boots : Nat
  cal : SMap CalSec
  keys : SMap SealedKey
  certs : SMap (List Byte)
  deriving DecidableEq, Repr

/-- An image that passed every check and waits for its activation, with its slot. -/
structure Pend where
  slot : Nat
  content : ImgSlot
  deriving DecidableEq, Repr

/-- The module. `pend` is the image that step 11 of Table 12.2 is to load. -/
structure Chip where
  fuses : Fuses
  flash : Flash
  dev : Dev
  pend : Option Pend
  deriving DecidableEq, Repr

/-- Applies a function to the device. -/
def Chip.on (c : Chip) (f : Dev → Dev) : Chip := { c with dev := f c.dev }

-- Power-on state ----------------------------------------------------------------------------------------------------------------

/-- No image. -/
def Cfg.none : Cfg :=
  { active := false, groups := [], ports := [], bundles := [], originHop := 16, allow := [], streams := 0,
    stage := { prio := 0, pos := 0, links := [], sites := [], tempLimit := Option.none, digest := [] }, digest := [] }

/-- Fabric time after power-on (R380): counters at 0, the nominal increment. -/
def TimeState.fresh : TimeState :=
  { hall := 0, copies := [], inc := 0x666666666, pendInc := none, pendAdj := 0, txSeq := [], txTimes := [], rx := [],
    caps := [], capNext := [], valid := [], good := 0, steps := [], freq := 0, streak := 0, dropped := [], epochK := [],
    lastBoundary := [], due := [], cntClear := [], cntEn := [], copyInc := none }

/-- The event store after power-on. -/
def EvState.fresh : EvState :=
  { seq := 0, history := [], waiting := [], held := [], lost := 0, lostErr := 0, ring := [], firstAt := [], lastCorr := [],
    flight := [], flightFlip := [], flightSeq := 0, heldFlights := [] }

/-- The switch core empty. -/
def SwState.fresh : SwState :=
  { cells := [], queue := [], tx := [], acks := [], holds := [], opens := [], mrecs := [], nextId := 0, rr := [],
    oldMap := [] }

/-- The traffic manager empty. -/
def TmState.fresh : TmState :=
  { meters := [], redAvg := [], peerDepth := [], lfsr := [], lfsrLoaded := [], reserve := [], bulkTokens := [],
    shapers := [], shaperDirty := [], deficit := [], drrClass := [], drrVoq := [], quanta := [], samples := [],
    satLatch := [] }

/-- The forwarding tables empty. -/
def FwdState.fresh : FwdState :=
  { routes := [], active := [], swapPend := [], logical := [], backing := [], miss := [], fetches := [],
    homeWait := [], cross := [], cmd := [], rebuild := [], lastChange := [], drainStart := [], written := [] }

/-- No chunks, counters or comparisons. -/
def SyncState.fresh : SyncState :=
  { recs := [], claimPtr := [], barVec := [], crzSeen := [], lichen := [], lichenDone := [], lichenOut := [], arrIn := [], descFlip := [] }

/-- No link up. -/
def LinkState.fresh : LinkState :=
  { partnerAdv := [], ownAdv := [], crTotal := [], crBase := [], tx := [], rx := [], train := [], hb := [], ctl := [],
    delivered := [], rxWl := [], coef := [], coefAck := [], preReq := [], inj := [], injCtr := [], txPre := [], rxPre := [], gen := [], chk := [],
    wave := [] }

/-- Engines not calibrated. -/
def OeState.fresh : OeState :=
  { feed := [], ref := [], txf := [], deep := [], minSet := [], carry := [], req := [], far := [], change := [], low := [],
    settling := [], rounds := [], run := [], cmd := [] }

/-- No circuit on the bias cells, no phase table loaded. -/
def BypState.fresh : BypState :=
  { rec_ := [], temp := [], inp := [], outp := [], op := [], read := [], noNew := [], todo := [], offs := [], phases := [],
    await := [] }

/-- No sideband heard. -/
def StageState.fresh : StageState :=
  { epochSeen := 0, key := (0, 0, 0), seen := [], nextSeq := 0, peers := [], mismatched := [], ident := [], checked := [],
    dynamic := [], hot := [], started := [], lastStart := none }

/-- No bundle trained. -/
def D2dState.fresh : D2dState := { rx := [], tx := [], fused := [], wires := [], bad := [], moved := [], cells := [], ctlDown := [] }

/-- PWRGOOD low, rails and clocks in place, a start to come. -/
def PwrState.fresh : PwrState :=
  { good := false, rails := [], clocks := [], restart := true, margin := [], atLo := [], lastStep := [], hot := [], tripped := [],
    window := [], began := 0, holdTicks := 0, entered := [], admits := [], railAt := none }

/-- No requester, no transfer. -/
def MgtState.fresh : MgtState :=
  { reqs := [], xfer := none, quiesced := 0 }

/-- No quote. -/
def SecState.fresh : SecState :=
  { quote := [], sigs := [], waiting := 0 }

/-- The device at power-on: every register at its reset value, every store empty, PWRGOOD low, the clocks and rails in
place. (DESIGN CHOICE, log 5; DESIGN CHOICE, log 151) -/
def Dev.fresh0 : Dev :=
  { regs := [], tick := 0, release := [], freeCtr := 0, out := [], cfg := Cfg.none, time := TimeState.fresh, ev := EvState.fresh,
    sw := SwState.fresh, tm := TmState.fresh, fw := FwdState.fresh, sy := SyncState.fresh, ln := LinkState.fresh,
    oe := OeState.fresh, by_ := BypState.fresh, d2 := D2dState.fresh, pw := PwrState.fresh,
    mg := MgtState.fresh, se := SecState.fresh, st := StageState.fresh, parserDrops := [] }

-- Register resets (R11) ---------------------------------------------------------------------------------------------------------

/-- The register number, unit and index of a key of the register store. -/
def keyReg (k : Nat) : Nat := k / 2097152 / 32
def keyUnit (k : Nat) : Nat := k / 2097152 % 32
def keyIdx (k : Nat) : Nat := k % 2097152

/-- RWS bits of a register number. -/
def rwsMask (r : Nat) : Word := smGet rwsTable r 0

/-- What a reset leaves of a register word: RWS fields stay. -/
def resetWord (r : Nat) (w : Word) : Word := (w &&& rwsMask r) ||| (smGet resetTable r 0 &&& ~~~rwsMask r)

/-- Resets the registers whose key `pick` names. -/
def resetRegs (m : RegFile) (pick : Nat → Bool) : RegFile :=
  m.filterMap fun e =>
    if pick e.1 then
      let w := resetWord (keyReg e.1) e.2
      if w = smGet resetTable (keyReg e.1) 0 then none else some (e.1, w)
    else some e

/-- Whether a register number lies in a block. -/
def Block.has (b : Block) (r : Nat) : Bool := decide (b.range.1 ≤ r) && decide (r < b.range.2)

/-- Blocks of a core die, the memories behind its data windows among them. -/
def coreBlock (r : Nat) : Bool := decide (270 ≤ r) || [Block.FWD, .SWC, .TM, .RED, .LANE, .D2D].any fun b => b.has r

/-- Registers of a core die, its counter sets among them. -/
def dieKey (die k : Nat) : Bool := keyUnit k == die && (coreBlock (keyReg k) || Block.CNT.has (keyReg k))

/-- Registers of the hub, its counter sets among them. -/
def hubKey (k : Nat) : Bool :=
  ([Block.HUB, .UCIE, .MGT, .SEC, .TIME, .MEM].any fun b => b.has (keyReg k)) || (keyUnit k == 2 && Block.CNT.has (keyReg k))

end Sys2Proof.Machine
end

