-- ==== Sys2Proof/Machine/Signed.lean ====
section
/-! DEFINITION. Signed files: the signature block and the order of its checks (R367, R368). -/

namespace Sys2Proof.Machine

/-- Bytes of Table 15.2. -/
def sigLength : Nat := 17152

/-- The signature block and the body of a file. -/
def sigBlock (file : List Byte) : List Byte := file.drop (file.length - sigLength)
def fileBody (file : List Byte) : List Byte := file.take (file.length - sigLength)

/-- Bytes `from_` to `to_` of a string. -/
def slice (bs : List Byte) (from_ to_ : Nat) : List Byte := (bs.drop from_).take (to_ + 1 - from_)

/-- The key set of a file type. -/
def keySetOf (kind : Nat) : Nat := if kind = 1 then 0 else if kind = 4 then 1 else 2

/-- The serial in a signature block, and the security version. -/
def sigSerial (b : List Byte) : Nat := beNat (slice b 8 13)
def sigVersion (b : List Byte) : Nat := beNat (slice b 6 6)

/-- Step 1 of R368: the block is well formed and of the file type's key set. -/
def blockOk (kind : Nat) (b : List Byte) : Bool :=
  b.length == sigLength && beNat (slice b 0 3) == 0x4C585347 && beNat (slice b 4 4) == 1 && beNat (slice b 5 5) == keySetOf kind &&
    (if kind = 1 then decide (sigVersion b ≤ 63) else sigVersion b == 0) && beNat (slice b 7 7) == 0 &&
    (kind == 4 || sigSerial b == 0) && (slice b 14 63).all fun x => x == 0

/-- The fused digests of a file type's keys, 96 bytes; none for the owner's before enrolment. -/
def Fuses.digests (f : Fuses) (kind : Nat) : Option (List Byte) :=
  if kind = 1 then some f.firmware else if kind = 4 then some f.calibration else f.owner

/-- Steps 1 to 3 of R368. -/
def Fuses.keyCheck (f : Fuses) (kind : Nat) (file : List Byte) : Bool :=
  let b := sigBlock file
  blockOk kind b && f.digests kind == some (sha384 (slice b 112 495) ++ sha384 (slice b 496 543)) &&
    sha384 (fileBody file) == slice b 64 111

/-- Where the checks of a file fail: steps 1 to 3 of R368, the RSA signature, the SLH-DSA signature. -/
structure SlotCheck where
  key : Bool
  rsa : Bool
  slh : Bool
  deriving DecidableEq, Repr

/-- The checks of R368 on a file. Both signatures are over the body digest, which they take as their message.
(DEDUCED, log 200) -/
def Fuses.check (f : Fuses) (kind : Nat) (file : List Byte) : SlotCheck :=
  let b := sigBlock file
  ⟨f.keyCheck kind file, rsaVerify (beNat (slice b 112 495)) (slice b 64 111) (slice b 544 927),
    slhVerify (slice b 496 543) (slice b 64 111) (slice b 928 17151)⟩

/-- Whether a file's checks all pass (R368). -/
def SlotCheck.ok (k : SlotCheck) : Bool := k.key && k.rsa && k.slh

/-- Detail of a SEC error: which checks failed (Table 15.6). The signatures are not looked at once step 1, 2 or 3 of R368 fails. -/
def SlotCheck.detail (k : SlotCheck) : Word :=
  if !k.key then wmk [(2, 2, 1)] else wmk [(1, 1, b2n !k.rsa), (0, 0, b2n !k.slh)]

/-- A slot's file as a start reads it. -/
def SlotRead.of (r : SlotRead) (file : List Byte) : List Byte := r.errors.foldl (fun bs e => bs.modify e.1 (· ^^^ e.2)) file

/-- The security version of a firmware slot and the digest of its body (Table 15.2). -/
def FwSlot.version (f : FwSlot) : Nat := sigVersion (sigBlock f.file)
def FwSlot.body (f : FwSlot) : List Byte := slice (sigBlock f.file) 64 111

end Sys2Proof.Machine
end

