-- ==== Sys2Proof/Machine/Package.lean ====
section
/-! DEFINITION. Start-up (Table 12.2, R295 to R308, R371, R372), resets of the package, the core dies, the hub, engines and
bypass dies (R309 to R316), fatal errors (R413, R414), supplies, clocks and trips (R328, R330, R439 to R443). -/

namespace Sys2Proof.Machine

-- Resets ------------------------------------------------------------------------------------------------------------------------

/-- Every die enters reset. RWS fields and the error ring stay unless VDD_AUX was lost (R11, R409); the bias cells hold
(R258). The start follows separately. -/
def Dev.resetAll (d : Dev) (powerOn : Bool) (cause : Nat) : Dev :=
  let ring := d.rdw .HUB_ERING_STAT 0 0
  let regs := if powerOn then [] else rset (resetRegs d.regs fun _ => true) .HUB_ERING_STAT 0 0 ring
  let ev := if powerOn then EvState.fresh else { EvState.fresh with ring := d.ev.ring }
  let by_ := { Dev.fresh0.by_ with rec_ := d.by_.rec_, temp := d.by_.temp }
  let pw := { Dev.fresh0.pw with good := d.pw.good, rails := d.pw.rails, clocks := d.pw.clocks, began := d.tick }
  -- attempts on the debug port still to be counted (R374)
  let se := { SecState.fresh with waiting := if powerOn then 0 else d.se.waiting }
  let e : Dev := { Dev.fresh0 with
    regs := regs, tick := d.tick, freeCtr := d.freeCtr, out := d.out, ev := ev, by_ := by_, pw := pw, se := se }
  e.wr F.HUB_BOOT_STAT_cause 0 0 cause

/-- A package reset (R11, R414): every die enters reset and the device waits for its start. -/
def Chip.packageReset (c : Chip) (powerOn : Bool) (cause : Nat) : Chip :=
  { c with dev := c.dev.resetAll powerOn cause, pend := none }

/-- Keeps the entries of a sparse table whose key passes. -/
def smKeep {α : Type} (m : SMap α) (p : Nat → Bool) : SMap α := m.filter fun e => p e.1

/-- The frames, cells and records of a core die are lost. -/
def Dev.wipeSwitch (d : Dev) (die : Nat) : Dev :=
  let s := d.sw
  let other := fun k => k / 1048576 != die
  let num := fun (k : Nat) => originDie (k / 1024) != die
  { d with sw := { s with
    cells := smKeep s.cells other, queue := s.queue.filter fun x => x.die != die,
    tx := s.tx.filter fun e => laneDie e.1 != die && e.2.desc.die != die,
    acks := s.acks.filter fun a => a.die != die, holds := s.holds.filter fun h => laneDie h.port != die,
    opens := s.opens.filter fun e => e.2.1 / 1048576 != die, mrecs := s.mrecs.filter fun e => e.2.die != die,
    rr := smKeep s.rr num, oldMap := smKeep s.oldMap num } }

/-- The traffic manager of a core die is empty. -/
def Dev.wipeTm (d : Dev) (die : Nat) : Dev :=
  let t := d.tm
  let group := fun k => k / 8 / 1024 != die
  let portOf := fun n k => laneDie (k / n) != die
  { d with tm := { t with
    meters := smKeep t.meters fun k => k / 4096 != die, redAvg := smKeep t.redAvg group, peerDepth := smKeep t.peerDepth group,
    lfsr := smErase t.lfsr die, lfsrLoaded := smErase t.lfsrLoaded die, reserve := smKeep t.reserve (portOf 1),
    bulkTokens := smKeep t.bulkTokens (portOf 1), shapers := smKeep t.shapers (portOf 8),
    shaperDirty := t.shaperDirty.filter (portOf 8), deficit := smKeep t.deficit (portOf 8), drrClass := smKeep t.drrClass (portOf 1),
    drrVoq := smKeep t.drrVoq (portOf 8), quanta := smKeep t.quanta (portOf 1), samples := smKeep t.samples (portOf 512), satLatch := smKeep t.satLatch (portOf 8) } }

/-- The tables of a core die are empty, and changes on their way from or to it are gone (R142). -/
def Dev.wipeFwd (d : Dev) (die : Nat) : Dev :=
  let f := d.fw
  { d with fw := { f with
    routes := smKeep f.routes fun k => k / 524288 != die, active := smErase f.active die, swapPend := smErase f.swapPend die,
    logical := smKeep f.logical fun k => k / 262144 != die, miss := f.miss.filter fun p => p.die != die,
    fetches := f.fetches.filter fun p => p.1 != die, homeWait := f.homeWait.filter fun p => p.die != die,
    cross := [], cmd := smErase f.cmd die, rebuild := smKeep f.rebuild fun k => k / 2 != die,
    lastChange := smKeep f.lastChange fun k => k / 67108864 != die, drainStart := smErase f.drainStart die } }

/-- The records, counters and comparisons of a core die are lost (R191). -/
def Dev.wipeSync (d : Dev) (die : Nat) : Dev :=
  let s := d.sy
  { d with sy := { s with
    recs := s.recs.filter fun r => r.key.die != die, claimPtr := smKeep s.claimPtr fun k => k / 16 != die,
    barVec := smKeep s.barVec fun k => k / 4096 != die, lichenOut := s.lichenOut.filter fun x => laneDie x.1 != die,
    arrIn := smKeep s.arrIn fun a => a / 16 != die, lichen := s.lichen.filter fun e => e.die != die, lichenDone := s.lichenDone.filter fun e => e.1 != die,
    descFlip := smKeep s.descFlip fun k => k / 32768 != die } }

/-- The links of a core die's ports are gone. -/
def Dev.wipeLinks (d : Dev) (die : Nat) : Dev :=
  let l := d.ln
  let lane := fun k => laneDie k != die
  let pc := fun k => laneDie (k / 8) != die
  let l : LinkState := { l with
    partnerAdv := smKeep l.partnerAdv pc, ownAdv := smKeep l.ownAdv lane, crTotal := smKeep l.crTotal pc, crBase := smKeep l.crBase pc,
    tx := smKeep l.tx lane, rx := smKeep l.rx lane, train := smKeep l.train lane, hb := smKeep l.hb lane }
  let l : LinkState := { l with
    ctl := l.ctl.filter fun c => lane c.port, delivered := l.delivered.filter fun x => lane x.1,
    rxWl := smKeep l.rxWl lane, coef := smKeep l.coef lane, coefAck := smKeep l.coefAck lane,
    preReq := smKeep l.preReq lane, inj := smKeep l.inj lane, injCtr := smKeep l.injCtr lane,
    txPre := smKeep l.txPre lane, rxPre := smKeep l.rxPre lane, gen := smKeep l.gen lane, chk := smKeep l.chk lane,
    wave := smKeep l.wave lane }
  { d with ln := l, parserDrops := smKeep d.parserDrops fun k => laneDie (k / 16) != die }

/-- The clock and event state of a core die is gone, and with it both directions of the rhizoid bundles. -/
def Dev.wipeTime (d : Dev) (die : Nat) : Dev :=
  let t := d.time
  let lane := fun k => laneDie k != die
  let t : TimeState := { t with
    copies := smErase t.copies die, txSeq := smKeep t.txSeq lane, txTimes := t.txTimes.filter fun x => lane x.1,
    rx := smKeep t.rx lane, dropped := smErase t.dropped die, epochK := smErase t.epochK die,
    lastBoundary := smErase t.lastBoundary die, due := t.due.filter (· != die),
    cntClear := t.cntClear.filter fun x => x.1 != die, cntEn := t.cntEn.filter fun x => x.1 != die }
  let gone := d.ev.held.filter fun h => h.unit == die
  let fl := (d.ev.heldFlights.filter fun x => x.hold != die).map fun x =>
    let x := if x.unit = die then { x with own := none } else x
    if die = 0 then { x with die0 := none } else { x with die1 := none }
  { d with time := t, ev := { d.ev with
      held := d.ev.held.filter fun h => h.unit != die, lost := d.ev.lost + gone.length,
      lostErr := d.ev.lostErr + (gone.filter HeldRec.isErr).length, heldFlights := fl },
           d2 := { d.d2 with rx := [], tx := [], wires := [], bad := [], moved := [],
                             cells := smKeep d.d2.cells fun k => k / 2 ^ 64 != die } }

/-- A core die resets and stays parked (Table 12.3, R310): its state is lost but for RWS fields, the surviving die loses its
peer, HUB_ADMIT of the die clears. -/
def Dev.coreReset (d : Dev) (die : Nat) : Dev :=
  if !d.dieRuns die then d
  else
    let d := ((d.wr F.HUB_STRAP_state 0 die 2).wrw .HUB_ADMIT 0 die 0).wrw .HUB_AVS_STAT 0 die 0
    let d := { d with pw := { d.pw with admits := d.pw.admits.set die 0, entered := smErase d.pw.entered die } }
    let d := d.peerLost (1 - die)
    let d := { d with regs := resetRegs d.regs (dieKey die) }
    let d := (((((d.wipeSwitch die).wipeTm die).wipeFwd die).wipeSync die).wipeLinks die).wipeTime die
    let d := { d with pw := { d.pw with margin := d.pw.margin.filter (· != die), atLo := smErase d.pw.atLo die } }
    let d := ((d.wr F.D2D_STAT_rx_up (1 - die) 0 0).wr F.D2D_STAT_tx_up (1 - die) 0 0)
    let d := d.each (List.range 16) fun d b => d.wr F.D2D_BND_STAT_up (1 - die) b 0
    -- the loss of the peer is D2D code 3 alone (Tables 17.8, 17.9)
    let d := if d.dieRuns (1 - die) then d.showDegraded else d
    -- members on the lost die leave their bundles (R94, R95)
    d.dropDeadMaps.capUpdate

/-- The hub enters reset (R312 to R314): its registers but those that show the other dies, the event stream, requesters, transfer
and stage state and what GDDR7 holds are lost. The ring and the die states stay. The core dies keep the blocks that they admit, and
their copies run on at the last increment written (R388). (DEDUCED, log 104) -/
def Dev.hubReset (d : Dev) : Dev :=
  let keep := fun k => hubKey k && !([Reg.HUB_STRAP, .HUB_THERM_STAT, .HUB_ERING_STAT, .HUB_AVS_STAT, .HUB_PWR_STAT,
    .MGT_CART_STAT].any fun r => r.ctorIdx == keyReg k)
  let admits := if d.alone then d.pw.admits else [d.rdw .HUB_ADMIT 0 0, d.rdw .HUB_ADMIT 0 1]
  let d := { d with regs := resetRegs d.regs keep, pw := { d.pw with admits := admits }, fw := { d.fw with backing := [] } }
  let d := d.wr F.HUB_STRAP_state 0 22 0
  let ev := { d.ev with seq := 0, history := [], waiting := [], flight := [], flightFlip := [], flightSeq := 0 }
  let t : TimeState := { d.time with
    hall := 0, inc := TimeState.fresh.inc, pendInc := none, pendAdj := 0, caps := [], capNext := [], valid := [], good := 0, steps := [],
    copyInc := some (d.time.copyInc.getD (d.time.pendInc.getD d.time.inc)) }
  let t : TimeState := { t with freq := 0, streak := 0, epochK := smErase t.epochK 2, lastBoundary := smErase t.lastBoundary 2,
                                due := t.due.filter (· != 2), cntClear := t.cntClear.filter fun x => x.1 != 2,
                                cntEn := t.cntEn.filter fun x => x.1 != 2 }
  let st := { StageState.fresh with dynamic := d.st.dynamic }
  let d := { d with ev := ev, time := t, mg := MgtState.fresh, se := { SecState.fresh with waiting := d.se.waiting }, st := st }
  (d.spillLoss 0).spillLoss 1

-- Debug lock (R374) -------------------------------------------------------------------------------------------------------------

/-- One attempt that the hub counts: error code 5, whose record is its event. -/
def Dev.debugCount (d : Dev) : Dev := (d.inc F.SEC_STAT_debug_tries 0 0 1).logErr .SEC 0 5 0

/-- DEBUG_ACCESS_ATTEMPT (R374): the locked port answers nothing; while the hub is in reset the count waits for it.
(DEDUCED, log 149) -/
def Dev.debugAttempt (d : Dev) : Dev :=
  if d.hubRuns then d.debugCount else { d with se := { d.se with waiting := d.se.waiting + 1 } }

/-- The attempts that waited for the hub. -/
def Dev.debugHeld (d : Dev) : Dev :=
  let n := d.se.waiting
  ({ d with se := { d.se with waiting := 0 } } : Dev).each (List.range n) fun d _ => d.debugCount

-- Starting the hub (R371, R372, R377) -------------------------------------------------------------------------------------------

/-- Whether a firmware slot may boot; a refused one is logged. (DEDUCED, log 106) -/
def Chip.tryFirmware (c : Chip) (slot : Nat) (r : SlotRead) : Chip × Option FwSlot :=
  match smFind c.flash.fw slot with
  | none => (c, none)
  | some f =>
    let f : FwSlot := ⟨r.of f.file⟩
    let k := c.fuses.check 1 f.file
    if !k.ok then (c.on fun d => (d.logErr .SEC 0 1 k.detail).logErr .HUB 0 2 (wmk [(4, 0, 22)]), none)
    else if f.version < c.fuses.rollback then
      (c.on fun d => (d.logErr .SEC 0 4 0).logErr .HUB 0 2 (wmk [(4, 0, 22)]), none)
    else (c, some f)

/-- FIRMWARE_SLOT_SELECT (R371): the staged slot if there is one, else the active one; then the other. It answers
the slot and the firmware that its bytes read as. -/
def Chip.selectFirmware (c : Chip) (fw0 fw1 : SlotRead) : Chip × Option (Nat × FwSlot) :=
  let a := c.flash.fwActive
  let first := if c.flash.fwStaged then 1 - a else a
  let chk := fun s => if s = 0 then fw0 else fw1
  match c.tryFirmware first (chk first) with
  | (c, some f) => (c, some (first, f))
  | (c, none) =>
    let q := c.tryFirmware (1 - first) (chk (1 - first))
    (q.1, q.2.map fun f => (1 - first, f))

/-- Address of both networks until a management record is saved (R334). -/
def defaultAddr (serial : Nat) : Nat :=
  169 * 2 ^ 24 + 254 * 2 ^ 16 + (1 + serial % 254) * 2 ^ 8 + (1 + serial / 254 % 254)

/-- Step 7 of Table 12.2: the management record, or the address of R334. -/
def Chip.loadMgmt (c : Chip) : Chip :=
  match c.flash.mgmt with
  | none => c.on fun d => d.each [0, 1] fun d n => d.wr F.MGT_NET_CFG_addr 0 n (defaultAddr c.fuses.serial)
  | some m => c.on fun d =>
    let d := d.each [0, 1] fun d n => (d.wrw .MGT_NET_CFG 0 n (m.nets.getD n 0)).wrw .MGT_NET_GW 0 n (m.gws.getD n 0)
    let d := d.each (List.range 8) fun d i => d.wrw .MGT_EVT_DEST 0 i (m.dests.getD i 0)
    (d.wrw .MGT_AUTH_CFG 0 0 m.auth).wrw .HUB_GUARD 0 0 m.guard

/-- What the hub shows of straps, fuses and flash. -/
def Chip.showIdentity (c : Chip) : Chip :=
  let f := c.fuses
  c.on fun d =>
    let d := (d.wr F.HUB_ID_serial 0 0 f.serial).wr F.MGT_MAC_base 0 0 f.mac
    let d := ((d.wr F.SEC_STAT_rollback 0 0 f.rollback).wr F.SEC_STAT_debug 0 0 (b2n f.debugLocked)).wr F.SEC_STAT_owner 0 0
      (b2n f.owner.isSome)
    (d.wr F.MGT_BOOT_CNT_count 0 0 c.flash.boots).wr F.MGT_IMG_STAT_staged 0 0 (b2n c.flash.imgStaged)

/-- The hub's own start, common to a package start and a hub reset (steps 2, 3 and 7): the boot count rises (R341), the hub reads
its straps as `straps` gives (R295), the measurements start (R377), the firmware is chosen; with none the ROM enters recovery
mode (R372). -/
def Chip.hubBoot (c : Chip) (straps : Dev → Dev) (fw0 fw1 : SlotRead) : Chip × Bool :=
  let c := { c with flash := { c.flash with boots := (c.flash.boots + 1) % 2 ^ 32 } }
  let c := (c.on fun d =>
    ({ d with release := smInsert d.release 2 d.tick } : Dev).wr F.HUB_STRAP_state 0 22 1).showIdentity
  let c := (c.on straps).on fun d => d.wr F.HUB_ID_variant 0 0 (fget (d.rdw .HUB_STRAP 0 22) 6 3)
  let keys := c.fuses.firmware ++ c.fuses.calibration ++ (c.fuses.owner.getD [])
  let c := c.on fun d =>
    let d := d.each (List.range 6) fun d m => d.setMeas m (List.replicate 48 0)
    (d.extend 0 (beBytes 48 Config.bootRom.toNat)).extend 0 (Config.fusedKeys keys c.fuses.rollback)
  match c.selectFirmware fw0 fw1 with
  | (c, none) => ((c.on fun d => (d.wr F.SEC_STAT_recovery 0 0 1).wr F.HUB_BOOT_STAT_stage 0 0 3).loadMgmt, false)
  | (c, some (s, f)) =>
    let staged := c.flash.fwStaged && s != c.flash.fwActive
    let c := if staged then { c with flash := { c.flash with fwActive := s, fwStaged := false } } else c
    ((c.on fun d => ((d.wr F.SEC_STAT_fw_slot 0 0 s).wr F.SEC_STAT_fw_version 0 0 f.version).extend 1 f.body).loadMgmt, true)

-- Straps (R295, R296) -----------------------------------------------------------------------------------------------------------

/-- The HUB_STRAP index that a good strap word names; none where the word is bad. -/
def strapIdent (w : Nat) : Option Nat :=
  let x := BitVec.ofNat 64 w
  let (kind, index, quad, variant) := (fget x 15 13, fget x 12 9, fget x 8 7, fget x 6 3)
  let odd := ((List.range 16).filter fun b => wbit x b).length % 2 == 1
  if !odd || variant ≠ 1 then none
  else match kind with
  | 0 => if index = 0 && quad = 0 then some 22 else none
  | 1 => if index ≤ 1 && quad = 0 then some index else none
  | 2 => if quad = index / 4 then some (2 + index) else none
  | 3 => if index ≤ 3 && quad = index then some (18 + index) else none
  | _ => none

/-- Whether the die with a HUB_STRAP index reports its own good word, and no other die the same. (DEDUCED, log 105) -/
def strapOk (rs : List StrapReport) (i : Nat) : Bool :=
  let mine := rs.filter fun r => r.die.val == i
  let same := rs.filter fun r => strapIdent r.word.toNat == some i
  mine.length == 1 && same.length == 1 && mine.all fun r => strapIdent r.word.toNat == some i

/-- STRAP_CHECK (R296) of one die: its word shown, a bad, missing or duplicated one logged. -/
def Dev.checkStrap (d : Dev) (rs : List StrapReport) (i : Nat) : Dev :=
  let w := match rs.find? fun r => r.die.val == i with
    | some r => r.word.toNat
    | none => 0
  let d := d.wr F.HUB_STRAP_word 0 i w
  if strapOk rs i then d else (d.wr F.HUB_STRAP_bad 0 i 1).logErr .HUB 0 1 (wmk [(4, 0, i)])

-- Releasing dies (steps 4 to 6) -------------------------------------------------------------------------------------------------

/-- A core die leaves reset: stepping and features (R305), fused wires, starting voltage (R321), time copy (R381). Its boundaries
follow the bit in force on a running peer (R390). -/
def Chip.releaseCore (c : Chip) (die : Nat) : Chip :=
  let s := c.fuses.steppings
  let both := b2n (decide (s.1 = 1 ∧ s.2 = 1))
  let own := if die = 0 then s.1 else s.2
  c.on fun d =>
    let d := { d with release := smInsert d.release die d.tick,
                      time := { d.time with copies := smSet d.time.copies die d.time.hall 0,
                                            epochK := smSet d.time.epochK die (if d.dieRuns (1 - die) then smGet d.time.epochK (1 - die) 20
                                              else d.rd F.TIME_CTRL_epoch 0 0) 20 } }
    let d := ((d.wr F.HUB_STRAP_state 0 die 1).wr F.HUB_STRAP_stepping 0 die own).setpoint die 800
    let d := (d.wr F.RED_CAPS_stepping die 0 own).wr F.RED_CAPS_mx_half die 0 both
    let d := d.wr F.FWD_FILTER_CFG_doubled die 0 both
    let d := d.each (List.range 16) fun d b =>
      d.wr F.D2D_BND_STAT_fused die b (smGet c.fuses.wires (bndKey die b) []).length
    ({ d with d2 := { d.d2 with fused := c.fuses.wires } } : Dev)

/-- Step 6 of Table 12.2: engines and bypass dies with a good strap word leave reset, the others are out of service (R296). -/
def Dev.releaseEngines (d : Dev) (rs : List StrapReport) : Dev :=
  let d := d.each (List.range 16) fun d e =>
    let d := d.checkStrap rs (2 + e)
    if strapOk rs (2 + e) then
      (((d.wr F.HUB_STRAP_state 0 (2 + e) 1).wr F.OE_ID_variant e 0 1).wr F.OE_ID_quad e 0 (e / 4)).wr F.OE_ID_engine e 0 e
    else d.wr F.HUB_STRAP_state 0 (2 + e) 3
  d.each (List.range 4) fun d q =>
    let d := d.checkStrap rs (18 + q)
    if strapOk rs (18 + q) then
      ((d.wr F.HUB_STRAP_state 0 (18 + q) 1).wr F.BYP_ID_variant q 0 1).wr F.BYP_ID_quad q 0 q
    else d.wr F.HUB_STRAP_state 0 (18 + q) 3

/-- The wires found bad, by receiving die and bundle. -/
def wiresOf (ws : List WireFault) : SMap (List Nat) :=
  ws.foldl (fun m w => smInsert m (bndKey w.die.val w.bundle.val) (w.wires.map fun x => x.val)) []

/-- The inputs of a quad whose records disagree. -/
def badOf (rs : List BadRecord) (q : Nat) : List Nat := (rs.filter fun r => r.quad.val == q).map fun r => r.input.val

-- Choosing the image (step 10) --------------------------------------------------------------------------------------------------

/-- Sets the stage of HUB_BOOT_STAT. -/
def Dev.stage (d : Dev) (n : Nat) : Dev := d.wr F.HUB_BOOT_STAT_stage 0 0 n

/-- Raises the record of an activated configuration (Table 14.6 code 11). (DEDUCED, log 109) -/
def Dev.configEvent (d : Dev) : Dev := d.event .MGT 0 11 (d.rdw .MGT_IMG_STAT 0 0) (payWord d.cfg.digest 0)

/-- The slot that verifies, tried in order; a failed one is logged. -/
def Chip.tryImage (c : Chip) (slot : Nat) (r : SlotRead) : Chip × Option ImgSlot :=
  match smFind c.flash.img slot with
  | none => (c, none)
  | some s =>
    let s := { s with file := r.of s.file }
    let k := c.fuses.check 2 s.file
    if k.ok then (c, some s) else (c.on fun d => d.logErr .SEC 0 2 k.detail, none)

/-- Step 10 (R306, R308, R354, R369): the staged slot or the active one, else the other; none waits for an image. An image that
breaks a rule is refused with error code 3. -/
def Chip.chooseImage (c : Chip) (i0 i1 : SlotRead) : Chip :=
  if c.fuses.owner.isNone then c.on fun d => d.stage 15
  else
    let a := c.flash.imgActive
    let first := if c.flash.imgStaged then 1 - a else a
    let chk := fun s => if s = 0 then i0 else i1
    let check := fun (c : Chip) (slot : Nat) (s : ImgSlot) =>
      if (c.dev.loadImage s.image s.digest c.fuses.steppings).isSome then
        { c with dev := c.dev.stage 10, pend := some ⟨slot, s⟩ }
      else c.on fun d => (d.stage 10).logErr .HUB 0 3 0
    match c.tryImage first (chk first) with
    | (c, some s) => check c first s
    | (c, none) => match c.tryImage (1 - first) (chk (1 - first)) with
      | (c, some s) => check c (1 - first) s
      | (c, none) => c.on fun d => d.stage 15

/-- Whether the start ends once management is up: the hub's own strap word is bad, or both core dies' (R296). -/
def Dev.bootStops (d : Dev) : Bool :=
  d.on F.HUB_STRAP_bad 0 22 || (d.on F.HUB_STRAP_bad 0 0 && d.on F.HUB_STRAP_bad 0 1)

/-- Whether the device can start: PWRGOOD high, every rail in range, the hub's clock present. -/
def Dev.canStart (d : Dev) : Bool := d.pw.good && d.pw.rails.isEmpty && !d.pw.clocks.contains 2 && d.pw.restart

/-- Step 4 of Table 12.2: a core die with a good strap word and its clock leaves reset; another stays parked (R296, R309), and the
absence of its clock is logged. -/
def Chip.releaseOrPark (c : Chip) (ok : Nat → Bool) (die : Nat) : Chip :=
  if !ok die then c.on fun d => d.wr F.HUB_STRAP_state 0 die 2
  else if c.dev.pw.clocks.contains die then
    c.on fun d => (d.wr F.HUB_STRAP_state 0 die 2).logErr .HUB 0 5 (wmk [(4, 0, die)])
  else c.releaseCore die

/-- Steps 1 to 10 of Table 12.2. Without firmware, without a good word of the hub or with both core dies bad, the start ends
once management is up. -/
def Chip.start (c : Chip) (b : BootIn) : Chip :=
  if !c.dev.canStart then c
  else
    let c := c.on fun d => { d with pw := { d.pw with restart := false, began := d.tick } }
    match c.hubBoot (fun d => d.checkStrap b.straps 22) b.fw0 b.fw1 with
    | (c, false) => c.on Dev.debugHeld
    | (c, true) =>
      let c := c.on Dev.debugHeld
      let ok := strapOk b.straps
      let c := c.on fun d => (d.checkStrap b.straps 0).checkStrap b.straps 1
      let c := ((c.releaseOrPark ok 0).releaseOrPark ok 1).on fun d =>
        (d.releaseEngines b.straps).each (List.range 4) fun d q => d.bypRead q (badOf b.records q)
      if c.dev.bootStops then c.on fun d => d.stage 7
      else (c.on fun d => d.trainRhizoid (wiresOf b.wires)).chooseImage b.img0 b.img1

/-- POWER_GOOD (R307, R440): PWRGOOD rises. -/
def Chip.powerGood (c : Chip) (b : BootIn) : Chip :=
  if c.dev.pw.good then c else (c.on fun d => { d with pw := { d.pw with good := true } }).start b

/-- PACKAGE_RESET (R11, R414): the device starts again after a reset of the package. -/
def Chip.packageStart (c : Chip) (b : BootIn) : Chip := c.start b

/-- A reset by the supplies: a power-on reset, with cause 0, where VDD_AUX, rail 7, is out of its range (R11, R439). -/
def Chip.supplyReset (c : Chip) (cause : Nat) : Chip :=
  if c.dev.pw.rails.contains 7 then c.packageReset true 0 else c.packageReset false cause

/-- POWER_GOOD_LOSS (R441): PWRGOOD falls, every die resets. (DEDUCED, log 101) -/
def Chip.powerGoodLoss (c : Chip) : Chip :=
  if !c.dev.pw.good then c else (c.on fun d => { d with pw := { d.pw with good := false } }).supplyReset 0

/-- SUPPLY_FAULT_RESET (R328): VDD_CORE_IN, rail 0, below 0.85 V for 1 µs. -/
def Chip.supplyFault (c : Chip) : Chip :=
  let c := c.on fun d => { d with pw := { d.pw with rails := d.pw.rails.filter (· != 0) ++ [0] } }
  if c.dev.pw.good then c.supplyReset 5 else c

/-- RAIL_FAULT (R11, R439): a rail of Table 20.2 other than VDD_CORE_IN below its range; rail 7 is VDD_AUX, whose loss is a
power-on reset. -/
def Chip.railFault (c : Chip) (rail : Nat) : Chip :=
  let c := c.on fun d => { d with pw := { d.pw with rails := d.pw.rails.filter (· != rail) ++ [rail] } }
  if rail = 7 || c.dev.pw.good then c.supplyReset 5 else c

/-- SUPPLY_RAIL_RETURN (R328, R440): a rail is back in range; with the last one the device starts. -/
def Chip.railReturn (c : Chip) (rail : Nat) (b : BootIn) : Chip :=
  (c.on fun d => { d with pw := { d.pw with rails := d.pw.rails.filter (· != rail) } }).start b

-- Calibration loads (R242, R245, R377) ------------------------------------------------------------------------------------------

/-- A section of the calibration store; one that flash lacks does not verify. -/
def Chip.section (c : Chip) (i : Nat) : CalSec := smGet c.flash.cal i ⟨false, false, 0, []⟩

/-- M3 at a calibration load (Table 15.3). (DEDUCED, log 147) -/
def Chip.measureCal (c : Chip) : Chip :=
  let secs := c.flash.cal.map Prod.snd
  let digests := secs.flatMap fun s => beBytes 48 (Config.sectionDigest s.data).toNat
  c.on fun d => (d.extend 3 (sha384 digests)).extend 3 [Config.userFlags (secs.map fun s => s.user)]

/-- Step 12: every engine and bypass die that was released loads its section. -/
def Chip.calibrateAll (c : Chip) : Chip :=
  let c := c.measureCal
  c.on fun d =>
    let d := d.each (List.range 16) fun d e => if d.dieState (2 + e) = 1 then d.calibrate e (c.section (2 + e)) else d
    d.each (List.range 4) fun d q => if d.dieState (18 + q) = 1 then d.bypCalibrate q (c.section (18 + q)) else d

/-- A recalibration or reset of an engine (R245, R316); while the hub is in reset it waits. -/
def Chip.recalEngine (c : Chip) (e : Nat) : Chip :=
  let c := c.measureCal
  c.on fun d => d.recal e (c.section (2 + e))

-- IMAGE_ACTIVATION (steps 11 to 13) ---------------------------------------------------------------------------------------------

/-- What the hub shows of the active image; M2 follows D (R357, R377). -/
def Chip.showImage (c : Chip) (slot id : Nat) : Chip :=
  c.on fun d =>
    let d := ((d.wr F.MGT_IMG_STAT_active 0 0 1).wr F.MGT_IMG_STAT_slot 0 0 slot).wr F.MGT_IMG_STAT_id 0 0 (id % 2 ^ 48)
    let d := (d.wr F.MGT_IMG_STAT_staged 0 0 (b2n c.flash.imgStaged)).wr F.MGT_IMG_STAT_regions 0 0 c.flash.log.length
    d.setMeas 2 d.cfg.digest

/-- HUB_GUARD at a start (R402): nothing admitted, every active port held. (DEDUCED, log 108) -/
def Dev.applyGuard (d : Dev) : Dev :=
  if !d.on F.HUB_GUARD_guard 0 0 then d
  else
    let d := (d.wrw .HUB_ADMIT 0 0 0).wrw .HUB_ADMIT 0 1 0
    d.each (d.cfg.ports.map Prod.fst) fun d p => (d.pwr F.LANE_PORT_CTRL_hold p 1).portHold p

/-- The initial circuits of a quad. -/
def Image.circuitsOf (img : Image) (q : Nat) : List (Nat × Word) :=
  (img.circuits.filter fun x => x.quad == q).map fun x => (x.input, x.outputs)

/-- Ports held since the image loaded show it, and every other active port begins to train (step 13). -/
def Dev.trainAll (d : Dev) : Dev :=
  d.each (d.cfg.ports.map Prod.fst) fun d p =>
    if d.prd F.LANE_PORT_CTRL_hold p = 1 then (if d.portState p = 0 then d.pwr F.LANE_PORT_STAT_state p 4 else d)
    else d.trainBegin p

/-- IMAGE_ACTIVATION (R36, R307 steps 11 to 13): the image's registers, tables and circuits load, the optics calibrate, the ports
train. A start that ended at a bad strap word (R296) and recovery mode (R372) activate nothing. The slot becomes active and the region log is cleared (R354).
(DEDUCED, log 112; DESIGN CHOICE, log 175) -/
def Chip.activate (c : Chip) : Chip :=
  match (if c.dev.bootStops || c.dev.on F.SEC_STAT_recovery 0 0 then none else c.pend) with
  | none => c
  | some p =>
    let c := { c with pend := none }
    match c.dev.loadImage p.content.image p.content.digest c.fuses.steppings with
    | none => c.on fun d => (d.stage 10).logErr .HUB 0 3 0
    | some d =>
      let f := c.flash
      let c := { c with dev := { d with fw := { d.fw with written := [] } }, flash := { f with
        imgActive := p.slot, imgStaged := f.imgStaged && p.slot == f.imgActive, log := [] } }
      let c := (c.showImage p.slot p.content.image.id).on fun d => d.applyGuard.holdSites
      let c := c.calibrateAll.on fun d => d.each (List.range 4) fun d q =>
        d.bypCompare q (p.content.image.circuitsOf q)
      let c := c.on fun d => if d.on F.HUB_UCIE_CTRL_enable 0 0 then d.ucieBring else d
      c.on fun d => (d.stage 13).trainAll.stageJoin.capUpdate.configEvent

/-- Whether a port has finished its first training, or cannot train: held, taken, on a die or engine out of service.
(DEDUCED, log 107) -/
def Dev.firstTrained (d : Dev) (p : Nat) : Bool :=
  (d.train p).tried || d.linkUp p || d.portState p == 4 || !d.dieRuns (laneDie p) || d.taken p ||
    (!d.electrical p && !d.engineRuns (p / 64))

/-- TRAFFIC_READY (R307 step 14), never in recovery mode (R308, R372) nor after a start that ended at a bad strap word (R296). -/
def Dev.trafficReady (d : Dev) : Dev :=
  if !d.attached || d.on F.SEC_STAT_recovery 0 0 || d.bootStops || !d.cfg.active || d.on F.HUB_BOOT_STAT_ready 0 0 || !d.oe.settling.isEmpty ||
    !(d.cfg.ports.all fun e => d.firstTrained e.1) then d
  else
    let d := (d.stage 14).wr F.HUB_BOOT_STAT_ready 0 0 1
    let d := d.wr F.HUB_BOOT_STAT_boot_ms 0 0 (Nat.min 65535 ((d.tick - d.pw.began) / 156250))
    d.hubEvent 6 d.bootStat 0

-- What the active image and the region log leave (R310, R314, R354) --------------------------------------------------------------

/-- The configuration that flash holds: the active slot with the region log, and its digest (R357). -/
def Chip.flashConfig (c : Chip) : Option (Dev × List Byte) :=
  match smFind c.flash.img c.flash.imgActive with
  | none => none
  | some s =>
    let digest := c.flash.log.foldl (fun dg r => sha384 (dg ++ r.digest)) s.digest
    let base := Dev.fresh0.loadImage s.image digest c.fuses.steppings
    let full := c.flash.log.foldl (fun o r => o.bind fun d => d.applyRegion r.image) base
    full.map fun d => (d, digest)

/-- Takes the registers whose key `pick` names from another store, RWS fields aside. -/
def takeRegs (m from_ : RegFile) (pick : Nat → Bool) : RegFile :=
  (from_.filter fun e => pick e.1).foldl (fun m e =>
    let r := keyReg e.1
    let old := smGet m e.1 (smGet resetTable r 0)
    smSet m e.1 ((e.2 &&& ~~~rwsMask r) ||| (old &&& rwsMask r)) (smGet resetTable r 0)) m

/-- A die's part of the route and logical tables, from another device. -/
def Dev.takeTables (d from_ : Dev) (die : Nat) : Dev :=
  let r := (from_.fw.routes.filter fun e => e.1 / 524288 == die).foldl (fun m e => smInsert m e.1 e.2) d.fw.routes
  let l := (from_.fw.logical.filter fun e => e.1 / 262144 == die).foldl (fun m e => smInsert m e.1 e.2) d.fw.logical
  { d with fw := { d.fw with routes := r, logical := l } }

/-- Copies tables and epoch state from the other die (R142): both banks, E, draining, the logical table, the fence list, and the
multicast table, whose contents both dies share (R88). -/
def Dev.copyTables (d : Dev) (die : Nat) : Dev :=
  let o := 1 - die
  let f := d.fw
  let routes := (f.routes.filter fun e => e.1 / 524288 == o).foldl
    (fun m e => smInsert m (die * 524288 + e.1 % 524288) e.2) (smKeep f.routes fun k => k / 524288 != die)
  let d := { d with fw := { f with
    routes := routes, logical := copyLog f.logical o die, active := smSet f.active die (smGet f.active o 0) 0,
    drainStart := match smFind f.drainStart o with
      | some t => smInsert f.drainStart die t
      | none => f.drainStart } }
  let d := d.each (List.range 256) fun d i => d.wrw .FWD_FENCE die i (d.rdw .FWD_FENCE o i)
  let d := d.each ((d.listed .VM_MC die ++ d.listed .VM_MC o).eraseDups) fun d i => d.wrw .VM_MC die i (d.rdw .VM_MC o i)
  [F.FWD_EPOCH_epoch, F.FWD_EPOCH_draining, F.FWD_EPOCH_remain].foldl (fun d f => d.wr f die 0 (d.rd f o 0)) d

/-- A rejoin of a parked core die (Table 12.3 steps 7 to 10): the die loads its image registers, the bundles train, tables come
from the other die or, when that one does not run, from the image; its ports train. A die with a bad strap word or without its
clock stays parked. -/
def Chip.rejoin (c : Chip) (die : Nat) : Chip :=
  if c.dev.dieState die ≠ 2 || c.dev.on F.HUB_STRAP_bad 0 die || c.dev.pw.clocks.contains die then c
  else
    let peer := c.dev.dieRuns (1 - die)
    let c := (c.releaseCore die).on fun d => d.wrw .HUB_ADMIT 0 die 0
    let c := match (if c.dev.cfg.active then c.flashConfig else none) with
      | some (img, _) => c.on fun d =>
        let d := { d with regs := takeRegs d.regs img.regs (dieKey die),
                          tm := { d.tm with shaperDirty := d.tm.shaperDirty ++ img.tm.shaperDirty.filter fun k => laneDie (k / 8) == die } }
        if peer then d else d.takeTables img die
      | none => c
    let c := c.on fun d =>
      let (d, n) := d.fresh
      let d := d.trainRhizoid ((List.range 34).map fun k =>
        (k / 17 * 32 + k % 17, (Config.wiresFound n (k / 17 * 32 + k % 17)).map fun x => x.val))
      if peer then d.copyTables die else d
    c.on fun d => ((d.holdUnreleased die).each ((d.cfg.ports.map Prod.fst).filter fun p => laneDie p == die) fun d p => d.trainBegin p).capUpdate

-- Headless forwarding (R312 to R315, R389) --------------------------------------------------------------------------------------

/-- HEADLESS_ENTRY (R312): a core die has missed ten attach heartbeats. -/
def Dev.headlessEntry (d : Dev) (die : Nat) : Dev :=
  if d.attached || d.dieState die ≠ 1 then d
  else
    let d := (d.wr F.HUB_STRAP_state 0 die 4).wr F.D2D_STAT_headless die 0 1
    let d := { d with pw := { d.pw with entered := smInsert d.pw.entered die d.tick } }
    ((d.wr F.D2D_STAT_timer die 0 30000).logErr .D2D die 5 0).evtCnt .D2D die 3

/-- A die leaves headless at the attach. -/
def Dev.leaveHeadless (d : Dev) (die : Nat) : Dev :=
  if d.dieState die ≠ 4 then d
  else
    let d := (d.wr F.HUB_STRAP_state 0 die 1).wr F.D2D_STAT_headless die 0 0
    let d := { d with pw := { d.pw with entered := smErase d.pw.entered die } }
    (d.wr F.D2D_STAT_timer die 0 0).evtCnt .D2D die 5

/-- Writes the flight-recorder records whose captures the dies held (R427). A capture that was lost is counted, and that die's words
read 0. (DEDUCED, log 150) -/
def Dev.writeHeld (d : Dev) : Dev :=
  let xs := d.ev.heldFlights
  let d := { d with ev := { d.ev with heldFlights := [] } }
  d.each xs fun d x => (d.inc F.MEM_FR_STAT_lost 0 0 (b2n x.die0.isNone + b2n x.die1.isNone)).flightWrite x

/-- Sends what the dies held (R348, R411): error records enter the ring, the lost are counted and reported, the error records among
them in HUB_ERING_STAT. (DEDUCED, log 139) -/
def Dev.sendHeld (d : Dev) : Dev :=
  let held := d.ev.held
  let lost := d.ev.lost
  let errs := d.ev.lostErr
  let d := { d with ev := { d.ev with held := [], lost := 0, lostErr := 0 } }
  let d := (d.each held fun d h => (if h.isErr then d.ringEnter h.record else d).sendRec h.record).writeHeld
  if lost = 0 then d
  else
    (((d.inc F.HUB_ERING_STAT_lost 0 0 errs).inc F.MGT_EVT_STAT_lost 0 0 lost).logErr .MGT 0 3 0).event .MGT 0 15 (wmk [(31, 0, lost)]) 0

/-- The hall counter at attach (R389): from die 0's copy, or die 1's, in state locking; with no core die it starts at 0, free-running
(R380). It runs at the increment that TIME_INC holds. Time frames dropped meanwhile are counted. -/
def Dev.attachTime (d : Dev) : Dev :=
  let from_ := if d.dieRuns 0 then some 0 else if d.dieRuns 1 then some 1 else none
  let hall := match from_ with
    | some u => smGet d.time.copies u 0
    | none => 0
  let drops := smGet d.time.dropped 0 0 + smGet d.time.dropped 1 0
  let copies := [0, 1].foldl (fun m u => if d.dieRuns u then smSet m u hall 0 else m) d.time.copies
  let epochK := match from_ with
    | some u => smSet d.time.epochK 2 (smGet d.time.epochK u 20) 20
    | none => d.time.epochK
  let d := { d with time := { d.time with
    hall := hall, copies := copies, epochK := epochK, dropped := [], inc := d.rd F.TIME_INC_inc 0 0, pendInc := none, copyInc := none } }
  (d.wr F.TIME_STAT_state 0 0 (b2n from_.isSome)).evtCntN .TIME 0 3 drops

/-- The backing table is the image's again (R314): one event gives the number of entries written since activation, which are
lost, in E2 of a record of block MEM. -/
def Dev.rewriteBacking (d img : Dev) : Dev :=
  let lost := d.fw.written.length
  let d := { d with fw := { d.fw with backing := img.fw.backing, written := [] } }
  d.raiseRec 22 false (evE0 4 0 1 false 0) (wmk [(47, 0, lost)]) 0

-- Attach ---------------------------------------------------------------------------------------------------------------------------

/-- Whether a headless die's timer has run out (R312, R315). -/
def Dev.timedOut (d : Dev) : Bool :=
  [0, 1].any fun die => d.dieState die == 4 && (match smFind d.pw.entered die with
    | some t => decide (t + 4687500000 ≤ d.tick)
    | none => false)

/-- HUB_ATTACH (R314, R315, Table 12.4 steps 4 to 6): the hub starts again. It attaches when the configuration in flash has the
digest that the core dies hold and no timer has run out; otherwise it stays in reset. Its registers come from the image (R12).
(DEDUCED, log 102; DEDUCED, log 103) -/
def Chip.attach (c : Chip) (fw0 fw1 : SlotRead) : Chip :=
  if c.dev.hubRuns || !c.dev.pw.good || c.dev.pw.restart || c.dev.pw.clocks.contains 2 || !c.dev.pw.rails.isEmpty then c
  else match c.hubBoot id fw0 fw1 with
  | (c', false) => c'.on Dev.debugHeld
  | (c', true) =>
    let conf := if c.dev.cfg.active then c.flashConfig else none
    if c.dev.timedOut || c.dev.cfg.active && (match conf with
      | some x => x.2 != c.dev.cfg.digest
      | none => true) then { c with flash := c'.flash }
    else
      let c := c'.on fun d =>
        let d := match conf with
          | some x => { d with regs := takeRegs d.regs x.1.regs hubKey }
          | none => d
        ((({ d with pw := { d.pw with admits := [] } } : Dev).leaveHeadless 0).leaveHeadless 1).attachTime
      let c := match conf, smFind c.flash.img c.flash.imgActive with
        | some x, some s => (c.on fun d => d.rewriteBacking x.1).showImage c.flash.imgActive s.image.id
        | _, _ => c
      let c := c.on fun d => d.sendHeld.debugHeld.stage 9
      -- engines whose recalibration waited for the hub
      let c := (List.range 16).foldl (fun (c : Chip) e => if c.dev.dieState (2 + e) = 0 && c.dev.cfg.active
        then c.recalEngine e else c) c
      c.on fun d =>
        let d := if d.on F.HUB_UCIE_CTRL_enable 0 0 && d.cfg.active then d.ucieBring else d
        d.stageJoin.capUpdate

/-- HEADLESS_TIMEOUT (R315): a core die's timer runs out without attach. -/
def Chip.headlessTimeout (c : Chip) (die : Nat) : Chip :=
  if c.dev.dieState die ≠ 4 then c
  else (c.on fun d => (d.logErr .D2D die 6 0).logErr .HUB 0 6 (wmk [(4, 0, die)])).packageReset false 3

-- Fatal errors (R413, R414) -----------------------------------------------------------------------------------------------------

/-- Whether a die runs. -/
def Dev.alive (d : Dev) (i : Nat) : Bool := d.dieState i == 1 || d.dieState i == 4

/-- Whether a fatal error of a die takes place: the die runs; or it is an injected one while a handling window is open, which escalates
whatever became of the die (R416). (DEDUCED, log 115) -/
def Dev.canFail (d : Dev) (i cause : Nat) : Bool := d.alive i || (cause == 9 && !d.pw.window.isEmpty)

/-- Latches a fatal error (Table 17.12): in the second fields when it escalates. -/
def Dev.latchFatal (d : Dev) (i cause : Nat) (escalates : Bool) : Dev :=
  let d := d.inc F.HUB_FATAL_STAT_count 0 0 1
  if escalates then
    ((d.wr F.HUB_FATAL_STAT_valid2 0 0 1).wr F.HUB_FATAL_STAT_cause2 0 0 cause).wr F.HUB_FATAL_STAT_die2 0 0 i
  else if d.on F.HUB_FATAL_STAT_valid1 0 0 then d
  else ((d.wr F.HUB_FATAL_STAT_valid1 0 0 1).wr F.HUB_FATAL_STAT_cause1 0 0 cause).wr F.HUB_FATAL_STAT_die1 0 0 i

/-- The record of a fatal error (R409, R410, R427). One that escalates enters the ring before the package resets, even while the hub
is in reset, with the boot count `boots` of its time (R414). That of a core die the other one holds, since the die itself resets. -/
def Dev.recordFatal (d : Dev) (i cause : Nat) (escalates : Bool) (boots : Nat) : Dev :=
  let r : EvRec := ⟨evE0 0 0 0 false (0x0100 + cause), wmk [(63, 32, d.hallNs (unitDie i))], d.rdw .HUB_FATAL_STAT 0 0, 0⟩
  let errs := (d.rdw .HUB_ERR_NEXT 0 0, d.rdw .HUB_ERR_COUNT 0 0)
  if !d.hubRuns && escalates then (d.wr F.MGT_BOOT_CNT_count 0 0 boots).ringEnter r
  else d.recordErr (if !d.hubRuns && i < 2 then 1 - i else i) (unitDie i) 0 0 (0x0100 + cause) r none errs

/-- A core die resets with an error of the hub's block (HUB codes 4 and 5): while the hub is in reset its record stays with the other
die. -/
def Dev.coreLost (d : Dev) (code i : Nat) : Dev :=
  let log := fun (d : Dev) => d.logErr .HUB 0 code (wmk [(4, 0, i)])
  if d.hubRuns then (log d).coreReset i else log (d.coreReset i)

/-- An engine or bypass die resets (R245, R316, Table 10.3). An engine waits for the hub to recalibrate. -/
def Chip.resetSide (c : Chip) (i : Nat) (commanded : Bool) : Chip :=
  let c := if commanded then c else c.on fun d => d.logErr .HUB 0 9 (wmk [(4, 0, i)])
  if i < 18 then
    let e := i - 2
    let keep := fun k => keyUnit k == e && Block.OE.has (keyReg k) && keyReg k != Reg.ctorIdx .OE_ID
    let c := c.on fun d =>
      let d := d.downLanes ((List.range 64).map (64 * e + ·) |>.filter fun n => d.carryOf n != 15)
      let d := { d with regs := resetRegs d.regs keep, oe := { d.oe with minSet := d.oe.minSet.filter fun k => k / 32 != e } }
      (d.oeForget e).wr F.HUB_STRAP_state 0 i 0
    if c.dev.hubRuns && c.dev.cfg.active then c.recalEngine e
    else if c.dev.cfg.active then c else c.on fun d => d.wr F.HUB_STRAP_state 0 i 1
  else
    let q := i - 18
    let keep := fun k => keyUnit k == q && Block.BYP.has (keyReg k) &&
      keyReg k != Reg.ctorIdx .BYP_IN && keyReg k != Reg.ctorIdx .BYP_OUT && keyReg k != Reg.ctorIdx .BYP_ID
    c.on fun d =>
      -- the section's marks and the image's keep stand (Tables 10.8, 10.11)
      let same := fun (x : Dev) (f : Fld) => x.wr f q 0 (d.rd f q 0)
      (same (same (same ({ d with regs := resetRegs d.regs keep } : Dev) F.BYP_CAL_STAT_user)
        F.BYP_CAL_STAT_commits) F.BYP_CFG_keep).bypReset q

/-- FATAL_ERROR (R413, R414): a fatal cause of the die with HUB_STRAP index `i`. -/
def Chip.fatal (c : Chip) (i cause : Nat) : Chip :=
  if !c.dev.canFail i cause then c
  else
    let escalates := !c.dev.pw.window.isEmpty || (i < 2 && c.dev.dieState (1 - i) == 2)
    let c := c.on fun d => (d.latchFatal i cause escalates).recordFatal i cause escalates c.flash.boots
    if escalates then c.packageReset false 2
    else
      let c := c.on fun d => { d with pw := { d.pw with window := d.pw.window ++ [i] } }
      if i < 2 then c.on fun d => d.coreLost 4 i
      else if i = 22 then c.on fun d => d.hubReset
      else c.resetSide i false

/-- HANDSHAKE_STALL (R413): a cell pipeline of a core die has held a handshake for more than 100 µs. -/
def Chip.handshakeStall (c : Chip) (die : Nat) : Chip := c.fatal die 4

/-- FATAL_WINDOW_CLOSE (R413): the die concerned has reached its resting state. -/
def Dev.windowClose (d : Dev) (i : Nat) : Dev :=
  let rest := if i < 2 then d.dieState i == 2 else if i < 18 then d.dieState i == 1 || d.dieState i == 3
    else if i < 22 then d.by_.read.contains (i - 18) else d.hubRuns
  if rest then { d with pw := { d.pw with window := d.pw.window.filter (· != i) } } else d

/-- HUB_RESET (R312). -/
def Chip.hubReset (c : Chip) : Chip := if c.dev.hubRuns then c.on Dev.hubReset else c

/-- HUB_WATCHDOG_EXPIRY (R312, R413): fatal cause 6 of the hub, or a package reset when no core die runs.
(DEDUCED, log 99) -/
def Chip.watchdog (c : Chip) : Chip :=
  if !c.dev.hubRuns then c
  else if c.dev.dieRuns 0 || c.dev.dieRuns 1 then c.fatal 22 6
  else
    let escalates := !c.dev.pw.window.isEmpty
    (c.on fun d => (d.latchFatal 22 6 escalates).recordFatal 22 6 escalates c.flash.boots).packageReset false (if escalates then 2 else 4)

-- Clocks and trips --------------------------------------------------------------------------------------------------------------

/-- REFERENCE_CLOCK_LOSS (R309, R312, R443): clock 0 or 1 of a core die, 2 of the hub. -/
def Chip.clockLoss (c : Chip) (k : Nat) : Chip :=
  if c.dev.pw.clocks.contains k then c
  else
    let c := c.on fun d => { d with pw := { d.pw with clocks := d.pw.clocks ++ [k] } }
    if k = 2 then c.hubReset
    else if c.dev.dieRuns k || (c.dev.dieState k == 2 && c.dev.hubRuns) then
      c.on fun d => d.coreLost 5 k
    else c

/-- REFERENCE_CLOCK_RETURN (R309): the clock has been present for 10 ms. -/
def Dev.clockReturn (d : Dev) (k : Nat) : Dev := { d with pw := { d.pw with clocks := d.pw.clocks.filter (· != k) } }

/-- THERMAL_TRIP (R329, R330): a core die or the hub trips by a fatal error, an engine leaves service. -/
def Chip.thermalTrip (c : Chip) (i : Nat) : Chip :=
  if !c.dev.alive i || (18 ≤ i && i < 22) then c
  else if i = 22 then c.fatal 22 5
  else if i < 2 then (c.on fun d => d.thermEnter i 3).fatal i 5
  else
    let e := i - 2
    c.on fun d =>
      let d := d.thermEnter i 3
      -- a settling that the trip cuts short ends, so that a recalibration can follow
      let d := if d.oe.settling.contains e then d.wr F.OE_CAL_STAT_busy e 0 0 else d
      let d := { d with pw := { d.pw with tripped := d.pw.tripped.filter (· != e) ++ [e] },
                        oe := { d.oe with settling := d.oe.settling.filter (· != e) } }
      let d := d.downLanes ((List.range 64).map (64 * e + ·) |>.filter fun n => d.carryOf n != 15)
      ((d.wr F.HUB_STRAP_state 0 i 3).wr F.OE_STATE_in_service e 0 0).logErr .HUB 0 9 (wmk [(4, 0, i)])

end Sys2Proof.Machine
end

