-- ==== Sys2Proof/Machine/Sec.lean ====
section
/-! DEFINITION. The security engine's keys, fuses and quotes (15_security, R366, R369, R373 to R378). -/

namespace Sys2Proof.Machine

-- Key slots (R375, R376) --------------------------------------------------------------------------------------------------------

/-- State of an HMAC key slot: 0 empty, 1 installed, 2 disabled. -/
def Chip.slotState (c : Chip) (s : Nat) : Nat :=
  if s = 0 && c.fuses.slot0Disabled then 2 else if (smFind c.flash.keys s).isSome then 1 else 0

/-- The key of an installed slot, decrypted under the device-unique key (Table 15.1). -/
def Chip.keyOf (c : Chip) (s : Nat) : Option (List Byte) :=
  match smFind c.flash.keys s with
  | some e => if c.slotState s = 1 && e.under == c.fuses.device then some e.key else none
  | none => none

/-- key_cur and key_next of MGT_AUTH_CFG. -/
def Dev.keyCur (d : Dev) : Nat := d.rd F.MGT_AUTH_CFG_key_cur 0 0
def Dev.keyNext (d : Dev) : Nat := d.rd F.MGT_AUTH_CFG_key_next 0 0

/-- Whether a slot's key may tag a request (check 5 of Table 14.3). -/
def Dev.keyAccepted (d : Dev) (s : Nat) : Bool := s == d.keyCur || (s == d.keyNext && d.keyNext != 15)

/-- Whether a value of MGT_AUTH_CFG names installed slots; 15 in key_next names none. -/
def Chip.authOk (c : Chip) (w : Word) : Bool :=
  c.slotState (fget w 3 0) == 1 && (fget w 7 4 == 15 || c.slotState (fget w 7 4) == 1)

/-- The tag of a message under a slot (R338); under a slot without a key the engine has none to compute. -/
def Chip.tag (c : Chip) (s : Nat) (msg : List Byte) : List Byte :=
  match c.keyOf s with
  | some k => (hmac384 k msg).take 16
  | none => List.replicate 16 0

/-- The state word of Table 15.4. -/
def Chip.stateWord (c : Chip) : Word :=
  wmk ([(63, 58, c.fuses.rollback), (57, 57, b2n c.fuses.debugLocked), (56, 56, b2n c.fuses.owner.isSome),
    (55, 53, c.dev.rd F.HUB_UCIE_STAT_state 0 0)] ++ (List.range 15).map fun s => (2 * s + 1, 2 * s, c.slotState s))

/-- M5 follows a change of keys (Table 15.3). -/
def Chip.measureKeys (c : Chip) : Chip :=
  c.on fun d => d.extend 5 (wordBytes c.stateWord ++ [BitVec.ofNat 8 (d.keyNext * 16 + d.keyCur)])

/-- The management record as the registers hold it (R365, R402). -/
def Dev.mgmtRec (d : Dev) : MgmtRec :=
  { nets := (List.range 2).map (d.rdw .MGT_NET_CFG 0), gws := (List.range 2).map (d.rdw .MGT_NET_GW 0),
    auth := d.rdw .MGT_AUTH_CFG 0 0, dests := (List.range 8).map (d.rdw .MGT_EVT_DEST 0), guard := d.rdw .HUB_GUARD 0 0 }

/-- Saves the management record. (DEDUCED, log 130) -/
def Chip.saveMgmt (c : Chip) : Chip := { c with flash := { c.flash with mgmt := some c.dev.mgmtRec } }

/-- The serial as six bytes, most significant first. -/
def Chip.serialBytes (c : Chip) : List Byte := beBytes 6 c.fuses.serial

/-- The ASCII bytes "KXXM-WRAP". -/
def wrapInfo : List Byte := [0x4B#8, 0x58#8, 0x58#8, 0x4D#8, 0x2D#8, 0x57#8, 0x52#8, 0x41#8, 0x50#8]

/-- The wrapping key: 256 bits of HKDF-SHA-384 of the key_cur key. -/
def Chip.wrapKey (c : Chip) : Option (List Byte) :=
  (c.keyOf c.dev.keyCur).map fun k => (hkdf384 k c.serialBytes wrapInfo).take 32

/-- The wrapped key that SEC_KEY_DATA holds. -/
def Dev.wrapped (d : Dev) : List Byte := (List.range 7).flatMap fun j => wordBytes (d.rdw .SEC_KEY_DATA 0 j)

/-- Installs the wrapped key into an empty slot; none where R375 refuses it. -/
def Chip.installKey (c : Chip) (s : Nat) : Option Chip :=
  if c.slotState s ≠ 0 then none
  else match c.wrapKey.bind fun k => keyUnwrap k c.dev.wrapped with
    | none => none
    | some key =>
      let c := { c with flash := { c.flash with keys := smInsert c.flash.keys s ⟨c.fuses.device, key⟩ } }
      some (c.on fun d => d.each (List.range 7) fun d j => d.wrw .SEC_KEY_DATA 0 j 0).measureKeys

/-- Revokes a slot; none for the key_cur slot. Slot 0 becomes disabled, by fuse. (DEDUCED, log 146) -/
def Chip.revokeKey (c : Chip) (s : Nat) (fuseOk : Bool) : Option Chip :=
  if s = c.dev.keyCur then none
  else
    let c := { c with flash := { c.flash with keys := smErase c.flash.keys s } }
    let c := if s ≠ 0 then c
      else if fuseOk then { c with fuses := { c.fuses with slot0Disabled := true } }
      else c.on fun d => d.logErr .SEC 0 7 0
    let c := if s = c.dev.keyNext then (c.on fun d => d.wr F.MGT_AUTH_CFG_key_next 0 0 15).saveMgmt else c
    some c.measureKeys

/-- A command of SEC_KEY_CMD; `cur` says whether the request is tagged under key_cur. -/
def Chip.keyCmd (c : Chip) (op s : Nat) (cur fuseOk : Bool) : Chip × Nat :=
  let r := if !cur then none else if op = 1 then c.installKey s else c.revokeKey s fuseOk
  match r with
  | some c => (c.on fun d => d.wr F.SEC_KEY_CMD_status 0 0 0, 0)
  | none => (c.on fun d => d.wr F.SEC_KEY_CMD_status 0 0 2, 3)

-- Rollback and owner (R369, R373) -----------------------------------------------------------------------------------------------

/-- A commit of SEC_ROLLBACK: the fuse rises to the version of the running firmware and never falls. -/
def Chip.commitRollback (c : Chip) (fuseOk : Bool) : Chip :=
  let v := c.dev.rd F.SEC_STAT_fw_version 0 0
  if v ≤ c.fuses.rollback then c
  else if !fuseOk then c.on fun d => d.logErr .SEC 0 7 0
  else ({ c with fuses := { c.fuses with rollback := v } } : Chip).on fun d => d.wr F.SEC_STAT_rollback 0 0 v

/-- The owner digests that SEC_OWNER_DATA holds. -/
def Dev.ownerData (d : Dev) : List Byte := (List.range 12).flatMap fun j => wordBytes (d.rdw .SEC_OWNER_DATA 0 j)

/-- Owner enrolment, once. -/
def Chip.enrol (c : Chip) (fuseOk : Bool) : Chip × Nat :=
  if c.fuses.owner.isSome then (c.on fun d => d.wr F.SEC_OWNER_CMD_status 0 0 2, 3)
  else if !fuseOk then (c.on fun d => (d.wr F.SEC_OWNER_CMD_status 0 0 3).logErr .SEC 0 7 0, 0)
  else
    let c := { c with fuses := { c.fuses with owner := some c.dev.ownerData } }
    (c.on fun d => (d.wr F.SEC_OWNER_CMD_status 0 0 0).wr F.SEC_STAT_owner 0 0 1, 0)

-- Quotes (R378) -----------------------------------------------------------------------------------------------------------------

/-- Bytes 0 to 351 of a quote started now (Table 15.4). -/
def Chip.quoteBody (c : Chip) : List Byte :=
  let d := c.dev
  wordBytes (wmk [(63, 56, 1), (55, 48, 6)]) ++ wordBytes (wmk [(47, 0, c.fuses.serial)]) ++
    wordBytes (wmk [(63, 32, c.flash.boots), (31, 0, d.hallNs 2)]) ++
    ((List.range 4).flatMap fun j => wordBytes (d.rdw .SEC_NONCE 0 j)) ++ ((List.range 6).flatMap d.meas) ++
    wordBytes c.stateWord

/-- A start of SEC_QUOTE_CMD. -/
def Chip.quoteStart (c : Chip) : Chip × Nat :=
  if c.dev.on F.SEC_QUOTE_CMD_busy 0 0 then (c.on fun d => d.wr F.SEC_QUOTE_CMD_status 0 0 1, 1)
  else
    let body := c.quoteBody
    (c.on fun d => (({ d with se := { d.se with quote := body, sigs := [] } } : Dev).wr F.SEC_QUOTE_CMD_busy 0 0 1).wr
      F.SEC_QUOTE_CMD_status 0 0 0, 0)

/-- The signatures of a quote (Table 15.4): both identity keys sign the SHA-384 of bytes 0 to 351. Of the randomness, 48 bytes are the
salt and 24 the randomizer of FIPS 205. (DEDUCED, log 200) -/
def Identity.quoteSigs (k : Identity) (body rand : List Byte) : List Byte :=
  let digest := sha384 body
  rsaSign k.modulus k.exponent digest (rand.take 48) ++ k.slh.sign (rand.drop 48) digest

/-- QUOTE_DONE: the signatures over the quote, with the randomness that the engine drew; or a failure of the engine. -/
def Dev.quoteDone (d : Dev) (k : Identity) (ok : Bool) (rand : List Byte) : Dev :=
  if !d.on F.SEC_QUOTE_CMD_busy 0 0 then d
  else
    let d := d.wr F.SEC_QUOTE_CMD_busy 0 0 0
    if ok then ({ d with se := { d.se with sigs := k.quoteSigs d.se.quote rand } } : Dev).wr F.SEC_QUOTE_CMD_status 0 0 0
    else (({ d with se := { d.se with quote := [], sigs := [] } } : Dev).wr F.SEC_QUOTE_CMD_status 0 0 2).logErr .SEC 0 6 0

/-- Word of the quote that SEC_QUOTE_DATA shows; 0 while none is ready. -/
def Dev.quoteWord (d : Dev) (i : Nat) : Word :=
  if d.on F.SEC_QUOTE_CMD_busy 0 0 then 0 else payWord (d.se.quote ++ d.se.sigs ++ List.replicate 8 0) i

end Sys2Proof.Machine
end

