-- ==== Sys2Proof/Machine/RegActions.lean ====
section
/-! DEFINITION. The actions of register writes (WO fields, R9): clears and the commands of the device's blocks. Each answers the
device and the status of the operation (Table 14.4): 0, or 1 busy or 3 invalid where it refuses, with its status field set. -/

namespace Sys2Proof.Machine

/-- Value of a field in a written word. -/
def Fld.of (f : Fld) (w : Word) : Nat := fget w f.hi f.lo

/-- Whether a one-bit field is set in a written word. -/
def Fld.isSet (f : Fld) (w : Word) : Bool := f.of w == 1

-- Clear registers ---------------------------------------------------------------------------------------------------------------

/-- The counts that a clear register clears. -/
def clrOf : Reg → Option Reg
  | .SWC_DROP_CLR => some .SWC_DROP_CNT
  | .TM_DROP_CLR => some .TM_DROP_CNT
  | .FWD_DROP_CLR => some .FWD_DROP_CNT
  | .FWD_EVT_CLR => some .FWD_EVT_CNT
  | .RED_EVT_CLR => some .RED_EVT_CNT
  | .SYNC_DROP_CLR => some .SYNC_DROP_CNT
  | .SYNC_EVT_CLR => some .SYNC_EVT_CNT
  | .RED_LCH_CLR => some .RED_LCH_CNT
  | .OE_EVT_CLR => some .OE_EVT_CNT
  | .BYP_EVT_CLR => some .BYP_EVT_CNT
  | .LANE_EVT_CLR => some .LANE_EVT_CNT
  | .D2D_EVT_CLR => some .D2D_EVT_CNT
  | .HUB_PWR_EVT_CLR => some .HUB_PWR_EVT_CNT
  | .MGT_DROP_CLR => some .MGT_DROP_CNT
  | .TIME_EVT_CLR => some .TIME_EVT_CNT
  | _ => none

/-- The bits of a clear register's WO field. -/
def clearMask (x : Reg) : Word :=
  x.layout.foldl (fun m f => if f.acc == .WO then m ||| fmask f.hi f.lo else m) 0

/-- A write to a clear register: every count whose bit is set becomes 0; bit 5 of D2D_EVT_CLR also clears D2D_DROP_CNT. -/
def Dev.clearCounts (d : Dev) (x cnt : Reg) (u : Nat) (w : Word) : Dev :=
  let d := d.each (bitsOf (w &&& clearMask x)) fun d k => d.wrw cnt u k 0
  if x == .D2D_EVT_CLR && wbit w 5 then d.wr F.D2D_DROP_CNT_frames u 0 0 else d

-- Switch core -------------------------------------------------------------------------------------------------------------------

/-- SWC_MC_CMD (R88, Table 3.21): op 1 reads the selected entry into the buffer, op 2 writes the buffer to the entry on both
dies at one frame boundary. (DESIGN CHOICE, log 34) -/
def Dev.mcCmd (d : Dev) (u op : Nat) : Dev × Nat :=
  let e := d.rd F.SWC_MC_SEL_entry u 0
  if op = 1 then
    ((d.each (List.range 19) fun d w => d.wrw .SWC_MC_DATA u w (d.rdw .VM_MC u (e * 19 + w))).wr F.SWC_MC_CMD_status u 0 0, 0)
  else if op = 2 then
    if (d.mcBlock u e).isNone then (d.wr F.SWC_MC_CMD_status u 0 2, 0)
    else
      let buf := (List.range 19).map (d.rdw .SWC_MC_DATA u)
      let d := d.each [0, 1] fun d k => d.each (List.range 19) fun d w => d.wrw .VM_MC k (e * 19 + w) (buf.getD w 0 &&& Reg.known .VM_MC w)
      (d.wr F.SWC_MC_CMD_status u 0 0, 0)
  else (d, 0)

/-- The switch core's actions. -/
def Dev.actSwc (d : Dev) (x : RegAt) (w : Word) : Dev × Nat :=
  let u := x.unit
  match x.reg with
  | .SWC_AUDIT_CTRL => (if F.SWC_AUDIT_CTRL_start.isSet w then d.auditStart u else d, 0)
  | .SWC_AUDIT_RECLAIM => (if F.SWC_AUDIT_RECLAIM_reclaim.isSet w then d.auditReclaim u else d, 0)
  | .SWC_MC_CMD => d.mcCmd u (F.SWC_MC_CMD_op.of w)
  | .SWC_BND_CMD => (if F.SWC_BND_CMD_settle.isSet w then d.endSettling u (d.rd F.SWC_BND_SEL_bundle u 0) else d, 0)
  | _ => (d, 0)

-- Collectives -------------------------------------------------------------------------------------------------------------------

/-- Stores a descriptor's words, each a word written into the descriptor memory (R415), and clears SYNC_DESC_STAT. -/
def Dev.putDesc (d : Dev) (u n : Nat) (ws : List Word) : Dev :=
  let d := d.each (List.range 27) fun d w => d.wrw .VM_DESC u (n * 27 + w) (ws.getD w 0 &&& Reg.known .VM_DESC w)
  let (d, flip, hit) := d.injectHit 6 u 27
  let k := u * 32768 + n
  let m := if hit = 0 then smErase d.sy.descFlip k else smInsert d.sy.descFlip k flip
  ({ d with sy := { d.sy with descFlip := m } } : Dev).wrw .SYNC_DESC_STAT u n 0

/-- Injected errors in words of a stored descriptor that the device rewrites (R415). -/
def Dev.hitDesc (d : Dev) (u n words : Nat) : Dev :=
  let (d, flip, hit) := d.injectHit 6 u words
  if hit = 0 then d else { d with sy := { d.sy with descFlip := smInsert d.sy.descFlip (u * 32768 + n) flip } }

/-- SYNC_DESC_CMD (R172, R173): read, write or invalidate the selected descriptor. -/
def Dev.descCmd (d : Dev) (u op : Nat) : Dev × Nat :=
  let n := d.rd F.SYNC_DESC_SEL_desc u 0
  let ok := fun (d : Dev) => (d.wr F.SYNC_DESC_CMD_status u 0 0, 0)
  if op = 1 then ok (d.each (List.range 27) fun d w => d.wrw .SYNC_DESC_DATA u w (d.dscW u n w))
  else if op = 2 then
    if (dscOfWords (d.descBuf u)).bad then (d.wr F.SYNC_DESC_CMD_status u 0 2, 3)
    else ok (d.putDesc u n ((List.range 27).map (d.descBuf u)))
  else if op = 3 then
    ok (((d.wrw .VM_DESC u (n * 27) (wset (d.dscW u n 0) 63 false)).hitDesc u n 1).wrw .SYNC_DESC_STAT u n 0)
  else (d, 0)

/-- SYNC_DESC_EXCL go (R195): a leaf leaves the selected descriptor. -/
def Dev.descExcl (d : Dev) (u : Nat) : Dev × Nat :=
  let n := d.rd F.SYNC_DESC_SEL_desc u 0
  let m := d.rd F.SYNC_DESC_EXCL_member u 0
  let c := d.dsc u n
  let st := fun (d : Dev) s => d.wr F.SYNC_DESC_CMD_status u 0 s
  if d.sy.recs.any fun r => r.key.die == u && r.key.desc == n && r.state != .closed then (st d 1, 1)
  else if !c.valid || !c.leaf.getLsbD m || c.members == 1 then (st d 2, 3)
  else
    let k := 3 + m / 64
    let d := d.wrw .VM_DESC u (n * 27 + k) (wset (d.dscW u n k) (m % 64) false)
    (st ((d.wrw .VM_DESC u (n * 27 + 2) (fput (d.dscW u n 2) 63 53 (c.members - 1))).hitDesc u n 2) 0, 0)

/-- The collective block's actions. -/
def Dev.actSync (d : Dev) (x : RegAt) (w : Word) : Dev × Nat :=
  let u := x.unit
  match x.reg with
  | .SYNC_DESC_CMD => d.descCmd u (F.SYNC_DESC_CMD_op.of w)
  | .SYNC_DESC_EXCL => if F.SYNC_DESC_EXCL_go.isSet w then d.descExcl u else (d, 0)
  | .RED_KAT_CTRL => (if F.RED_KAT_CTRL_start.isSet w then d.katStart u else d, 0)
  | .FWD_CMD => (if F.FWD_CMD_op.of w = 0 then d else d.tblStart u (F.FWD_CMD_op.of w), 0)
  | _ => (d, 0)

-- Lanes, dies and time ----------------------------------------------------------------------------------------------------------

/-- LANE_CFG clr_fec: the lane's counts and its 17 bins. -/
def Dev.clearFec (d : Dev) (u n : Nat) : Dev :=
  (d.each (List.range 17) fun d b => d.wrw .LANE_FEC_HDATA u (n * 32 + b) 0).wrw .LANE_FEC_CNT u n 0

/-- The actions of LANE_PORT_CTRL on a port: retrain, idle (R285), wake (R286). -/
def Dev.portCmd (d : Dev) (p : Nat) (w : Word) : Dev :=
  let d := if F.LANE_PORT_CTRL_retrain.isSet w && d.prd F.LANE_PORT_CTRL_hold p = 0 then d.linkDown p true else d
  let d := if F.LANE_PORT_CTRL_idle.isSet w then d.idleCommand p else d
  if F.LANE_PORT_CTRL_wake.isSet w then d.leaveIdle p else d

/-- The actions of the lane, rhizoid and time blocks and of the counter sets. -/
def Dev.actLane (d : Dev) (x : RegAt) (i : Nat) (w : Word) : Dev :=
  let u := x.unit
  match x.reg with
  | .LANE_CFG => if F.LANE_CFG_clr_fec.isSet w then d.clearFec u i else d
  | .LANE_PAT => if F.LANE_PAT_clear.isSet w then d.wr F.LANE_PAT_STAT_errors u i 0 else d
  | .LANE_PORT_CTRL => d.portCmd (512 * u + i) w
  | .D2D_CTRL => if F.D2D_CTRL_retrain.isSet w then d.d2dRetrain u else d
  | .TIME_ADJ => { d with time := { d.time with pendAdj := d.time.pendAdj + w.toInt } }
  | .MEM_FR_CTRL => if F.MEM_FR_CTRL_snap.isSet w then d.flightSnap else d
  | .CNT_CTRL =>
    let c := (u, i / 32)
    if F.CNT_CTRL_clear.isSet w && !d.time.cntClear.contains c then
      { d with time := { d.time with cntClear := d.time.cntClear ++ [c] } }
    else d
  | _ => d

-- Optics ------------------------------------------------------------------------------------------------------------------------

/-- OE_FEED_PWR clr_min: the minimum becomes the present level. -/
def Dev.clearMin (d : Dev) (e i : Nat) : Dev :=
  let k := e * 32 + i
  let s := if d.oe.minSet.contains k then d.oe.minSet else d.oe.minSet ++ [k]
  ({ d with oe := { d.oe with minSet := s } } : Dev).wr F.OE_FEED_PWR_min e i (d.rd F.OE_FEED_PWR_level e i)

/-- OE_CAL_CMD (R243, R245, R330): a commit or recalibration starts unless one runs. A tripped engine comes back only when its
case is below 70 °C. -/
def Chip.oeCal (c : Chip) (e : Nat) (w : Word) : Chip × Nat :=
  let commit := F.OE_CAL_CMD_commit.isSet w
  let recal := F.OE_CAL_CMD_recal.isSet w
  let d := c.dev
  let refuse := fun s => (c.on fun d => d.wr F.OE_CAL_STAT_last e 0 2, s)
  let hot := d.pw.tripped.contains e && decide (1120 ≤ s16 (d.rd F.OE_THERM_case e 0))
  if !commit && !recal then (c, 0)
  else if d.on F.OE_CAL_STAT_busy e 0 || d.oe.settling.contains e then refuse 1
  else if (commit && recal) || (commit && !d.engineRuns e) || (recal && hot) then refuse 3
  else if commit then (c.on fun d => d.wr F.OE_CAL_STAT_busy e 0 1, 0)
  else
    let c := c.on fun d => { d with pw := { d.pw with tripped := d.pw.tripped.filter (· != e) } }
    (c.recalEngine e, 0)

/-- CALIBRATION_COMMIT_DONE (R243): the flash write of an engine's section ends. -/
def Chip.oeCommitDone (c : Chip) (e : Nat) (ok : Bool) : Chip :=
  let d := c.dev
  if !d.on F.OE_CAL_STAT_busy e 0 || d.oe.settling.contains e || !d.hubRuns then c
  else if !ok then
    c.on fun d => ((d.wr F.OE_CAL_STAT_busy e 0 0).wr F.OE_CAL_STAT_last e 0 3).logErr .OE e 6 0
  else
    let s := c.section (2 + e)
    let n := Nat.min 65535 (s.commits + 1)
    let c := { c with flash := { c.flash with cal := smInsert c.flash.cal (2 + e) ⟨true, true, n, d.oeSection e⟩ } }
    c.on fun d => (((d.wr F.OE_CAL_STAT_busy e 0 0).wr F.OE_CAL_STAT_last e 0 1).wr F.OE_CAL_STAT_user e 0 1).wr
      F.OE_CAL_STAT_commits e 0 n

/-- BYP_CAL_CMD commit (R261). -/
def Dev.bypCal (d : Dev) (q : Nat) (w : Word) : Dev × Nat :=
  if !F.BYP_CAL_CMD_commit.isSet w then (d, 0)
  else if d.on F.BYP_CAL_STAT_busy q 0 then (d.wr F.BYP_CAL_STAT_last q 0 2, 1)
  else (d.wr F.BYP_CAL_STAT_busy q 0 1, 0)

/-- The working values of a quad as its section would hold them: the tap offsets, then its working phase table. -/
def Dev.bypSection (d : Dev) (q : Nat) : List Nat :=
  (List.range 64).map (fun k => smGet d.by_.offs (q * 64 + k) 0) ++ smGet d.by_.phases q []

/-- The commit of a quad's section ends (R261, R243). -/
def Chip.bypCommitDone (c : Chip) (q : Nat) (ok : Bool) : Chip :=
  if !c.dev.on F.BYP_CAL_STAT_busy q 0 || !c.dev.hubRuns then c
  else if !ok then
    c.on fun d => ((d.wr F.BYP_CAL_STAT_busy q 0 0).wr F.BYP_CAL_STAT_last q 0 3).logErr .BYP q 5 0
  else
    let s := c.section (18 + q)
    let n := Nat.min 65535 (s.commits + 1)
    let c := { c with flash := { c.flash with cal := smInsert c.flash.cal (18 + q) ⟨true, true, n, c.dev.bypSection q⟩ } }
    c.on fun d => (((d.wr F.BYP_CAL_STAT_busy q 0 0).wr F.BYP_CAL_STAT_last q 0 1).wr F.BYP_CAL_STAT_user q 0 1).wr
      F.BYP_CAL_STAT_commits q 0 n

/-- The optical blocks' device actions; a refused command answers with its status. -/
def Dev.actOptics (d : Dev) (x : RegAt) (i : Nat) (w : Word) : Dev × Nat :=
  let u := x.unit
  let st := fun (d : Dev) (f : Fld) (op : Nat) =>
    (d, if op = 0 then 0 else match d.rd f u 0 with
      | 1 => 1
      | 2 => 3
      | _ => 0)
  match x.reg with
  | .OE_CMD => let op := F.OE_CMD_op.of w; st (d.oeCmd u op (F.OE_CMD_wl.of w)) F.OE_CMD_status op
  | .OE_FEED_PWR => (if F.OE_FEED_PWR_clr_min.isSet w then d.clearMin u i else d, 0)
  | .BYP_CMD =>
    let op := F.BYP_CMD_op.of w
    st (d.bypCmd u op (F.BYP_CMD_input.of w) (F.BYP_CMD_take.isSet w)) F.BYP_CMD_status op
  | .BYP_CAL_CMD => d.bypCal u w
  | _ => (d, 0)

-- Hub ---------------------------------------------------------------------------------------------------------------------------

/-- HUB_ERING_SEL clear: the ring is empty and its counts are 0. -/
def Dev.clearRing (d : Dev) : Dev := ({ d with ev := { d.ev with ring := [] } } : Dev).wrw .HUB_ERING_STAT 0 0 0

/-- Whether the op of HUB_DIE_CTRL fits its target and confirm code (Table 12.10). -/
def dieOpOk (op target confirm : Nat) : Bool :=
  match op with
  | 1 | 2 => target ≤ 1
  | 3 => 2 ≤ target && target ≤ 17
  | 4 => 18 ≤ target && target ≤ 21
  | 5 => confirm == 0x5E7A
  | _ => false

/-- Whether the target of an op of HUB_DIE_CTRL is in a state that the op serves: a rejoin needs a parked die with a good strap
word and its clock, a reset a die in service; a tripped engine comes back by OE_CAL_CMD alone (Table 13.7). -/
def Dev.dieOpFits (d : Dev) (op i : Nat) : Bool :=
  let good := !d.on F.HUB_STRAP_bad 0 i
  match op with
  | 1 => good
  | 2 => d.dieState i == 2 && good && !d.pw.clocks.contains i
  | 3 => good && !d.pw.tripped.contains (i - 2)
  | 4 => good
  | _ => true

/-- HUB_DIE_CTRL (R310, R316, R414). A package reset follows once the request is answered; `restart` marks it while the hub still
runs. (DESIGN CHOICE, log 100; DEDUCED, log 116) -/
def Chip.dieCtrl (c : Chip) (w : Word) : Chip × Nat :=
  let op := F.HUB_DIE_CTRL_op.of w
  let i := F.HUB_DIE_CTRL_target.of w
  let ok := fun (c : Chip) => (c.on fun d => d.wr F.HUB_DIE_CTRL_status 0 0 0, 0)
  if op = 0 then (c, 0)
  else if !dieOpOk op i (F.HUB_DIE_CTRL_confirm.of w) || !c.dev.dieOpFits op i then
    (c.on fun d => d.wr F.HUB_DIE_CTRL_status 0 0 2, 3)
  else match op with
  | 1 => ok (c.on fun d =>
      if d.dieRuns i then let d := d.coreReset i; d.hubEvent 0 (d.rdw .HUB_STRAP 0 i) 0 else d)
  | 2 => ok (c.rejoin i)
  | 5 => ok (c.on fun d => { d with pw := { d.pw with restart := true } })
  | _ => ok (c.resetSide i true)

/-- HUB_INJ_CTRL arm (R415, R416): an arm for the next words written into a memory, or fatal cause 9 at once.
(DEDUCED, log 115) -/
def Chip.inject (c : Chip) (w : Word) : Chip × Nat :=
  if !F.HUB_INJ_CTRL_arm.isSet w then (c, 0)
  else
    let t := F.HUB_INJ_CTRL_target.of w
    let c := c.on fun d => d.wr F.HUB_INJ_CTRL_status 0 0 0
    let die := F.HUB_INJ_CTRL_die.of w
    if t = 9 then ((if c.dev.canFail die 9 then c.on fun d => d.inc F.HUB_INJ_STAT_done 0 0 1 else c).fatal die 9, 0)
    else if t = 0 then (c, 0)
    else (c.on fun d => (d.wr F.HUB_INJ_CTRL_busy 0 0 1).wr F.HUB_INJ_STAT_remaining 0 0 (F.HUB_INJ_CTRL_count.of w), 0)

/-- The hub's actions. `cur` says whether the request is tagged under key_cur, `fuseOk` whether fuses blow. -/
def Chip.actHub (c : Chip) (x : RegAt) (w : Word) (cur fuseOk : Bool) : Chip × Nat :=
  match x.reg with
  | .HUB_DIE_CTRL => c.dieCtrl w
  | .HUB_INJ_CTRL => c.inject w
  | .HUB_ERING_SEL => (if F.HUB_ERING_SEL_clear.isSet w then c.on Dev.clearRing else c, 0)
  | .HUB_UCIE_CTRL => (if F.HUB_UCIE_CTRL_readmit.isSet w then c.on Dev.ucieReadmit else c, 0)
  | .SEC_ROLLBACK => (if F.SEC_ROLLBACK_commit.isSet w then c.commitRollback fuseOk else c, 0)
  | .SEC_OWNER_CMD => if F.SEC_OWNER_CMD_enrol.isSet w then c.enrol fuseOk else (c, 0)
  | .SEC_KEY_CMD =>
    let op := F.SEC_KEY_CMD_op.of w
    if op = 0 then (c, 0) else c.keyCmd op (F.SEC_KEY_CMD_slot.of w) cur fuseOk
  | .SEC_KEY_DATA => (if w = 0 then c else c.on fun d => d.wrw .SEC_KEY_DATA 0 x.idx w, 0)
  | .SEC_QUOTE_CMD => if F.SEC_QUOTE_CMD_start.isSet w then c.quoteStart else (c, 0)
  | .HUB_GUARD | .MGT_NET_CFG | .MGT_NET_GW | .MGT_EVT_DEST | .MGT_AUTH_CFG => (c.saveMgmt, 0)
  | .OE_CAL_CMD => c.oeCal x.unit w
  | _ => (c, 0)

end Sys2Proof.Machine
end

