-- ==== Sys2Proof/Machine/RegAccess.lean ====
section
/-! DEFINITION. One register operation of a KXX-M request (R13, R14, R342, R343, R429 to R434): a write, a read. -/

namespace Sys2Proof.Machine

-- Reach -------------------------------------------------------------------------------------------------------------------------

/-- Blocks that recovery mode serves (R372). (DEDUCED, log 124) -/
def RegAt.inRecovery (x : RegAt) : Bool :=
  match x.reg.block with
  | .HUB | .MGT | .SEC => true
  | _ => false

/-- Whether a write of `w` reaches a register's die (R431). The recal of an engine that left service by its thermal trip does, as R330
has it bring the engine back. (DEDUCED, log 86) -/
def Dev.writeReaches (d : Dev) (x : RegAt) (w : Word) : Bool :=
  d.available x || (x.reg == .OE_CAL_CMD && d.dieState (2 + x.unit) == 3 && d.pw.tripped.contains x.unit &&
    F.OE_CAL_CMD_recal.isSet w)

/-- Counts a register operation (R430, Table 18.2). -/
def Dev.countOp (d : Dev) : Dev := d.cnt ⟨2, 1⟩ 2

-- Writes ------------------------------------------------------------------------------------------------------------------------

/-- The field in which a register's own command shows its refusal, with the values for busy and invalid. -/
def Reg.statusFld : Reg → Option Fld
  | .HUB_DIE_CTRL => some F.HUB_DIE_CTRL_status
  | .HUB_INJ_CTRL => some F.HUB_INJ_CTRL_status
  | .SWC_MC_CMD => some F.SWC_MC_CMD_status
  | .SYNC_DESC_CMD | .SYNC_DESC_EXCL => some F.SYNC_DESC_CMD_status
  | .OE_CMD => some F.OE_CMD_status
  | .BYP_CMD => some F.BYP_CMD_status
  | .SEC_OWNER_CMD => some F.SEC_OWNER_CMD_status
  | .SEC_KEY_CMD => some F.SEC_KEY_CMD_status
  | .SEC_QUOTE_CMD => some F.SEC_QUOTE_CMD_status
  | .OE_CAL_CMD => some F.OE_CAL_STAT_last
  | .BYP_CAL_CMD => some F.BYP_CAL_STAT_last
  | _ => none

/-- A write refused before it acts: a refused start of a known-answer test shows in RED_KAT_STAT, a refused arm in its status
field, a busy multicast or descriptor command in its own. -/
def Dev.refuse (d : Dev) (x : RegAt) (w : Word) (s : Nat) : Dev :=
  match x.reg with
  | .RED_KAT_CTRL => if s = 1 && F.RED_KAT_CTRL_start.isSet w then d.wr F.RED_KAT_STAT_last x.unit 0 3 else d
  | .HUB_INJ_CTRL => if F.HUB_INJ_CTRL_arm.isSet w then d.wr F.HUB_INJ_CTRL_status 0 0 (if s = 1 then 1 else 2) else d
  | .SWC_MC_CMD => if s = 1 then d.wr F.SWC_MC_CMD_status x.unit 0 1 else d
  | .SYNC_DESC_CMD => if s = 1 then d.wr F.SYNC_DESC_CMD_status x.unit 0 1 else d
  | _ => d

/-- Advances a selector field from its last word `last` to 0; the next selector follows where `up` names it.
(DEDUCED, log 137) -/
def Dev.bump (d : Dev) (f : Fld) (u last : Nat) (up : Option Fld) : Dev :=
  let v := d.rd f u 0
  if v < last then d.wr f u 0 (v + 1)
  else
    let d := d.wr f u 0 0
    match up with
    | some g => d.incWrap g u 0 1
    | none => d

/-- Advances a selector that holds at its last word (R434). -/
def Dev.bumpHold (d : Dev) (f : Fld) (u last : Nat) : Dev := d.wr f u 0 (Nat.min last (d.rd f u 0 + 1))

/-- The device's actions of a write, by block. -/
def Dev.act (d : Dev) (x : RegAt) (i : Nat) (w : Word) : Dev × Nat :=
  match clrOf x.reg with
  | some cnt => (d.clearCounts x.reg cnt x.unit w, 0)
  | none => match x.reg.block with
    | .SWC => if x.reg == .SWC_MC_DATA then (d.bumpHold F.SWC_MC_SEL_word x.unit 18, 0) else d.actSwc x w
    | .RED | .FWD =>
      if x.reg == .SYNC_DESC_DATA then (d.bumpHold F.SYNC_DESC_SEL_word x.unit 26, 0) else d.actSync x w
    | .OE | .BYP => d.actOptics x i w
    | _ => (d.actLane x i w, 0)

/-- The actions of a write: those of the device, then those that fuses, flash or the whole package take part in. -/
def Chip.act (c : Chip) (x : RegAt) (i : Nat) (w : Word) (cur fuseOk : Bool) : Chip × Nat :=
  let r := c.dev.act x i w
  let q := ({ c with dev := r.1 } : Chip).actHub x w cur fuseOk
  (q.1, if r.2 = 0 then q.2 else r.2)

/-- A refused command leaves its register as it was but for its status field. -/
def Chip.revert (c before : Chip) (x : RegAt) : Chip :=
  match x.reg.statusFld with
  | some f => before.on fun d => d.wr f x.unit 0 (c.dev.rd f x.unit 0)
  | none => before

/-- The effect of a write that R13, R14 and the limits let through. -/
def Chip.writeThrough (c : Chip) (x : RegAt) (i : Nat) (old w : Word) (cur fuseOk : Bool) : Chip × Nat :=
  let new := mergeWord old w x.reg.layout
  let c' := c.on fun d => (d.wrw x.reg x.unit i new).afterWrite d x i old new
  let r := c'.act x i w cur fuseOk
  if r.2 ≠ 0 then (r.1.revert c x, r.2)
  else (if x.reg == .MGT_AUTH_CFG && old != new then r.1.measureKeys else r.1, 0)

/-- One write operation (R14, R342): the device after it and its status (Table 14.4). -/
def Chip.regWrite (c : Chip) (a w : Word) (cur fuseOk : Bool) : Chip × Nat :=
  let c := c.on Dev.countOp
  match decodeAddr a.toNat with
  | none => (c, 4)
  | some x =>
    if c.dev.on F.SEC_STAT_recovery 0 0 then (c, 4)
    else if !c.dev.writeReaches x w then (c, 5)
    else
      let i := c.dev.selIdx x
      let old := c.dev.rdw x.reg x.unit i
      let s := c.dev.writeStatus x old w
      if s ≠ 0 then (c.on fun d => d.refuse x w s, s)
      else if x.reg == .MGT_AUTH_CFG && !c.authOk w then (c, 3)
      else c.writeThrough x i old w cur fuseOk

-- Reads -------------------------------------------------------------------------------------------------------------------------

/-- Bits of a register that read 0: WO fields, and the wrapped key. -/
def Reg.readMask (r : Reg) : Word :=
  r.layout.foldl (fun m f => if f.acc == .WO then m &&& ~~~fmask f.hi f.lo else m) (BitVec.allOnes 64)

/-- FWD_LRN_STAT: the entries of a die's logical table by kind. -/
def Dev.lrnStat (d : Dev) (die : Nat) : Word :=
  let es := (d.fw.logical.filter fun e => e.1 / 262144 == die).map fun e => e.2.kind
  let n := fun (p : Nat → Bool) => (es.filter p).length
  wmk [(56, 38, n fun k => k == 0), (37, 19, n fun k => k == 1), (18, 0, n fun k => 2 ≤ k)]

/-- Microseconds left on a die's drain timer. -/
def Dev.drainLeft (d : Dev) (die : Nat) : Nat :=
  if !d.on F.FWD_EPOCH_draining die 0 then 0
  else d.rd F.FWD_EPOCH_remain die 0 - (d.tick - smGet d.fw.drainStart die d.tick) * 4 / 625

/-- SWC_BND_INFO of the selected bundle and member. -/
def Dev.bndInfo (d : Dev) (u b : Nat) : Word :=
  let ms := smGet d.cfg.bundles b []
  let m := d.rd F.SWC_BND_SEL_member u 0
  let settling := d.sw.oldMap.any fun e => e.1 % 1024 == b && (if e.1 / 1024 < 1024 then laneDie (e.1 / 1024) == u else false)
  wmk [(18, 18, b2n settling), (17, 17, b2n (wbit (d.selMask u b) m)), (16, 7, ms.getD m 0), (6, 0, ms.length)]

/-- TM_Q_STAT of a queue group. -/
def Dev.queueStat (d : Dev) (u i : Nat) : Word :=
  let p := 512 * u + i / 8
  let c := i % 8
  wmk [(50, 38, d.headDelay p c), (37, 19, smGet d.tm.redAvg (qgKey u p c) 0 / 65536), (18, 0, d.depth u p c)]

/-- TM_SAMP_DATA: the selected entry of a queue group's ring. -/
def Dev.sampWord (d : Dev) (u i : Nat) : Word :=
  match smFind d.tm.samples (sampKey (512 * u + i / 8) (i % 8) (d.rd F.TM_QSEL_entry u 0)) with
  | some s => wmk [(63, 32, s.time), (31, 13, s.depth), (12, 0, s.delay)]
  | none => 0

/-- LANE_STAT state of a lane (Table 11.14). -/
def Dev.laneState (d : Dev) (lane : Nat) : Nat :=
  if d.laneTest lane then 6
  else match d.portOf lane with
    | none => 0
    | some p => match d.portState p with
      | 1 => 2
      | 2 | 5 => 3
      | 3 => 4
      | 4 => 5
      | _ => 1

/-- LANE_STAT: state and wavelength with the fields that training keeps; a lane in no port has no wavelength (Table 11.14). -/
def Dev.laneStat (d : Dev) (lane : Nat) : Word :=
  let w := d.rdw .LANE_STAT (laneDie lane) (lane % 512)
  fput (fput w 63 61 (d.laneState lane)) 55 52 (if d.electrical lane then 15 else if (d.portOf lane).isSome then d.carryOf lane else 0)

/-- LANE_PORT_STAT: with the unacknowledged blocks. -/
def Dev.portStat (d : Dev) (port : Nat) : Word :=
  fput (d.rdw .LANE_PORT_STAT (laneDie port) (port % 512)) 22 16 (d.txLink port).replay.length

/-- MGT_BLK_STAT of a job block (R349). -/
def Dev.blkStat (d : Dev) (b : Nat) : Word :=
  wmk [(63, 63, b2n (d.isQuiesced b)), (47, 32, Nat.min 65535 (d.blockChunks b)), (31, 0, Nat.min (2 ^ 32 - 1) (d.blockFrames b))]

/-- The identity certificate that SEC_CERT_SEL selects. -/
def Chip.certOf (c : Chip) : List Byte := smGet c.flash.certs (c.dev.rd F.SEC_CERT_SEL_cert 0 0) []

/-- D2D_STAT with the headless timer's remaining milliseconds (R312). -/
def Dev.d2dStat (d : Dev) (die : Nat) : Word :=
  let left := match smFind d.pw.entered die with
    | some t => 30000 - (d.tick - t) / 156250
    | none => 0
  fput (d.rdw .D2D_STAT die 0) 47 32 left

/-- The injected error in the word `w` of a stored flight-recorder record: 0, 1 or 2 bits (R415). -/
def Dev.flightFlip (d : Dev) (entry w : Nat) : Nat :=
  match smFind d.ev.flightFlip entry with
  | some (bits, n) => if w / 8 < n then bits else 0
  | none => 0

/-- A word of the flight recorder. What an uncorrectable error leaves of it no rule says. (DESIGN CHOICE, log 181) -/
def Dev.flightWord (d : Dev) (entry w : Nat) : Word :=
  let x := (smGet d.ev.flight entry []).getD w 0
  if d.flightFlip entry w = 2 then x ^^^ Config.flightError entry w else x

/-- A read of the selected word of the flight recorder counts as one of 64 B of GDDR7, corrected where a bit was flipped (R415,
Table 18.2). -/
def Dev.countFlight (d : Dev) : Dev :=
  let e := d.rd F.MEM_FR_SEL_entry 0 0
  if (smFind d.ev.flight e).isNone then d
  else
    let d' := d.cnt ⟨2, 4⟩ 1
    if d.flightFlip e (d.rd F.MEM_FR_SEL_word 0 0) = 1 then d'.cnt ⟨2, 4⟩ 3 else d'

/-- The word that a register shows now: those the device computes, else the stored one. -/
def Chip.showReg (c : Chip) (x : RegAt) (i : Nat) : Word :=
  let d := c.dev
  let u := x.unit
  match x.reg with
  | .SWC_BND_INFO => d.bndInfo u i
  | .SWC_BND_LIVE => d.liveMask i
  | .TM_Q_STAT => d.queueStat u i
  | .TM_SAMP_DATA => d.sampWord u i
  | .SEC_QUOTE_DATA => d.quoteWord (d.rd F.SEC_QUOTE_CMD_word 0 0)
  | .SEC_CERT_SEL => fput (d.rdw .SEC_CERT_SEL 0 0) 47 32 c.certOf.length
  | .SEC_CERT_DATA => payWord (c.certOf ++ List.replicate 8 0) (d.rd F.SEC_CERT_SEL_word 0 0)
  | .TIME_CAP_DATA =>
    smGet d.time.caps ((d.rd F.TIME_CAP_SEL_src 0 0 * 16 + d.rd F.TIME_CAP_SEL_entry 0 0) * 4 + d.rd F.TIME_CAP_SEL_word 0 0) 0
  | .TIME_CAP_SEL => fput (d.rdw .TIME_CAP_SEL 0 0) 15 12 (smGet d.time.capNext (d.rd F.TIME_CAP_SEL_src 0 0 + 1) 0)
  | .TIME_NOW => BitVec.ofNat 64 d.time.hall
  | .HUB_ERING_DATA =>
    match smFind d.ev.ring (d.rd F.HUB_ERING_SEL_entry 0 0) with
    | some r => [r.e0, r.e1, r.e2, r.e3].getD (d.rd F.HUB_ERING_SEL_word 0 0) 0
    | none => 0
  | .MEM_FR_DATA => d.flightWord (d.rd F.MEM_FR_SEL_entry 0 0) (d.rd F.MEM_FR_SEL_word 0 0)
  | .CNT_TICK => BitVec.ofNat 64 (d.ticksOf u)
  | .FWD_MISS_STAT => wmk [(20, 9, d.missCells u), (8, 0, d.missKeys u)]
  | .FWD_LRN_STAT => d.lrnStat u
  | .FWD_EPOCH => fput (d.rdw .FWD_EPOCH u 0) 31 16 (d.drainLeft u)
  | .LANE_STAT => d.laneStat (512 * u + i)
  | .LANE_PORT_STAT => d.portStat (512 * u + i)
  | .MGT_EVT_STAT => wmk [(63, 32, d.ev.seq), (31, 16, d.ev.history.length), (15, 0, d.rd F.MGT_EVT_STAT_lost 0 0)]
  | .MGT_BLK_STAT => d.blkStat i
  | .MGT_IMG_DIG => payWord d.cfg.digest i
  | .HUB_PWR_EST => d.pwrEst
  | .HUB_PWR_STAT => fput (d.rdw .HUB_PWR_STAT 0 0) 45 32 d.railNow
  | .HUB_BOOT_STAT => d.bootStat
  | .D2D_STAT => d.d2dStat u
  | .SEC_KEY_DATA => 0
  | r => d.rdw r u i

/-- The selector that a read of a data window advances (R433, R434). -/
def Dev.readAdvance (d : Dev) (x : RegAt) : Dev :=
  let u := x.unit
  match x.reg with
  | .SWC_MC_DATA => d.bumpHold F.SWC_MC_SEL_word u 18
  | .TM_SAMP_DATA => d.bumpHold F.TM_QSEL_entry u 63
  | .SYNC_DESC_DATA => d.bumpHold F.SYNC_DESC_SEL_word u 26
  | .SYNC_HIST_DATA => d.bumpHold F.SYNC_HIST_SEL_item u 1039
  | .LANE_FEC_HDATA => d.bump F.LANE_FEC_HSEL_bin u 16 none
  | .SEC_QUOTE_DATA => d.bumpHold F.SEC_QUOTE_CMD_word 0 2119
  | .SEC_CERT_DATA => d.bumpHold F.SEC_CERT_SEL_word 0 4095
  | .TIME_CAP_DATA => d.bump F.TIME_CAP_SEL_word 0 3 (some F.TIME_CAP_SEL_entry)
  | .HUB_ERING_DATA => d.bump F.HUB_ERING_SEL_word 0 3 (some F.HUB_ERING_SEL_entry)
  | .MEM_FR_DATA => d.countFlight.bump F.MEM_FR_SEL_word 0 31 (some F.MEM_FR_SEL_entry)
  | _ => d

/-- One read operation: the device after it, its status and the data. -/
def Chip.regRead (c : Chip) (a : Word) : Chip × Nat × Word :=
  let c := c.on Dev.countOp
  match decodeAddr a.toNat with
  | none => (c, 4, 0)
  | some x =>
    if c.dev.on F.SEC_STAT_recovery 0 0 && !x.inRecovery then (c, 4, 0)
    else if !c.dev.available x then (c, 5, 0)
    else if !c.dev.selects x then (c.on fun d => d.readAdvance x, 0, 0)
    else (c.on fun d => d.readAdvance x, 0, c.showReg x (c.dev.selIdx x) &&& x.reg.readMask)

end Sys2Proof.Machine
end

