-- ==== Sys2Proof/Machine/Mgmt.lean ====
section
/-! DEFINITION. KXX-M (14_management_and_image, R333 to R349, R358): the checks of Table 14.3, requesters and their answers,
register requests, events, and what else arrives on a management port. -/

namespace Sys2Proof.Machine

/-- A KXX-M message as it arrives (R337): header words, payload and tag. The kind of M0 is the row's own. -/
structure KxxMsg where
  m0 : Word
  m1 : Word
  m2 : Word
  m3 : Word
  payload : List Byte
  tag : List Byte
  deriving DecidableEq, Repr

/-- What the headers of a UDP datagram over IPv4 say of its way (R335): the MAC and IPv4 address and the UDP port it goes to, the
VID of its tag, 0 where it has none, and whether it is without options and unfragmented. -/
structure Wire where
  mac : BitVec 48
  vid : BitVec 12
  addr : BitVec 32
  udp : BitVec 16
  plain : Bool
  deriving DecidableEq, Repr

/-- Where a datagram comes from: the management port it arrives on, its IPv4 source and UDP source port; and its headers. -/
structure Sender where
  port : Fin 8
  addr : BitVec 32
  udp : BitVec 16
  to_ : Wire
  deriving DecidableEq, Repr

-- The wire ----------------------------------------------------------------------------------------------------------------------

/-- Network of a management port: 0 for A, 1 for B (R333). -/
def netOf (port : Nat) : Nat := port / 4

/-- Whether a management port's link is up while the hub runs. (DEDUCED, log 119) -/
def Dev.mgmtUp (d : Dev) (port : Nat) : Bool := d.hubRuns && wbit (d.rdw .MGT_PORT_STAT 0 0) port

/-- The next hop of a network toward an address (Table 14.14): the address itself within the prefix, else the gateway.
(DEDUCED, log 123) -/
def Dev.nextHop (d : Dev) (net addr : Nat) : Option Nat :=
  let s := 2 ^ (32 - d.rd F.MGT_NET_CFG_prefix 0 net)
  let gw := d.rd F.MGT_NET_GW_gateway 0 net
  if addr / s = d.rd F.MGT_NET_CFG_addr 0 net / s then some addr else if gw = 0 then none else some gw

/-- What a network sends under (R334): MGT_MAC base for A and base + 1 for B, its address and its VLAN ID. -/
def Dev.netId (d : Dev) (net : Nat) : NetId :=
  ⟨(d.rd F.MGT_MAC_base 0 0 + net) % 2 ^ 48, d.rd F.MGT_NET_CFG_addr 0 net, d.rd F.MGT_NET_CFG_vid 0 net⟩

/-- Whether a datagram that reaches a port is KXX-M under R335. (DEDUCED, log 133) -/
def Dev.takesWire (d : Dev) (port : Nat) (w : Wire) : Bool :=
  d.netId (netOf port) == ⟨w.mac.toNat, w.addr.toNat, w.vid.toNat⟩ && w.udp.toNat == 47404 && w.plain

/-- Sends a datagram as the network was configured in `at_`: an answer leaves from the address its request reached (R365). -/
def Dev.sendDgram (d at_ : Dev) (port addr udp : Nat) (bytes : List Byte) : Dev :=
  match at_.nextHop (netOf port) addr with
  | some via => d.emit (.dgram port (at_.netId (netOf port)) addr udp via bytes)
  | none => d

/-- A message of the device (Table 14.1), tagged under key_cur (R338). -/
def Chip.message (c : Chip) (kind requester seq status : Nat) (payload : List Byte) : List Byte :=
  let k := c.dev.keyCur
  let m := wordBytes (wmk [(63, 60, 1), (55, 48, kind), (47, 44, requester), (31, 0, seq)]) ++
    wordBytes (wmk [(63, 16, c.fuses.serial), (15, 8, k)]) ++
    wordBytes (wmk [(63, 32, c.flash.boots), (31, 16, payload.length), (15, 0, status)]) ++ wordBytes 0 ++ payload
  m ++ c.tag k m

-- The checks (Table 14.3) -------------------------------------------------------------------------------------------------------

/-- The header of a message whose kind is `kind`. -/
def KxxMsg.word0 (m : KxxMsg) (kind : Nat) : Word := fput m.m0 55 48 kind

/-- The bytes that the tag covers. -/
def KxxMsg.signed (m : KxxMsg) (kind : Nat) : List Byte :=
  wordBytes (m.word0 kind) ++ wordBytes m.m1 ++ wordBytes m.m2 ++ wordBytes m.m3 ++ m.payload

/-- Requester, sequence and key slot of a message, and its stop flag. -/
def KxxMsg.requester (m : KxxMsg) : Nat := fget m.m0 47 44
def KxxMsg.seq (m : KxxMsg) : Nat := fget m.m0 31 0
def KxxMsg.slot (m : KxxMsg) : Nat := fget m.m1 15 8
def KxxMsg.stop (m : KxxMsg) : Bool := wbit m.m1 0

/-- Check 2: the datagram's length. -/
def KxxMsg.badLength (m : KxxMsg) : Bool :=
  let n := 32 + m.payload.length + m.tag.length
  decide (n < 48) || decide (1472 < n) || m.tag.length != 16 || fget m.m2 31 16 != m.payload.length

/-- Check 3: version, reserved bits, and the status that a request leaves 0. (DEDUCED, log 118) -/
def KxxMsg.badHeader (m : KxxMsg) : Bool :=
  fget m.m0 63 60 != 1 || fget m.m0 59 56 != 0 || fget m.m0 43 32 != 0 || fget m.m1 7 1 != 0 || fget m.m2 15 0 != 0 || m.m3 != 0

/-- The first of checks 2 to 7 that a message of a kind fails; hello skips the boot count. -/
def Chip.failedCheck (c : Chip) (m : KxxMsg) (kind : Nat) : Option Nat :=
  if m.badLength then some 2
  else if m.badHeader then some 3
  else if fget m.m1 63 16 ≠ c.fuses.serial then some 4
  else if !c.dev.keyAccepted m.slot then some 5
  else if (c.keyOf m.slot).isNone || m.tag != c.tag m.slot (m.signed kind) then some 6
  else if kind ≠ 3 && fget m.m2 63 32 ≠ c.flash.boots then some 7
  else none

/-- What R340 says of a sequence. -/
inductive SeqClass where
  | new | seen | stale
  deriving DecidableEq, Repr

/-- State of a requester. -/
def Dev.requester (d : Dev) (r : Nat) : Requester := smGet d.mg.reqs r ⟨0, []⟩

/-- How far a sequence stands above the highest accepted one, modulo 2^32. -/
def Dev.seqAbove (d : Dev) (r s : Nat) : Nat := (s + 2 ^ 32 - d.rd F.MGT_REQ_STAT_high 0 r) % 2 ^ 32

/-- Judges a sequence of a requester (R340). (DEDUCED, log 132) -/
def Dev.seqClass (d : Dev) (r s : Nat) : SeqClass :=
  let up := d.seqAbove r s
  let back := 2 ^ 32 - up
  if !d.on F.MGT_REQ_STAT_valid 0 r then .new
  else if up = 0 then .seen
  else if up < 2 ^ 31 then .new
  else if 64 ≤ back then .stale
  else if (d.requester r).seen.getLsbD back then .seen
  else .new

/-- Records a new sequence. -/
def Dev.noteSeq (d : Dev) (r s : Nat) : Dev :=
  let up := d.seqAbove r s
  let q := d.requester r
  let first := !d.on F.MGT_REQ_STAT_valid 0 r
  let above := decide (up < 2 ^ 31)
  let seen : BitVec 64 := if first then 1 else if above then (q.seen <<< up) ||| 1 else q.seen ||| BitVec.twoPow 64 (2 ^ 32 - up)
  let d := { d with mg := { d.mg with reqs := smInsert d.mg.reqs r { q with seen := seen } } }
  let d := d.wr F.MGT_REQ_STAT_valid 0 r 1
  if first || above then d.wr F.MGT_REQ_STAT_high 0 r s else d

/-- Keeps an answer among the last 16 of a requester. -/
def Dev.cacheAnswer (d : Dev) (r s : Nat) (bytes : List Byte) : Dev :=
  let q := d.requester r
  { d with mg := { d.mg with reqs := smInsert d.mg.reqs r { q with cache := ((s, bytes) :: q.cache).take 16 } } }

/-- A drop counted under a reason of Table 14.3. -/
def Dev.dropMgt (d : Dev) (k : Nat) : Dev := d.dropCnt .MGT 0 k none none

-- Serving a request -------------------------------------------------------------------------------------------------------------

/-- The answer of a request performed on a chip: header status and payload. -/
structure Answer where
  chip : Chip
  status : Nat
  payload : List Byte
  deriving DecidableEq, Repr

/-- Answers a request: cached, counted and sent from the port it came by. A hub that stopped meanwhile answers nothing; a package
reset that the request commanded follows its answer (HUB_DIE_CTRL op 5). -/
def Chip.answer (c at_ : Chip) (who : Sender) (m : KxxMsg) (kind status : Nat) (payload : List Byte) : Chip :=
  if !c.dev.hubRuns then c
  else
    let bytes := c.message (128 + kind) m.requester m.seq status payload
    let c := c.on fun d =>
      let d := d.cacheAnswer m.requester m.seq bytes
      let d := if status ≠ 0 then d else d.inc F.MGT_REQ_STAT_accepted 0 m.requester 1
      d.sendDgram at_.dev who.port.val who.addr.toNat who.udp.toNat bytes
    if c.dev.pw.restart then c.packageReset false 1 else c

/-- The status word of an operation (R337). -/
def statusWord (status : Nat) (a : Word) : Word := wmk [(63, 56, status), (47, 0, fget a 47 0)]

/-- The 64-bit words of a payload. -/
def payWords (bs : List Byte) : List Word := (List.range (bs.length / 8)).map (payWord bs)

/-- Pairs of address and data. -/
def pairUp : List Word → List (Word × Word)
  | a :: w :: t => (a, w) :: pairUp t
  | _ => []

/-- Whether a payload holds 1 to 64 operations of `n` bytes. -/
def opsOk (n : Nat) (bs : List Byte) : Bool := bs.length % n == 0 && decide (n ≤ bs.length) && decide (bs.length ≤ 64 * n)

/-- Payload of an answer to a request that finds the queue full (R337, R344): the status words of its kind say busy, data is 0. -/
def overload (kind : Nat) (bs : List Byte) : List Byte :=
  match kind with
  | 1 => if opsOk 8 bs then wordsPay ((payWords bs).flatMap fun a => [statusWord 1 a, 0]) else []
  | 2 => if opsOk 16 bs then wordsPay ((pairUp (payWords bs)).map fun p => statusWord 1 p.1) else []
  | 3 | 4 => []
  | _ => wordBytes (wmk [(63, 56, 1)])

/-- A request of a kind (R339 to R345): checked, judged by its sequence, performed once and answered. `full` says whether 32
requests wait already. (DEDUCED, log 120; DEDUCED, log 121) -/
def Chip.serve (c : Chip) (who : Sender) (m : KxxMsg) (kind : Nat) (full : Bool) (perform : Chip → Answer) : Chip :=
  let r := m.requester
  if !c.dev.mgmtUp who.port.val then c
  else if !c.dev.takesWire who.port.val who.to_ then c.on fun d => d.dropMgt 0
  else match c.failedCheck m kind with
  | some k => c.on fun d => (if k = 7 then d.cnt ⟨2, 2⟩ 1 else d).dropMgt k
  | none =>
    let c := c.on fun d => d.cnt ⟨2, 2⟩ 1
    match c.dev.seqClass r m.seq with
    | .stale => c.on fun d => d.dropMgt 8
    | .seen => match (c.dev.requester r).cache.find? fun x => x.1 == m.seq with
      | some x => c.on fun d => (d.cnt ⟨2, 1⟩ 1).sendDgram d who.port.val who.addr.toNat who.udp.toNat x.2
      | none => c.on fun d => d.dropMgt 9
    | .new =>
      let c := c.on fun d => (d.noteSeq r m.seq).cnt ⟨2, 1⟩ 1
      if full then c.answer c who m kind 1 (overload kind m.payload)
      else
        let a := perform c
        a.chip.answer c who m kind a.status a.payload

-- Register requests (R342 to R345) ----------------------------------------------------------------------------------------------

/-- Whether an operation's status stops the rest of a request with stop set. -/
def halts (stop : Bool) (status : Nat) : Bool := stop && decide (1 ≤ status) && decide (status ≤ 5)

/-- Reads in order (R342): the chip after them and the answer's words. -/
def readAll (stop : Bool) : List Word → Bool → Chip → Chip × List Word
  | [], _, c => (c, [])
  | a :: as, halted, c =>
    if halted then
      let q := readAll stop as true c
      (q.1, statusWord 6 a :: 0 :: q.2)
    else
      let r := c.regRead a
      let q := readAll stop as (halts stop r.2.1) r.1
      (q.1, statusWord r.2.1 a :: r.2.2 :: q.2)

/-- Writes in order; nothing more is performed once the hub has stopped. (DEDUCED, log 117) -/
def writeAll (stop cur fuseOk : Bool) : List (Word × Word) → Bool → Chip → Chip × List Word
  | [], _, c => (c, [])
  | (a, w) :: as, halted, c =>
    if halted || !c.dev.hubRuns then
      let q := writeAll stop cur fuseOk as halted c
      (q.1, statusWord 6 a :: q.2)
    else
      let r := c.regWrite a w cur fuseOk
      let q := writeAll stop cur fuseOk as (halts stop r.2) r.1
      (q.1, statusWord r.2 a :: q.2)

/-- REGISTER_READ_REQUEST. -/
def Chip.readRequest (c : Chip) (who : Sender) (m : KxxMsg) (full : Bool) : Chip :=
  c.serve who m 1 full fun c =>
    if !opsOk 8 m.payload then ⟨c, 2, []⟩
    else
      let r := readAll m.stop (payWords m.payload) false c
      ⟨r.1, 0, wordsPay r.2⟩

/-- REGISTER_WRITE_REQUEST; `fuseOk` says whether a fuse that a write blows takes (SEC code 7). -/
def Chip.writeRequest (c : Chip) (who : Sender) (m : KxxMsg) (full fuseOk : Bool) : Chip :=
  c.serve who m 2 full fun c =>
    if !opsOk 16 m.payload then ⟨c, 2, []⟩
    else
      let r := writeAll m.stop (m.slot == c.dev.keyCur) fuseOk (pairUp (payWords m.payload)) false c
      ⟨r.1, 0, wordsPay r.2⟩

/-- HELLO (R341): the answer's header says it all. -/
def Chip.hello (c : Chip) (who : Sender) (m : KxxMsg) (full : Bool) : Chip :=
  c.serve who m 3 full fun c => ⟨c, if m.payload.isEmpty then 0 else 2, []⟩

-- Events (R346 to R348) ---------------------------------------------------------------------------------------------------------

/-- The 32 bytes of a record. -/
def EvRec.bytes (r : EvRec) : List Byte := wordsPay [r.e0, r.e1, r.e2, r.e3]

/-- The records of the history with sequences from `first` on, in order. -/
def Dev.recordsFrom (d : Dev) (first n : Nat) : List EvRec :=
  (List.range n).filterMap fun i => d.ev.history.find? fun r => fget r.e0 63 32 == (first + i) % 2 ^ 32

/-- EVENT_RETRANSMISSION (R348). Recovery mode refuses it with status 4 (R372); its answer carries no status word, so the header says
so (R337). (DEDUCED, log 184) -/
def Chip.retransmit (c : Chip) (who : Sender) (m : KxxMsg) (full : Bool) : Chip :=
  c.serve who m 4 full fun c =>
    let w := payWord m.payload 0
    let n := fget w 5 0
    if m.payload.length ≠ 8 || n = 0 || 32 < n then ⟨c, 2, []⟩
    else if c.dev.on F.SEC_STAT_recovery 0 0 then ⟨c, 4, []⟩
    else ⟨c, 0, (c.dev.recordsFrom (fget w 63 32) n).flatMap EvRec.bytes⟩

/-- The lowest port of a network whose link is up (R334). -/
def Dev.lowestUp (d : Dev) (net : Nat) : Option Nat := ((List.range 4).map (4 * net + ·)).find? d.mgmtUp

/-- EVENT_MESSAGE_SEND (R347): 1 to 32 waiting records leave for every enabled destination on its network.
(DEDUCED, log 122) -/
def Chip.eventSend (c : Chip) : Chip :=
  match c.dev.ev.waiting with
  | [] => c
  | r :: rs =>
    if !c.dev.hubRuns then c
    else
      let batch := (r :: rs).take 32
      let bytes := c.message 5 0 (fget r.e0 63 32) 0 (batch.flatMap EvRec.bytes)
      c.on fun d =>
        let d := { d with ev := { d.ev with waiting := (r :: rs).drop 32 } }
        d.each ((List.range 8).filter fun i => d.on F.MGT_EVT_DEST_enable 0 i) fun d i =>
          match d.lowestUp (i / 4) with
          | none => d
          | some p =>
            let addr := d.rd F.MGT_EVT_DEST_addr 0 i
            let e := d.sendDgram d p addr (d.rd F.MGT_EVT_DEST_port 0 i) bytes
            if (d.nextHop (i / 4) addr).isSome then e.cnt ⟨2, 1⟩ 3 else d

-- What else arrives -------------------------------------------------------------------------------------------------------------

/-- ARP_REQUEST (R334, R335): a request for the network's own address is answered on its port; one of another VLAN is dropped. -/
def Dev.arpRequest (d : Dev) (port addr vid : Nat) : Dev :=
  let own := d.netId (netOf port)
  if !d.mgmtUp port then d
  else if own.vid ≠ vid then d.dropMgt 0
  else if own.addr = addr then d.emit (.arp port own)
  else d

/-- A management frame that no request row takes: no IPv4 unicast that carries UDP (R335), beyond the rate of R336, or a UDP
datagram, whose headers or content hold no request. (DEDUCED, log 133) -/
inductive MgmtFrame where
  | foreign
  | beyondRate
  | dgram (w : Wire) (bytes : List Byte)
  deriving DecidableEq, Repr

/-- The kinds that are requests (Table 14.2). -/
def requestKinds : List Nat := [1, 2, 3, 4, 0x10, 0x11, 0x12, 0x13, 0x20]

/-- The reason under which a frame is dropped; none for a datagram whose kind is a request, which its own row takes. -/
def Dev.mgmtReason (d : Dev) (port : Nat) : MgmtFrame → Option Nat
  | .foreign => some 0
  | .beyondRate => some 1
  | .dgram w bs =>
    if !d.takesWire port w then some 0
    else if bs.length < 48 || 1472 < bs.length || fget (payWord bs 2) 31 16 ≠ bs.length - 48 then some 2
    else if requestKinds.contains (fget (payWord bs 0) 55 48) then none
    else some 3

/-- MANAGEMENT_FRAME_DISCARD (R335, R336). -/
def Dev.mgmtDiscard (d : Dev) (port : Nat) (f : MgmtFrame) : Dev :=
  if !d.mgmtUp port then d
  else match d.mgmtReason port f with
  | some k => d.dropMgt k
  | none => d

/-- MANAGEMENT_PORT_LINK (R334); recovery mode brings up M0 and M4 alone (R372). -/
def Dev.mgmtLink (d : Dev) (port : Nat) (up : Bool) : Dev :=
  if !d.hubRuns || (d.on F.SEC_STAT_recovery 0 0 && port ≠ 0 && port ≠ 4) then d
  else d.wrw .MGT_PORT_STAT 0 0 (wset (d.rdw .MGT_PORT_STAT 0 0) port up)

-- Quiescing (R349) and crozier issue (R358) -------------------------------------------------------------------------------------

/-- BLOCK_QUIESCED (R349): the conditions have held for 2 µs. -/
def Dev.blockQuiesced (d : Dev) (b : Nat) : Dev :=
  if d.hubRuns && d.on F.MGT_BLK_CTRL_quiesce 0 b && d.blockEmpty b then
    { d with mg := { d.mg with quiesced := d.mg.quiesced ||| BitVec.twoPow 64 b } }
  else d

/-- The core die that issues a broadcast: die 0 unless it does not run. (DEDUCED, log 131) -/
def Dev.issuer (d : Dev) : Option Nat := if d.dieRuns 0 then some 0 else if d.dieRuns 1 then some 1 else none

/-- CROZIER_ISSUE (R358): invalid where the block has no such tree, unavailable where no core die runs. -/
def Chip.crozierIssue (c : Chip) (who : Sender) (m : KxxMsg) (full : Bool) : Chip :=
  c.serve who m 0x20 full fun c =>
    let w := payWord m.payload 0
    let st := fun (c : Chip) (s : Nat) => (⟨c, 0, wordBytes (wmk [(63, 56, s)])⟩ : Answer)
    if c.dev.on F.SEC_STAT_recovery 0 0 then st c 4
    else if m.payload.length < 8 || 1400 < m.payload.length then st c 3
    else match c.dev.issuer with
    | none => st c 5
    | some die =>
      let b := fget w 63 58
      let t := fget w 57 56
      if (c.dev.crzPorts die b t).isEmpty then st c 3
      else st (c.on fun d => d.crzIssue die b t (fget w 55 24) (m.payload.drop 8)) 0

end Sys2Proof.Machine
end

