-- ==== Sys2Proof/Machine/Files.lean ====
section
/-! DEFINITION. File transfers, signed files and their disposition (R244, R351 to R354, R356, R357, R366 to R373). -/

namespace Sys2Proof.Machine

-- Transfers (R351, R352) --------------------------------------------------------------------------------------------------------

/-- An answer that carries one status word (R337). -/
def statusAnswer (c : Chip) (status : Nat) : Answer := ⟨c, 0, wordBytes (wmk [(63, 56, status)])⟩

/-- Limit of a file type in bytes (R351). -/
def fileLimit (kind : Nat) : Nat :=
  match kind with
  | 1 | 3 => 64 * 2 ^ 20
  | 2 => 384 * 2 ^ 20
  | 4 => 16 * 2 ^ 20
  | _ => 0

/-- Whether GDDR7, where a file is staged, is shed (R325, R329). -/
def Dev.gddrShed (d : Dev) : Bool := decide (2 ≤ d.shed) || !d.pw.hot.isEmpty

/-- The status of a file begin. -/
def Dev.beginStatus (d : Dev) (kind act total : Nat) : Nat :=
  if d.on F.SEC_STAT_recovery 0 0 && kind ≠ 1 then 4
  else if d.mg.xfer.isSome || d.gddrShed then 1
  else if kind = 0 || 4 < kind || fileLimit kind < total then 3
  else if kind = 2 && (2 < act || (act = 2 && d.cfg.active)) then 3
  else 0

/-- FILE_BEGIN. (DEDUCED, log 127) -/
def Chip.fileBegin (c : Chip) (who : Sender) (m : KxxMsg) (full : Bool) : Chip :=
  c.serve who m 0x10 full fun c =>
    let f0 := payWord m.payload 0
    let kind := fget f0 63 56
    let total := (payWord m.payload 1).toNat
    let s := if m.payload.length = 16 then c.dev.beginStatus kind (fget f0 55 48) total else 3
    if s ≠ 0 then statusAnswer c s
    else
      statusAnswer (c.on fun d =>
        let d := { d with mg := { d.mg with xfer := some ⟨kind, fget f0 55 48, total, [], [], false⟩ } }
        ((d.wr F.MGT_FILE_STAT_state 0 0 1).wr F.MGT_FILE_STAT_type 0 0 kind).wr F.MGT_FILE_STAT_bytes 0 0 0) 0

/-- Bytes received of a transfer. -/
def Xfer.bytes (x : Xfer) : Nat := x.data.foldl (fun n e => n + e.2.length) 0

/-- Whether a data message fits a transfer: a multiple of 1,408 B, 1,408 B long or the file's rest. -/
def Xfer.fits (x : Xfer) (off len : Nat) : Bool := off % 1408 == 0 && decide (off < x.total) && len == Nat.min 1408 (x.total - off)

/-- A data message is staged in GDDR7 (R351): its words of 64 B count as writes (Table 18.2) and take the injected errors of R415. One
flipped bit is corrected when the file is read; what two leave no rule says. (DESIGN CHOICE, log 181) -/
def Dev.stageData (d : Dev) (x : Xfer) (off : Nat) (bs : List Byte) : Dev :=
  let words := (bs.length + 63) / 64
  let d := d.cntPC ⟨2, 4⟩ 2 none none words
  let (d, bits, n) := d.injectHit 8 0 words
  let k := d.freeCtr
  let d := if bits = 2 then d.fresh.1 else d
  let bs := if bits = 2 then (List.range bs.length).map (fun i =>
    if i < 64 * n then bs.getD i 0 ^^^ Config.stagedError k i else bs.getD i 0) else bs
  let x := { x with data := smInsert x.data (off / 1408) bs,
                    flips := if bits = 1 then smInsert x.flips (off / 1408) n else smErase x.flips (off / 1408) }
  ({ d with mg := { d.mg with xfer := some x } } : Dev).wr F.MGT_FILE_STAT_bytes 0 0 x.bytes

/-- The verification reads the staged file: its words count as reads, those with a flipped bit as corrected (Table 18.2). -/
def Dev.readStaged (d : Dev) (x : Xfer) : Dev :=
  (d.cntPC ⟨2, 4⟩ 1 none none ((x.total + 63) / 64)).cntPC ⟨2, 4⟩ 3 none none (x.flips.map Prod.snd).sum

/-- FILE_DATA. While the file is verified it is busy. (DEDUCED, log 125) -/
def Chip.fileData (c : Chip) (who : Sender) (m : KxxMsg) (full : Bool) : Chip :=
  c.serve who m 0x11 full fun c =>
    let off := (payWord m.payload 0).toNat
    let bs := m.payload.drop 8
    match c.dev.mg.xfer with
    | none => statusAnswer c 3
    | some x =>
      if x.verifying then statusAnswer c 1
      else if m.payload.length < 8 || !x.fits off bs.length then statusAnswer c 3
      else
        statusAnswer (c.on fun d => d.stageData x off bs) 0

/-- FILE_COMMIT: with every byte present the verification starts. -/
def Chip.fileCommit (c : Chip) (who : Sender) (m : KxxMsg) (full : Bool) : Chip :=
  c.serve who m 0x12 full fun c =>
    match c.dev.mg.xfer with
    | none => statusAnswer c 3
    | some x =>
      if x.verifying then statusAnswer c 1
      else if !m.payload.isEmpty || x.bytes ≠ x.total then statusAnswer c 3
      else
        statusAnswer (c.on fun d =>
          ({ d.readStaged x with mg := { d.mg with xfer := some { x with verifying := true } } } : Dev).wr F.MGT_FILE_STAT_state 0 0 2) 0

/-- FILE_ABORT: the open transfer is discarded. -/
def Chip.fileAbort (c : Chip) (who : Sender) (m : KxxMsg) (full : Bool) : Chip :=
  c.serve who m 0x13 full fun c =>
    if c.dev.mg.xfer.isNone || !m.payload.isEmpty then statusAnswer c 3
    else statusAnswer (c.on fun d => d.endXfer 10) 0

/-- FILE_TRANSFER_TIMEOUT: 10 s without a message of the transfer; one that is being verified waits for its result.
(DEDUCED, log 126) -/
def Dev.fileTimeout (d : Dev) : Dev :=
  match d.mg.xfer with
  | some x => if x.verifying then d else d.endXfer 9
  | none => d

-- What a verification finds (R353) ------------------------------------------------------------------------------------------------

/-- What a committed file's body holds; the manual gives the content and no byte layout. A calibration file holds a section for
each HUB_STRAP index. (DESIGN CHOICE, log 21) -/
inductive FileBody where
  | firmware
  | image (img : Image)
  | calibration (secs : List (List Nat))
  deriving DecidableEq, Repr

/-- What a verification meets beyond the bytes of the file: whether flash takes it, and the content. -/
structure VerifyIn where
  flashOk : Bool
  body : FileBody
  deriving DecidableEq, Repr

/-- The staged file in order. -/
def Xfer.file (x : Xfer) : List Byte := (x.data.map Prod.snd).flatten

/-- The SEC error code of a refused file type (Table 15.6). -/
def secCode (kind : Nat) : Nat := if kind = 1 then 1 else if kind = 4 then 3 else 2

-- Results (Table 14.15) ---------------------------------------------------------------------------------------------------------

/-- A verification ends with a result: recorded and raised; the transfer stays open unless it is accepted. -/
def Dev.fileResult (d : Dev) (result : Nat) : Dev :=
  let x := if result = 1 then none else d.mg.xfer.map fun x => { x with verifying := false }
  let d := { d with mg := { d.mg with xfer := x } }
  let d := (d.wr F.MGT_FILE_STAT_state 0 0 (if result = 1 then 0 else 1)).wr F.MGT_FILE_STAT_last 0 0 result
  d.event .MGT 0 10 (d.rdw .MGT_FILE_STAT 0 0) 0

/-- A refusal: MGT error code `err` is logged (Table 14.13). -/
def Chip.fileRefused (c : Chip) (err result : Nat) : Chip := c.on fun d => (d.logErr .MGT 0 err 0).fileResult result

-- Dispositions (Table 14.7) -----------------------------------------------------------------------------------------------------

/-- A firmware file: anti-rollback, the inactive slot; in recovery mode the package then resets. (DEDUCED, log 129) -/
def Chip.storeFirmware (c : Chip) (file : List Byte) (flashOk : Bool) : Chip :=
  if sigVersion (sigBlock file) < c.fuses.rollback then (c.on fun d => d.logErr .SEC 0 4 0).fileRefused 1 3
  else if !flashOk then c.fileRefused 2 8
  else
    let f := c.flash
    let c := { c with flash := { f with fw := smInsert f.fw (1 - f.fwActive) ⟨file⟩, fwStaged := true } }
    let c := c.on fun d => d.fileResult 1
    if c.dev.on F.SEC_STAT_recovery 0 0 then c.packageReset false 1 else c

/-- A full image: the rules that boot checks, the inactive slot, staged; then as its activate value says. -/
def Chip.storeImage (c : Chip) (img : Image) (file : List Byte) (act : Nat) (flashOk : Bool) : Chip :=
  let s : ImgSlot := ⟨img, file⟩
  if (Dev.fresh0.loadImage img s.digest c.fuses.steppings).isNone then c.fileRefused 1 4
  else if !flashOk then c.fileRefused 2 8
  else
    let f := c.flash
    let c := { c with flash := { f with img := smInsert f.img (1 - f.imgActive) s, imgStaged := true } }
    let c := c.on fun d => (d.wr F.MGT_IMG_STAT_staged 0 0 1).fileResult 1
    if act = 1 then c.packageReset false 1
    else if act = 2 && !c.dev.cfg.active then { c with pend := some ⟨1 - f.imgActive, s⟩ }
    else c

/-- The result of a region image's checks up to its application (R356): 0 where it passes. (DEDUCED, log 128) -/
def Chip.regionResult (c : Chip) (img : Image) : Nat :=
  if !c.dev.cfg.active || img.base != c.dev.cfg.digest then 5
  else if !steppingOk img c.fuses.steppings then 4
  else if 256 ≤ c.flash.log.length then 7
  else if (c.dev.applyRegion img).isNone then 4
  else if !c.dev.allQuiesced (bitsOf img.mask) then 6
  else 0

/-- The configuration digest follows a region image (R357); M2 follows it (R377). -/
def Dev.followDigest (d : Dev) (digest : List Byte) (regions : Nat) : Dev :=
  (({ d with cfg := { d.cfg with digest := digest } } : Dev).setMeas 2 digest).wr F.MGT_IMG_STAT_regions 0 0 regions

/-- A region image (R356): applied on both core dies at once and appended to the region log. -/
def Chip.storeRegion (c : Chip) (img : Image) (file : List Byte) (flashOk : Bool) : Chip :=
  let r := c.regionResult img
  if r ≠ 0 then c.fileRefused (if r = 6 then 7 else 1) r
  else if !flashOk then c.fileRefused 2 8
  else match c.dev.applyRegion img with
  | none => c.fileRefused 1 4
  | some d =>
    let h := sha384 file
    let log := c.flash.log ++ [⟨img, file⟩]
    let c := { c with flash := { c.flash with log := log }, dev := d.followDigest (sha384 (d.cfg.digest ++ h)) log.length }
    c.on fun d => (d.fileResult 1).configEvent

/-- A calibration file (R244, R370): every section is rewritten with factory values. -/
def Chip.storeCalibration (c : Chip) (b : List Byte) (secs : List (List Nat)) (flashOk : Bool) : Chip :=
  if sigSerial b ≠ c.fuses.serial then (c.on fun d => d.logErr .SEC 0 3 0).fileRefused 1 11
  else if !flashOk then c.fileRefused 2 8
  else
    let cal := (List.range 22).foldl (fun m i => smInsert m i ⟨true, false, 0, secs.getD i []⟩) c.flash.cal
    ({ c with flash := { c.flash with cal := cal } } : Chip).on fun d => d.fileResult 1

/-- FILE_VERIFY_DONE (R353, R368): the checks of the block, then the disposition of the type. A body of another type than the transfer's is
refused as its image rule is, and so is an image whose sections lack their digests (R355). -/
def Chip.verifyDone (c : Chip) (v : VerifyIn) : Chip :=
  match c.dev.mg.xfer with
  | none => c
  | some x =>
    if !x.verifying || !c.dev.hubRuns then c
    else
      let file := x.file
      let k := c.fuses.check x.kind file
      if !k.ok then (c.on fun d => d.logErr .SEC 0 (secCode x.kind) k.detail).fileRefused 1 2
      else
        let c := c.on fun d => d.cnt ⟨2, 2⟩ 2
        match x.kind, v.body with
        | 1, _ => c.storeFirmware file v.flashOk
        | 2, .image img =>
          if img.digestsOk (fileBody file) then c.storeImage img file x.activate v.flashOk else c.fileRefused 1 4
        | 3, .image img =>
          if img.digestsOk (fileBody file) then c.storeRegion img file v.flashOk else c.fileRefused 1 4
        | 4, .calibration secs => c.storeCalibration (sigBlock file) secs v.flashOk
        | _, _ => c.fileRefused 1 4

end Sys2Proof.Machine
end

