-- ==== Sys2Proof/Syntax.lean ====
section
/-! DEFINITION. The commands of the module, one for each row of the opcode table. A command's operands are what the event
brings with it: the port or die it happens on, the bytes that arrive, what a measurement or a memory read finds. -/

namespace Sys2Proof

open Sys2Proof.Machine

/-- A lane 0 to 1,023; a port is named by its lowest lane (R4). -/
abbrev LaneId := Fin 1024
/-- A core die. -/
abbrev DieId := Fin 2
/-- A sorus array of the module: 16 times the die plus the array. -/
abbrev ArrayId := Fin 32
/-- A barrier counter of the home die. -/
abbrev BarrierId := Fin 8192
/-- A bundle (R92). -/
abbrev BundleId := Fin 1024
/-- A unit of counters: core die 0, core die 1, hub 2. -/
abbrev UnitId := Fin 3
/-- A traffic class. -/
abbrev ClassId := Fin 8
/-- A route bank. -/
abbrev BankId := Fin 2
/-- An optical engine. -/
abbrev EngineId := Fin 16
/-- A fibre: eight times the engine plus the fibre. -/
abbrev FibreId := Fin 128
/-- A heater loop of an engine, as OE_TUNE numbers them. -/
abbrev LoopId := Fin 144
/-- A bypass quad. -/
abbrev QuadId := Fin 4
/-- An input of a bypass mesh. -/
abbrev MeshIn := Fin 32
/-- A data bundle of the rhizoid link. -/
abbrev FlitBundle := Fin 16
/-- A data bundle, or 16 for the control bundle. -/
abbrev WireBundle := Fin 17
/-- A wire of a bundle. -/
abbrev WireId := Fin 264
/-- A reference clock: core die 0, core die 1, hub 2. -/
abbrev ClockId := Fin 3
/-- A die by HUB_STRAP index: core dies 0 and 1, engines 2 to 17, bypass 18 to 21, hub 22. -/
abbrev StrapId := Fin 23
/-- A rail of Table 20.2 in order; 0 is VDD_CORE_IN. -/
abbrev RailId := Fin 8
/-- A part with a thermal state: core die 0 or 1, engine 2 to 17. -/
abbrev ThermPart := Fin 18
/-- A management port. -/
abbrev MgmtPort := Fin 8
/-- A job block. -/
abbrev JobBlock := Fin 64
/-- A sideband link SB0 to SB5. -/
abbrev SideLink := Fin 6
/-- A position of the 4 by 4 stage. -/
abbrev StagePos := Fin 16
/-- A cartridge site. -/
abbrev SiteId := Fin 8
/-- A GDDR7 channel. -/
abbrev GddrCh := Fin 16
/-- Key of a logical entry: the block number and the 20-bit rank (R125). -/
abbrev GidKey := BitVec 26
/-- A hall time (R380). -/
abbrev HallTime := BitVec 64

/-- The section whose flash commit ends (R243, R257): an engine's or a bypass quad's. -/
inductive CalTarget where
  | engine (e : EngineId)
  | quad (q : QuadId)
  deriving DecidableEq, Repr

/-- What a reduction frame's take meets: the faults of its operands' step, and those of the completing or write-back read (R164). -/
structure TakeFaults where
  step : List RedFault
  read : List RedFault
  deriving DecidableEq, Repr

/-- An array whose fetch engine acts, with the faults that a write-back's read meets (R164, R181). -/
structure ArrayRead where
  array : ArrayId
  faults : List RedFault
  deriving DecidableEq, Repr

/-- A die that samples its rings, with the entries whose parity fails (R116, R118). -/
structure DieSample where
  die : DieId
  parity : List RingEntry
  deriving DecidableEq, Repr

/-- What the lane's own receiver finds: whether its first tap calls for precoding (R265), and the coefficient request it makes (R281). -/
structure TapReport where
  high : Bool
  ask : Fin 6
  deriving DecidableEq, Repr

/-- How the lane's own receiver adapts: done, or failed (R281). -/
structure Adaptation where
  done : Bool
  fail : Bool
  deriving DecidableEq, Repr

/-- The rest of a flit as it arrives: the two destination indices, the two cells, and the bit errors of the wires (R297). -/
structure FlitBody where
  idx0 : Word
  idx1 : Word
  cell0 : List Byte
  cell1 : List Byte
  flips : List (Fin 4352)
  deriving DecidableEq, Repr

/-- An ARP request: the address it asks for and the VLAN it came on (R334). -/
structure ArpAsk where
  addr : BitVec 32
  vid : BitVec 12
  deriving DecidableEq, Repr

/-- The commands. -/
inductive Instr where
  /-- POWER_GOOD (R307). Power-good rises and the hub starts the start-up sequence of Table 12.2, verifying firmware, releasing dies and loading the image. -/
  | powerGood (b : BootIn)
  /-- IMAGE_ACTIVATION (R36). A verified full image loads its registers and tables, writes the backing table and becomes active. -/
  | imageActivation
  /-- TRAFFIC_READY (R307). Once an image is active, every engine is settled and every active port has finished its first training, the device sets ready and raises the traffic-ready event. -/
  | trafficReady
  /-- FRAME_ARRIVAL (R60). A frame delivered by the ingress link layer is parsed, looked up, metered and admitted to the Thallus or control buffer, or dropped and counted. -/
  | frameArrival (port : LaneId) (bytes : List Byte) (followed : Bool) (faults : List MemFault)
  /-- HOME_DIE_ANSWER (R175). A contribution waiting on the non-home die receives the home die's answer over the control channel and proceeds. -/
  | homeDieAnswer (die : DieId)
  /-- BACKING_FETCH_RETURN (R126). A backing table fetch returns, installs a cached or absent entry and releases the parked frames in order. -/
  | backingFetchReturn (die : DieId) (key : GidKey) (fault : FetchFault)
  /-- BACKING_FETCH_TIMEOUT (R127). A fetch not returned within 2 µs ends as unavailable and its parked frames are routed by DFID. -/
  | backingFetchTimeout (die : DieId) (key : GidKey)
  /-- BAND_ACCEPTANCE (R113). A class 5 to 7 frame is accepted against its port's admission share and takes its acceptance stamp, or waits at its VOQ head. -/
  | bandAcceptance (die : DieId) (port : LaneId)
  /-- EGRESS_SELECT (R110). At a frame boundary the egress scheduler picks the next frame by class 7 reserve, guaranteed band or bulk deficit round robin. -/
  | egressSelect (port : LaneId)
  /-- FRAME_DEPARTURE (R113). A frame's last bit leaves, its cells free, credits are owed and its admission count falls. -/
  | frameDeparture (port : LaneId) (fault : CellFault)
  /-- STAGING_CELL_ARRIVAL (R83). A pulled cell enters the egress die's staging window and is acknowledged to the ingress die. -/
  | stagingCellArrival (port : LaneId)
  /-- PULL_ACKNOWLEDGE (R24). The ingress die frees a cell when the egress die acknowledges its receipt. -/
  | pullAcknowledge (die : DieId)
  /-- SORUS_FRAME_TAKE (R147). A sorus array takes one whole reduction frame from its VOQs and its cells apply each 64-byte step. -/
  | sorusFrameTake (array : ArrayId) (met : TakeFaults)
  /-- RESULT_VERIFY_DONE (R186). The verification re-read of a sending chunk completes; on a fault the result is retracted, otherwise units release after the last copy. -/
  | resultVerifyDone (key : ChunkKey) (faults : List RedFault)
  /-- SLOT_TIMEOUT (R188). A chunk's timer expires and the chunk completes, closes silently in pass-through, or aborts. -/
  | slotTimeout (key : ChunkKey)
  /-- CLOSED_RECORD_RELEASE (R178). A closed chunk record is freed when its hold of one descriptor timeout ends. -/
  | closedRecordRelease (key : ChunkKey)
  /-- SPILL_RESIDENCY (R181). The array fetch engine makes spilled chunks resident or writes one back to GDDR7 when window units are needed. -/
  | spillResidency (array : ArrayRead)
  /-- SPILL_FETCH_RETURN (R181). A spill fetch returns and the chunk becomes resident, or aborts on an uncorrectable GDDR7 error. -/
  | spillFetchReturn (key : ChunkKey) (fault : FetchFault)
  /-- SPILL_FETCH_TIMEOUT (R182). A spill fetch not returned within 4 µs aborts its chunk with code 4. -/
  | spillFetchTimeout (key : ChunkKey)
  /-- BARRIER_TIMEOUT (R198). A barrier timer expires; the device sends a release with abort, advances the generation and raises an event. -/
  | barrierTimeout (barrier : BarrierId)
  /-- LICHEN_DIGEST_RECEIVE (R212). A digest from the partner or own die resolves or creates a pending lichen entry, releasing or aborting a held result. -/
  | lichenDigestReceive (port : LaneId) (pay : List Byte)
  /-- LICHEN_PENDING_TIMEOUT (R212). A pending lichen entry unresolved for the timeout resolves as unpaired. -/
  | lichenPendingTimeout (die : DieId) (group : BitVec 16) (chunk : BitVec 16) (jobStep : BitVec 14)
  /-- LINK_BLOCK_TRANSMIT (R271). At a link block boundary the transmitter fills a sequenced, null or replayed block with data, link-local and idle segments. -/
  | linkBlockTransmit (port : LaneId)
  /-- LINK_BLOCK_RECEIVE (R272). A received link block is decoded, delivered in sequence or discarded with a replay request, and its link-local segments processed. -/
  | linkBlockReceive (port : LaneId) (low : List (BitVec 2)) (others : List (List (BitVec 2)))
  /-- REPLAY_REQUEST_RECEIVE (R273). A replay request makes the transmitter replay from the named sequence, or is ignored when out of range. -/
  | replayRequestReceive (port : LaneId) (seq : BitVec 10)
  /-- REPLAY_TIMER_EXPIRY (R273). The replay timer expires without ack progress and the transmitter replays from the oldest unacknowledged sequence. -/
  | replayTimerExpiry (port : LaneId)
  /-- REPLAY_LIMIT (R274). Eight replays of one sequence without progress, or an uncorrectable replay buffer read, take the link down. -/
  | replayLimit (port : LaneId) (bad : Bool)
  /-- BLOCK_LOCK_LOST (R284). Sixteen consecutive undecodable link blocks take the link down with code 4. -/
  | blockLockLost (port : LaneId)
  /-- LOSS_OF_SIGNAL (R284). No signal on any lane of a port for 1 µs outside an agreed idle takes the link down with code 3. -/
  | lossOfSignal (port : LaneId)
  /-- CREDIT_RETURN_RECEIVE (R277). A credit return adds the change of each class's running total to the credits held, capped at the advertised count. -/
  | creditReturnReceive (port : LaneId) (k1 : Word) (k2 : Word)
  /-- CREDIT_RETURN_PERIODIC (R277). A credit return is sent at least every 1 µs while the link is up and not idle. -/
  | creditReturnPeriodic (port : LaneId)
  /-- CREDIT_ADVERT_RECEIVE (R278). A credit advertisement sets credits at its first arrival and brings the link up when it carries ack. -/
  | creditAdvertReceive (port : LaneId) (ack : Bool) (k1 : Word) (k2 : Word)
  /-- CREDIT_ADVERT_REPEAT (R278). Each end repeats its credit advertisement every 1 µs until the exchange is acknowledged. -/
  | creditAdvertRepeat (port : LaneId)
  /-- LINK_CONTROL_UNKNOWN (R276). A link control frame of an unknown kind is dropped and counted under event 8. -/
  | linkControlUnknown (port : LaneId)
  /-- HEARTBEAT_REQUEST_SEND (R279). A port sends a heartbeat request on its lowest lane at each heartbeat or idle period. -/
  | heartbeatRequestSend (port : LaneId)
  /-- HEARTBEAT_REQUEST_RECEIVE (R31). Core die hardware answers a heartbeat request within 4 µs unless the port is muted. -/
  | heartbeatRequestReceive (port : LaneId) (seq : BitVec 32) (stamp : BitVec 32)
  /-- HEARTBEAT_ANSWER_RECEIVE (R396). A heartbeat answer resets misses and, after 8 in a row on a removed port, restores it. -/
  | heartbeatAnswerReceive (port : LaneId) (seq : BitVec 32) (stamp : BitVec 32) (hold : BitVec 32)
  /-- HEARTBEAT_MISS (R393). A heartbeat request whose answer has not arrived within 4 µs plus the round trip counts as missed. -/
  | heartbeatMiss (port : LaneId)
  /-- PORT_LIVENESS_REMOVAL (R395). After 8 consecutive misses the port leaves its bundles, its VOQs flush and a liveness record is raised. -/
  | portLivenessRemoval (port : LaneId)
  /-- PINNED_MAPPING_SWITCH (R95). An ingress port and bundle pair switches to its new pinned mapping once its VOQs are empty and no frame is in flight. -/
  | pinnedMappingSwitch (origin : Origin) (bundle : BundleId)
  /-- TRAINING_START (R281). A port not held begins link training with the test pattern and training words. -/
  | trainingStart (port : LaneId)
  /-- TRAINING_WORD_RECEIVE (R280). A training word steps the partner's coefficients, precoding, round trip and block start, or fails training on width mismatch. -/
  | trainingWordReceive (lane : LaneId) (t0 : Word) (t1 : Word) (t2 : Word) (tap : TapReport) (adapted : Adaptation) (snr : BitVec 16)
  /-- TRAINING_TIMEOUT (R281). A port not up by its training limit fails training with the cause of its incomplete step. -/
  | trainingTimeout (port : LaneId) (noSignal : Bool)
  /-- TRAINING_RETRY (R282). After a failed training the port retrains after 1 ms, then once a second after three failures. -/
  | trainingRetry (port : LaneId)
  /-- IDLE_TIMER_EXPIRY (R285). A transmit direction with only heartbeats waiting for the idle timer enters electrical idle. -/
  | idleTimerExpiry (port : LaneId)
  /-- IDLE_ENTRY_RECEIVE (R285). The partner receiver holds its CDR and adaptation, suspends loss-of-signal and shows rx_idle. -/
  | idleEntryReceive (port : LaneId)
  /-- IDLE_EXIT (R286). A ready frame, an exit-causing link-local frame or a wake makes the direction leave idle by the fast exit sequence. -/
  | idleExit (port : LaneId)
  /-- IDLE_EXIT_FAIL (R287). No block lock within 2 µs of signal detection fails the idle exit and takes the link down. -/
  | idleExitFail (port : LaneId)
  /-- TIME_FRAME_SEND (R383). Each up port sends a time frame carrying its departure time and echo in every interval. -/
  | timeFrameSend (port : LaneId)
  /-- TIME_FRAME_RECEIVE (R384). An arriving time frame is stamped, captured on the source port and used by the servo to discipline the counter. -/
  | timeFrameReceive (port : LaneId) (t0 : Word) (t1 : Word) (t2 : Word) (t3 : Word)
  /-- TIME_SOURCE_TIMEOUT (R385). A source with no frame for three intervals becomes invalid and the device moves to the other source. -/
  | timeSourceTimeout (secondary : Bool)
  /-- TIME_COPY_RELOAD (R381). The hub reloads a core die copy found more than 8 ns from its counter and logs code 2. -/
  | timeCopyReload (die : DieId) (found : HallTime)
  /-- STATISTICS_EPOCH_BOUNDARY (R423). At a carry into the epoch bit every counter set latches its counters, ticks and sequence and may restart. -/
  | statisticsEpochBoundary (unit : UnitId)
  /-- SHAPER_REFILL (R111). Every 256 ns each enabled shaper adds its rate to its tokens up to its depth. -/
  | shaperRefill (die : DieId)
  /-- RESERVE_BUCKET_REFILL (R110). Every 256 ns the class 7 reserve bucket of each port refills by 128 B per lane up to 4,132 B. -/
  | reserveBucketRefill (port : LaneId)
  /-- BULK_CAP_REFILL (R331). Every 256 ns the bulk cap of a capped port adds half the port's payload rate. -/
  | bulkCapRefill (port : LaneId)
  /-- PEER_DEPTH_REFRESH (R102). Every 32 ns the rhizoid control channel refreshes each die's copy of the peer die's queue depths. -/
  | peerDepthRefresh (die : DieId)
  /-- SAMPLING_TICK (R116). Every sampling interval each die writes one entry into every queue group's sampling ring. -/
  | samplingTick (die : DieSample)
  /-- SATURATION_DWELL (R117). A queue group above its saturation threshold for the dwell raises one saturation event. -/
  | saturationDwell (port : LaneId) (cls : ClassId)
  /-- AUDIT_PASS_START (R85). An audit pass starts on its interval or on a start command and walks every queue and buffer. -/
  | auditPassStart (die : DieId)
  /-- AUDIT_PASS_END (R86). A completed audit pass reports cells leaked two passes in a row and, in quiet mode, owner count mismatches. -/
  | auditPassEnd (die : DieId)
  /-- TABLE_COMMAND_DONE (R136). A running table command completes and reports its status in FWD_CMD. -/
  | tableCommandDone (die : DieId)
  /-- BANK_SWAP_APPLY (R140). At the next shared reference tick the shadow bank becomes active, the epoch inverts and draining starts. -/
  | bankSwapApply
  /-- DRAIN_TIMER_EXPIRY (R140). The drain timer expires, draining clears and old-epoch frames are dropped thereafter. -/
  | drainTimerExpiry (die : DieId)
  /-- AGE_TICK (R130). At each age tick a sweep removes learned, cached and absent entries older than their block's age limit. -/
  | ageTick (die : DieId)
  /-- CROSS_DIE_TABLE_CHANGE (R131). A die applies a logical entry change sent by its peer, keeping its own static entries. -/
  | crossDieTableChange (die : DieId) (lost : Bool)
  /-- FILTER_REBUILD_DONE (R143). The rebuild of a bank's filter counts after an uncorrectable count error completes and filtering resumes. -/
  | filterRebuildDone (die : DieId) (bank : BankId)
  /-- KNOWN_ANSWER_TEST_DONE (R217). A known-answer test completes and compares every output element with the reference unit. -/
  | knownAnswerTestDone (die : DieId) (out : List Byte)
  /-- MONITOR_SAMPLE (R223). Every 10 µs each engine samples its feed and fibre monitors and applies the fade ladder to each new mean. -/
  | monitorSample (engine : EngineId) (feeds : List Int) (txf : List Int)
  /-- SUB_REQUEST_RECEIVE (R231). The far end receives a substitution request and tunes its λ8 filter, or refuses. -/
  | subRequestReceive (port : LaneId) (seq : BitVec 8) (op : BitVec 4) (src : BitVec 4) (dst : BitVec 4)
  /-- SUB_FILTER_LOCKED (R231). The far end's λ8 receive filter locks and it answers ready. -/
  | subFilterLocked (fibre : FibreId)
  /-- SUB_READY_RECEIVE (R231). The requesting end receives ready and, once its modulator is locked, sends PRBS31Q on λ8. -/
  | subReadyReceive (port : LaneId) (seq : BitVec 8)
  /-- SUB_MODULATOR_LOCKED (R231). The requesting end's λ8 modulator locks and, if ready has arrived, it sends PRBS31Q. -/
  | subModulatorLocked (fibre : FibreId)
  /-- SUB_RECEIVER_ADAPTED (R231). The far end's λ8 receiver adapts and it sends the mirror request. -/
  | subReceiverAdapted (fibre : FibreId)
  /-- SUB_MIRROR_REQUEST_RECEIVE (R231). The requesting end starts copying the lane's block stream onto λ8. -/
  | subMirrorRequestReceive (port : LaneId) (seq : BitVec 8)
  /-- SUB_MIRROR_VERIFIED (R231). After 2,048 equal blocks on λ8 the far end sends mirror good. -/
  | subMirrorVerified (fibre : FibreId)
  /-- SUB_MIRROR_GOOD_RECEIVE (R231). The requesting end sends the switch message naming a block 512 blocks ahead. -/
  | subMirrorGoodReceive (port : LaneId) (seq : BitVec 8)
  /-- SUB_SWITCH_RECEIVE (R231). The far end records the agreed switch block. -/
  | subSwitchReceive (port : LaneId) (seq : BitVec 8) (block : Word)
  /-- SUB_SWITCH_BLOCK (R231). At the agreed block the far end takes the lane from the new wavelength and answers done. -/
  | subSwitchBlock (fibre : FibreId)
  /-- SUB_DONE_RECEIVE (R231). The requesting engine darkens the old wavelength on the fibre, which is now on spare. -/
  | subDoneReceive (port : LaneId) (seq : BitVec 8)
  /-- SUB_REFUSE_RECEIVE (R232). A refuse answer abandons the fibre's negotiation and darkens λ8. -/
  | subRefuseReceive (port : LaneId) (seq : BitVec 8)
  /-- SUB_RESEND (R230). An unanswered request, mirror request or switch message is resent every 100 µs with its sequence. -/
  | subResend (fibre : FibreId) (far : Bool)
  /-- SUB_TIMEOUT (R232). A negotiation past its ready, mirror or 3 ms limit is abandoned, or treated as on spare when already copying. -/
  | subTimeout (fibre : FibreId)
  /-- FEED_RELEASE (R235). One microsecond after the switch the old feed's enable is lowered and the changeover event raised. -/
  | feedRelease (engine : EngineId)
  /-- FEED_READY_TIMEOUT (R237). A feed not ready within 5 ms ends the changeover or return on the original feed with code 2. -/
  | feedReadyTimeout (engine : EngineId)
  /-- HEATER_LOOP_UPDATE (R239). Every 1 µs each heater loop updates from its dither to track temperature. -/
  | heaterLoopUpdate (engine : EngineId) (loop : LoopId) (locked : Bool) (temp : BitVec 16) (slew : BitVec 16)
  /-- HEATER_UNLOCK (R240). A loop with tracking error above 40 GHz for 10 µs declares unlock and its lane retrains. -/
  | heaterUnlock (engine : EngineId) (loop : LoopId)
  /-- CALIBRATION_COMMIT_DONE (R243). The flash write of a calibration commit completes, or fails leaving the section unchanged. -/
  | calibrationCommitDone (section_ : CalTarget) (ok : Bool)
  /-- BYPASS_VERIFY_COMPLETE (R254). After tap reads and trim, each output's loss is compared with its limit and the circuit is committed or returned to dark. -/
  | bypassVerifyComplete (quad : QuadId) (inTap : List Int) (outTaps : List (List Int)) (biasOk : Bool)
  /-- BYPASS_DARK_INPUT_CHECK (R254). Every 10 µs an unverified dark-input circuit checks its input and verifies once light arrives. -/
  | bypassDarkInputCheck (quad : QuadId) (input : MeshIn) (level : Int)
  /-- BYPASS_TAP_SAMPLE (R257). Every 10 µs the bypass die samples circuit taps and flags an output 3 dB below its verified level. -/
  | bypassTapSample (quad : QuadId) (ins : List Int) (outs : List Int) (temp : BitVec 16)
  /-- BYPASS_TRIM (R257). Every 1 ms while trim is set the bypass die trims each path's phases. -/
  | bypassTrim (quad : QuadId)
  /-- BYPASS_RECORD_READ (R258). A bypass die leaving reset reads its circuit records and darkens inputs whose records disagree with the bias cells. -/
  | bypassRecordRead (quad : QuadId) (bad : List MeshIn)
  /-- FLIT_RECEIVE (R298). A rhizoid flit is accepted, or discarded on CRC mismatch with a resend request. -/
  | flitReceive (die : DieId) (bundle : FlitBundle) (seq : BitVec 10) (body : FlitBody)
  /-- FLIT_RESEND_LIMIT (R298). A flit resent 8 times without progress takes its bundle down. -/
  | flitResendLimit (die : DieId) (bundle : FlitBundle)
  /-- WIRE_REPAIR (R299). A wire with 16 CRC errors in 1 ms is copied onto a spare and switched at an agreed flit boundary. -/
  | wireRepair (die : DieId) (bundle : WireBundle) (wire : WireId)
  /-- PEER_DIE_LOST (R84). A core die losing its peer flushes VOQs toward it, frees unacknowledged cells and stomps frames in transmission. -/
  | peerDieLost (die : DieId)
  /-- UCIE_MEASUREMENT_ANSWER (R303). The chiplet's identity and digest are measured and checked against the allow-list, and streams open or the link is held. -/
  | ucieMeasurementAnswer (answer : List Byte)
  /-- UCIE_MEASUREMENT_TIMEOUT (R303). No answer within 100 ms holds the chiplet link in reset with code 7. -/
  | ucieMeasurementTimeout
  /-- UCIE_LINK_DOWN (R304). A UCIe link down closes every stream, logs code 8 and repeats admission. -/
  | ucieLinkDown
  /-- PACKAGE_RESET (R414). A package reset restarts every die from step 1 of Table 12.2 with its cause latched. -/
  | packageReset (b : BootIn)
  /-- REFERENCE_CLOCK_LOSS (R309). Loss of a core die's reference clock is detected within 1 µs and the die is reset and parked. -/
  | referenceClockLoss (clock : ClockId)
  /-- HUB_RESET (R312). The I/O hub enters reset and the core dies lose its attach heartbeats. -/
  | hubReset
  /-- HEADLESS_ENTRY (R312). A core die missing 10 attach heartbeats goes headless and starts its 30 s timer. -/
  | headlessEntry (die : DieId)
  /-- HUB_ATTACH (R314). The restarted hub attaches, core dies leave headless, the backing table is rewritten and held events are sent. -/
  | hubAttach (fw0 : SlotRead) (fw1 : SlotRead)
  /-- HEADLESS_TIMEOUT (R315). Thirty seconds without attach makes the core dies assert a package reset. -/
  | headlessTimeout (die : DieId)
  /-- HUB_WATCHDOG_EXPIRY (R312). A hub watchdog expiry resets the hub, or the package when no core die runs. -/
  | hubWatchdogExpiry
  /-- FATAL_ERROR (R413). A fatal cause resets the die it names, latches HUB_FATAL_STAT and opens a handling window, escalating when one is open. -/
  | fatalError (die : StrapId) (cause : BitVec 4)
  /-- HANDSHAKE_STALL (R413). A cell pipeline holding a handshake for more than 100 µs raises fatal cause 4. -/
  | handshakeStall (die : DieId)
  /-- FATAL_WINDOW_CLOSE (R413). The handling window closes when the reset die reaches its resting state. -/
  | fatalWindowClose (die : StrapId)
  /-- AVS_LOOP (R321). Every 10 µs each core die measures ring speed and raises or lowers its supply setpoint. -/
  | avsLoop (die : DieId) (speed : Nat) (temp : BitVec 16)
  /-- SPEED_MARGIN_RECOVER (R322). After 1 ms with margin restored the die lifts its speed-margin bulk cap. -/
  | speedMarginRecover (die : DieId)
  /-- SHEDDING_STEP_ENTER (R325). VDD_CORE_IN crossing a shedding threshold applies every step it crosses to the whole package. -/
  | sheddingStepEnter (rail : BitVec 16)
  /-- SHEDDING_STEP_EXIT (R326). After the rail stays above a step's threshold plus 10 mV for 100 µs the device leaves one step. -/
  | sheddingStepExit (rail : BitVec 16)
  /-- SUPPLY_FAULT_RESET (R328). VDD_CORE_IN below 0.85 V for 1 µs resets every die with cause 5. -/
  | supplyFaultReset
  /-- RAIL_FAULT (R439). Another rail below range for 10 µs resets every die, as a supply-fault or power-on reset. -/
  | railFault (rail : RailId)
  /-- THERMAL_STATE_CHANGE (R330). A sensor crossing a thermal threshold moves a core die or engine between normal, warn and throttle. -/
  | thermalStateChange (part : ThermPart) (temp : BitVec 16)
  /-- THERMAL_TRIP (R330). A sensor at its trip level for its duration trips the part: a core die fatal reset or engine out of service. -/
  | thermalTrip (part : StrapId)
  /-- REGISTER_READ_REQUEST (R342). A register read request is authenticated and its reads performed in order and answered. -/
  | registerReadRequest (who : Sender) (msg : KxxMsg) (full : Bool)
  /-- REGISTER_WRITE_REQUEST (R342). A register write request is authenticated and its writes performed in order and answered with statuses. -/
  | registerWriteRequest (who : Sender) (msg : KxxMsg) (full : Bool) (fuseOk : Bool)
  /-- HELLO (R341). A hello request is answered with the boot count and serial. -/
  | hello (who : Sender) (msg : KxxMsg) (full : Bool)
  /-- EVENT_RETRANSMISSION (R348). A retransmission request is answered with the requested records still held. -/
  | eventRetransmission (who : Sender) (msg : KxxMsg) (full : Bool)
  /-- ARP_REQUEST (R334). An ARP request for the network's address is answered from the arrival port. -/
  | arpRequest (port : MgmtPort) (ask : ArpAsk)
  /-- MANAGEMENT_FRAME_DISCARD (R335). A management frame that is not KXX-M or ARP, or beyond the authentication rate, is dropped and counted. -/
  | managementFrameDiscard (port : MgmtPort) (frame : MgmtFrame)
  /-- EVENT_MESSAGE_SEND (R347). An event message leaves when 32 records wait or 100 µs after the oldest was raised. -/
  | eventMessageSend
  /-- FILE_BEGIN (R351). A file begin opens a transfer of a type and length, or returns busy. -/
  | fileBegin (who : Sender) (msg : KxxMsg) (full : Bool)
  /-- FILE_DATA (R351). A file data message stages its bytes at its offset. -/
  | fileData (who : Sender) (msg : KxxMsg) (full : Bool)
  /-- FILE_COMMIT (R352). A commit with all bytes present starts verification, otherwise returns invalid. -/
  | fileCommit (who : Sender) (msg : KxxMsg) (full : Bool)
  /-- FILE_ABORT (R352). A file abort discards the open transfer. -/
  | fileAbort (who : Sender) (msg : KxxMsg) (full : Bool)
  /-- FILE_TRANSFER_TIMEOUT (R352). A transfer with no message for 10 s is discarded. -/
  | fileTransferTimeout
  /-- FILE_VERIFY_DONE (R353). Verification of a committed file completes and the file is written, applied or refused with a result event. -/
  | fileVerifyDone (found : VerifyIn)
  /-- BLOCK_QUIESCED (R349). A block with quiesce set and nothing held for 2 µs reports quiesced. -/
  | blockQuiesced (block : JobBlock)
  /-- CROZIER_ISSUE (R358). The device originates a crozier broadcast as root and copies it to every port of the tree. -/
  | crozierIssue (who : Sender) (msg : KxxMsg) (full : Bool)
  /-- STAGE_CLAIM_RECEIVE (R360). A claim with a higher key makes the device yield and follow; the message is relayed. -/
  | stageClaimReceive (link : SideLink) (origin : StagePos) (seq : BitVec 32) (epoch : BitVec 16) (prio : BitVec 8)
  /-- STAGE_BEACON_RECEIVE (R360). A controller beacon is relayed and a higher key makes a controller yield. -/
  | stageBeaconReceive (link : SideLink) (origin : StagePos) (seq : BitVec 32) (epoch : BitVec 16) (prio : BitVec 8)
  /-- STAGE_BEACON_TIMEOUT (R360). No beacon for 30 ms makes a device with non-zero priority flood a claim. -/
  | stageBeaconTimeout
  /-- STAGE_CLAIM_WON (R360). Twenty milliseconds in claiming without a higher key makes the device stage controller. -/
  | stageClaimWon
  /-- STAGE_BEACON_SEND (R360). The controller floods a beacon every 10 ms. -/
  | stageBeaconSend
  /-- STAGE_STATUS_SEND (R364). Every stage device sends a status message every 10 ms. -/
  | stageStatusSend
  /-- STAGE_STATUS_RECEIVE (R364). The controller acts on a peer's status, finding peers, mismatches and throttles. -/
  | stageStatusReceive (link : SideLink) (origin : StagePos) (seq : BitVec 32) (status : StageStat)
  /-- STAGE_PEER_LOST (R364). A peer silent for 30 ms is reported lost. -/
  | stagePeerLost (pos : StagePos)
  /-- SIDEBAND_SILENT (R359). A sideband link with no valid message for 30 ms logs code 9. -/
  | sidebandSilent (link : SideLink)
  /-- CARTRIDGE_BRING_UP (R362). The controller finds a present cartridge and commands its power enable high, one site every 50 ms. -/
  | cartridgeBringUp (pos : StagePos) (site : SiteId)
  /-- CARTRIDGE_IDENTITY_READ (R362). The owning device assigns the dynamic address and reads the identity record. -/
  | cartridgeIdentityRead (site : SiteId) (bytes : List Byte)
  /-- CARTRIDGE_CHECK (R362). The controller checks CRC, part code and loss and releases the groups or refuses the cartridge. -/
  | cartridgeCheck (pos : StagePos) (site : SiteId) (answer : List Byte)
  /-- CARTRIDGE_REMOVAL (R363). Loss of presence holds the site's groups and drives its enable low within 1 ms. -/
  | cartridgeRemoval (site : SiteId)
  /-- CARTRIDGE_TEMPERATURE_POLL (R364). Once a second the controller reads every cartridge temperature and reports one at its limit. -/
  | cartridgeTemperaturePoll (pos : StagePos) (site : SiteId) (temp : BitVec 16)
  /-- QUOTE_DONE (R378). The quote signature completes within 500 ms, or fails with code 6. -/
  | quoteDone (ok : Bool) (rand : List Byte)
  /-- DEBUG_ACCESS_ATTEMPT (R374). An access to a locked debug port is counted, logged and reported. -/
  | debugAccessAttempt
  /-- FLIGHT_RECORD_PERIODIC (R427). A flight-recorder record is written each period. -/
  | flightRecordPeriodic
  /-- POWER_GOOD_LOSS (R441). The integrator drops PWRGOOD and the device resets every die as on the loss of power-good. -/
  | powerGoodLoss
  /-- SUPPLY_RAIL_RETURN (R328). After a supply-fault reset, once the failed rail is back in range the device starts again from step 1 of Table 12.2. -/
  | supplyRailReturn (rail : RailId) (b : BootIn)
  /-- REFERENCE_CLOCK_RETURN (R309). A lost core die reference clock returns, and after it has been present for 10 ms the parked die may be rejoined. -/
  | referenceClockReturn (clock : ClockId)
  /-- GDDR7_CASE_TRIP (R329). A GDDR7 device case reaching 100 °C puts its channel into self-refresh as at shedding step 2. -/
  | gddr7CaseTrip (channel : GddrCh)
  /-- MANAGEMENT_PORT_LINK (R334). A management Ethernet port's link comes up or goes down, changing MGT_PORT_STAT and the port from which events are sent. -/
  | managementPortLink (port : MgmtPort) (up : Bool)
  deriving DecidableEq, Repr

end Sys2Proof
end

