-- ==== Sys2Proof/Machine/State.lean ====
section
/-! DEFINITION. The machine: the module and the queue of commands that wait, its state right after reset, the two ways a step can
stop, and how a meaning over the module becomes the answer of a command. -/

namespace Sys2Proof.Machine

/-- The machine: the waiting commands, first in first out, and the module. -/
structure State where
  pending : List Instr
  chip : Chip
  deriving DecidableEq, Repr

/-- A fault would end a run. The manual describes what the module does on every event, its own failures among them, so no
command raises one. -/
inductive Fault where
  deriving DecidableEq, Repr

/-- A command that the model gives no meaning. -/
inductive Refusal where
  /-- The row of the opcode table has no meaning yet. No arm of `exec` answers it. Safe: the run stops. -/
  | notModelled (mnemonic : String)
  deriving DecidableEq, Repr

/-- Fuses as they leave the factory. DESIGN CHOICE (log 2): the manual gives no values; serial, MAC address and
device-unique key are zero, no wire is excluded, no owner is enrolled; Liasto's keys and the identity keys are free values (log 201).
Debug is locked (R374). -/
def factoryFuses : Fuses :=
  { serial := 0, mac := 0, steppings := (0, 0), wires := [], owner := none, firmware := beBytes 48 (Config.liastoKey 0).toNat ++ beBytes 48 (Config.liastoKey 1).toNat,
    calibration := beBytes 48 (Config.liastoKey 2).toNat ++ beBytes 48 (Config.liastoKey 3).toNat, rollback := 0, slot0Disabled := false, debugLocked := true,
    device := 0, identity := ⟨Config.identityModulus, Config.identityExponent, ⟨beBytes 24 (Config.identitySeed 0).toNat,
      beBytes 24 (Config.identitySeed 1).toNat, beBytes 24 (Config.identitySeed 2).toNat⟩⟩ }

/-- Flash as it leaves the factory. DESIGN CHOICE (log 2): a firmware file in slot 0 that is a free value, the factory key slot, a calibration section for
each engine, bypass quad and core die; no image, no management record. -/
def factoryFlash : Flash :=
  { fw := [(0, ⟨Config.factoryFirmware⟩)], fwActive := 0, fwStaged := false, img := [], imgActive := 0, imgStaged := false,
    log := [], mgmt := none, boots := 0, cal := (List.range 22).map fun i => (i, ⟨true, false, 0, []⟩),
    keys := [(0, ⟨0, List.replicate 48 0⟩)], certs := [] }

/-- The machine right after reset: power present and PWRGOOD low (R307), every register at its reset value, every store
empty, no command waiting. -/
def State.reset : State :=
  { pending := [], chip := { fuses := factoryFuses, flash := factoryFlash, dev := Dev.fresh0, pend := none } }

/-- What a command leaves of a module on which it has had its effect: a block that no longer reports quiesced loses its
bit (R349). -/
def Chip.settled (c : Chip) : Chip := c.on Dev.requiesce

/-- Runs a meaning over the module. -/
def State.onChip (s : State) (f : Chip → Chip) : Host.Outcome State Fault Refusal :=
  .next { s with chip := (f s.chip).settled }

/-- Runs a meaning over the device. -/
def State.onDev (s : State) (f : Dev → Dev) : Host.Outcome State Fault Refusal :=
  .next { s with chip := (s.chip.on f).settled }

end Sys2Proof.Machine
end

