-- ==== Sys2Proof/Machine/Boot.lean ====
section
/-! DEFINITION. The commands of start-up, resets, clocks, headless operation and fatal errors (12, 17). Each meaning is a call of the operation that its rule describes. -/

namespace Sys2Proof.Machine

/-- POWER_GOOD (R307). -/
def execPowerGood (b : BootIn) (s : State) : Host.Outcome State Fault Refusal :=
  s.onChip fun c => c.powerGood b

/-- IMAGE_ACTIVATION (R36). -/
def execImageActivation (s : State) : Host.Outcome State Fault Refusal :=
  s.onChip fun c => c.activate

/-- TRAFFIC_READY (R307). -/
def execTrafficReady (s : State) : Host.Outcome State Fault Refusal :=
  s.onDev fun d => d.trafficReady

/-- PACKAGE_RESET (R414). -/
def execPackageReset (b : BootIn) (s : State) : Host.Outcome State Fault Refusal :=
  s.onChip fun c => c.packageStart b

/-- REFERENCE_CLOCK_LOSS (R309). -/
def execReferenceClockLoss (clock : ClockId) (s : State) : Host.Outcome State Fault Refusal :=
  s.onChip fun c => c.clockLoss clock.val

/-- HUB_RESET (R312). -/
def execHubReset (s : State) : Host.Outcome State Fault Refusal :=
  s.onChip fun c => c.hubReset

/-- HEADLESS_ENTRY (R312). -/
def execHeadlessEntry (die : DieId) (s : State) : Host.Outcome State Fault Refusal :=
  s.onDev fun d => d.headlessEntry die.val

/-- HUB_ATTACH (R314). -/
def execHubAttach (fw0 : SlotRead) (fw1 : SlotRead) (s : State) : Host.Outcome State Fault Refusal :=
  s.onChip fun c => c.attach fw0 fw1

/-- HEADLESS_TIMEOUT (R315). -/
def execHeadlessTimeout (die : DieId) (s : State) : Host.Outcome State Fault Refusal :=
  s.onChip fun c => c.headlessTimeout die.val

/-- HUB_WATCHDOG_EXPIRY (R312). -/
def execHubWatchdogExpiry (s : State) : Host.Outcome State Fault Refusal :=
  s.onChip fun c => c.watchdog

/-- FATAL_ERROR (R413). -/
def execFatalError (die : StrapId) (cause : BitVec 4) (s : State) : Host.Outcome State Fault Refusal :=
  s.onChip fun c => c.fatal die.val cause.toNat

/-- HANDSHAKE_STALL (R413). -/
def execHandshakeStall (die : DieId) (s : State) : Host.Outcome State Fault Refusal :=
  s.onChip fun c => c.handshakeStall die.val

/-- FATAL_WINDOW_CLOSE (R413). -/
def execFatalWindowClose (die : StrapId) (s : State) : Host.Outcome State Fault Refusal :=
  s.onDev fun d => d.windowClose die.val

/-- POWER_GOOD_LOSS (R441). -/
def execPowerGoodLoss (s : State) : Host.Outcome State Fault Refusal :=
  s.onChip fun c => c.powerGoodLoss

/-- SUPPLY_RAIL_RETURN (R328). -/
def execSupplyRailReturn (rail : RailId) (b : BootIn) (s : State) : Host.Outcome State Fault Refusal :=
  s.onChip fun c => c.railReturn rail.val b

/-- REFERENCE_CLOCK_RETURN (R309). -/
def execReferenceClockReturn (clock : ClockId) (s : State) : Host.Outcome State Fault Refusal :=
  s.onDev fun d => d.clockReturn clock.val

end Sys2Proof.Machine
end

