-- ==== Sys2Proof/Machine/BypassMesh.lean ====
section
/-! DEFINITION. The commands of the optical bypass (10). Each meaning is a call of the operation that its rule describes. -/

namespace Sys2Proof.Machine

/-- BYPASS_VERIFY_COMPLETE (R254). -/
def execBypassVerifyComplete (quad : QuadId) (inTap : List Int) (outTaps : List (List Int)) (biasOk : Bool) (s : State) : Host.Outcome State Fault Refusal :=
  s.onDev fun d => d.bypVerify quad.val inTap outTaps biasOk

/-- BYPASS_DARK_INPUT_CHECK (R254). -/
def execBypassDarkInputCheck (quad : QuadId) (input : MeshIn) (level : Int) (s : State) : Host.Outcome State Fault Refusal :=
  s.onDev fun d => d.bypDark quad.val input.val level

/-- BYPASS_TAP_SAMPLE (R257). -/
def execBypassTapSample (quad : QuadId) (ins : List Int) (outs : List Int) (temp : BitVec 16) (s : State) : Host.Outcome State Fault Refusal :=
  s.onDev fun d => d.bypSample quad.val ins outs temp.toNat

/-- BYPASS_TRIM (R257). -/
def execBypassTrim (quad : QuadId) (s : State) : Host.Outcome State Fault Refusal :=
  s.onDev fun d => d.bypTrim quad.val

/-- BYPASS_RECORD_READ (R258). -/
def execBypassRecordRead (quad : QuadId) (bad : List MeshIn) (s : State) : Host.Outcome State Fault Refusal :=
  s.onDev fun d => d.bypRead quad.val (bad.map Fin.val)

end Sys2Proof.Machine
end

