-- ==== Sys2Proof/Machine/FabricTime.lean ====
section
/-! DEFINITION. The commands of fabric time, statistics epochs and the flight recorder (16, 18). Each meaning is a call of the operation that its rule describes. -/

namespace Sys2Proof.Machine

/-- TIME_FRAME_SEND (R383). -/
def execTimeFrameSend (port : LaneId) (s : State) : Host.Outcome State Fault Refusal :=
  s.onDev fun d => d.timeSend port.val

/-- TIME_FRAME_RECEIVE (R384). -/
def execTimeFrameReceive (port : LaneId) (t0 : Word) (t1 : Word) (t2 : Word) (t3 : Word) (s : State) : Host.Outcome State Fault Refusal :=
  s.onDev fun d => d.timeReceive port.val t0 t1 t2 t3

/-- TIME_SOURCE_TIMEOUT (R385). -/
def execTimeSourceTimeout (secondary : Bool) (s : State) : Host.Outcome State Fault Refusal :=
  s.onDev fun d => d.timeTimeout (if secondary then 2 else 1)

/-- TIME_COPY_RELOAD (R381). -/
def execTimeCopyReload (die : DieId) (found : HallTime) (s : State) : Host.Outcome State Fault Refusal :=
  s.onDev fun d => d.copyReload die.val found.toNat

/-- STATISTICS_EPOCH_BOUNDARY (R423). -/
def execStatisticsEpochBoundary (unit : UnitId) (s : State) : Host.Outcome State Fault Refusal :=
  s.onDev fun d => d.epochBoundary unit.val

/-- FLIGHT_RECORD_PERIODIC (R427). -/
def execFlightRecordPeriodic (s : State) : Host.Outcome State Fault Refusal :=
  s.onDev fun d => d.flightPeriodic

end Sys2Proof.Machine
end

