-- ==== Sys2Proof/Machine/Forwarding.lean ====
section
/-! DEFINITION. The commands of forwarding tables and the backing table (5). Each meaning is a call of the operation that its rule describes. -/

namespace Sys2Proof.Machine

/-- BACKING_FETCH_RETURN (R126). -/
def execBackingFetchReturn (die : DieId) (key : GidKey) (fault : FetchFault) (s : State) : Host.Outcome State Fault Refusal :=
  s.onDev fun d => d.fetchReturn die.val key.toNat fault

/-- BACKING_FETCH_TIMEOUT (R127). -/
def execBackingFetchTimeout (die : DieId) (key : GidKey) (s : State) : Host.Outcome State Fault Refusal :=
  s.onDev fun d => d.fetchTimeout die.val key.toNat

/-- TABLE_COMMAND_DONE (R136). -/
def execTableCommandDone (die : DieId) (s : State) : Host.Outcome State Fault Refusal :=
  s.onDev fun d => d.tblDone die.val

/-- BANK_SWAP_APPLY (R140). -/
def execBankSwapApply (s : State) : Host.Outcome State Fault Refusal :=
  s.onDev fun d => d.swapApply

/-- DRAIN_TIMER_EXPIRY (R140). -/
def execDrainTimerExpiry (die : DieId) (s : State) : Host.Outcome State Fault Refusal :=
  s.onDev fun d => d.drainExpiry die.val

/-- AGE_TICK (R130). -/
def execAgeTick (die : DieId) (s : State) : Host.Outcome State Fault Refusal :=
  s.onDev fun d => d.ageTickStep die.val

/-- CROSS_DIE_TABLE_CHANGE (R131). -/
def execCrossDieTableChange (die : DieId) (lost : Bool) (s : State) : Host.Outcome State Fault Refusal :=
  s.onDev fun d => d.crossChange die.val lost

/-- FILTER_REBUILD_DONE (R143). -/
def execFilterRebuildDone (die : DieId) (bank : BankId) (s : State) : Host.Outcome State Fault Refusal :=
  s.onDev fun d => d.filterRebuilt die.val bank.val

end Sys2Proof.Machine
end

