-- ==== Sys2Proof/Machine/Links.lean ====
section
/-! DEFINITION. The commands of lanes, training and the link layer (11, 17). Each meaning is a call of the operation that its rule describes. -/

namespace Sys2Proof.Machine

/-- LINK_BLOCK_TRANSMIT (R271). -/
def execLinkBlockTransmit (port : LaneId) (s : State) : Host.Outcome State Fault Refusal :=
  s.onDev fun d => d.blockTransmit port.val

/-- LINK_BLOCK_RECEIVE (R272). -/
def execLinkBlockReceive (port : LaneId) (low : List (BitVec 2)) (others : List (List (BitVec 2))) (s : State) : Host.Outcome State Fault Refusal :=
  s.onDev fun d => d.blockReceive port.val ((low :: others).map fun l => l.map BitVec.toNat)

/-- REPLAY_REQUEST_RECEIVE (R273). -/
def execReplayRequestReceive (port : LaneId) (seq : BitVec 10) (s : State) : Host.Outcome State Fault Refusal :=
  s.onDev fun d => d.replayRequest port.val seq.toNat

/-- REPLAY_TIMER_EXPIRY (R273). -/
def execReplayTimerExpiry (port : LaneId) (s : State) : Host.Outcome State Fault Refusal :=
  s.onDev fun d => d.replayTimer port.val

/-- REPLAY_LIMIT (R274). -/
def execReplayLimit (port : LaneId) (bad : Bool) (s : State) : Host.Outcome State Fault Refusal :=
  s.onDev fun d => d.replayLimit port.val bad

/-- BLOCK_LOCK_LOST (R284). -/
def execBlockLockLost (port : LaneId) (s : State) : Host.Outcome State Fault Refusal :=
  s.onDev fun d => d.blockLockLost port.val

/-- LOSS_OF_SIGNAL (R284). -/
def execLossOfSignal (port : LaneId) (s : State) : Host.Outcome State Fault Refusal :=
  s.onDev fun d => d.lossOfSignal port.val

/-- CREDIT_RETURN_RECEIVE (R277). -/
def execCreditReturnReceive (port : LaneId) (k1 : Word) (k2 : Word) (s : State) : Host.Outcome State Fault Refusal :=
  s.onDev fun d => d.creditReturn port.val k1 k2

/-- CREDIT_RETURN_PERIODIC (R277). -/
def execCreditReturnPeriodic (port : LaneId) (s : State) : Host.Outcome State Fault Refusal :=
  s.onDev fun d => d.creditPeriodic port.val

/-- CREDIT_ADVERT_RECEIVE (R278). -/
def execCreditAdvertReceive (port : LaneId) (ack : Bool) (k1 : Word) (k2 : Word) (s : State) : Host.Outcome State Fault Refusal :=
  s.onDev fun d => d.advertReceive port.val ack k1 k2

/-- CREDIT_ADVERT_REPEAT (R278). -/
def execCreditAdvertRepeat (port : LaneId) (s : State) : Host.Outcome State Fault Refusal :=
  s.onDev fun d => d.advertRepeat port.val

/-- LINK_CONTROL_UNKNOWN (R276). -/
def execLinkControlUnknown (port : LaneId) (s : State) : Host.Outcome State Fault Refusal :=
  s.onDev fun d => d.ctlUnknown port.val

/-- HEARTBEAT_REQUEST_SEND (R279). -/
def execHeartbeatRequestSend (port : LaneId) (s : State) : Host.Outcome State Fault Refusal :=
  s.onDev fun d => d.hbSend port.val

/-- HEARTBEAT_REQUEST_RECEIVE (R31). -/
def execHeartbeatRequestReceive (port : LaneId) (seq : BitVec 32) (stamp : BitVec 32) (s : State) : Host.Outcome State Fault Refusal :=
  s.onDev fun d => d.hbRequest port.val seq.toNat stamp.toNat

/-- HEARTBEAT_ANSWER_RECEIVE (R396). -/
def execHeartbeatAnswerReceive (port : LaneId) (seq : BitVec 32) (stamp : BitVec 32) (hold : BitVec 32) (s : State) : Host.Outcome State Fault Refusal :=
  s.onDev fun d => d.hbAnswer port.val seq.toNat stamp.toNat hold.toNat

/-- HEARTBEAT_MISS (R393). -/
def execHeartbeatMiss (port : LaneId) (s : State) : Host.Outcome State Fault Refusal :=
  s.onDev fun d => d.hbMiss port.val

/-- PORT_LIVENESS_REMOVAL (R395). -/
def execPortLivenessRemoval (port : LaneId) (s : State) : Host.Outcome State Fault Refusal :=
  s.onDev fun d => d.liveRemove port.val

/-- TRAINING_START (R281). -/
def execTrainingStart (port : LaneId) (s : State) : Host.Outcome State Fault Refusal :=
  s.onDev fun d => d.trainStart port.val

/-- TRAINING_WORD_RECEIVE (R280). -/
def execTrainingWordReceive (lane : LaneId) (t0 : Word) (t1 : Word) (t2 : Word) (tap : TapReport) (adapted : Adaptation) (snr : BitVec 16)
    (s : State) : Host.Outcome State Fault Refusal :=
  s.onDev fun d => d.trainWord lane.val t0 t1 t2 tap.high adapted.done snr.toNat tap.ask.val adapted.fail

/-- TRAINING_TIMEOUT (R281). -/
def execTrainingTimeout (port : LaneId) (noSignal : Bool) (s : State) : Host.Outcome State Fault Refusal :=
  s.onDev fun d => d.trainTimeout port.val noSignal

/-- TRAINING_RETRY (R282). -/
def execTrainingRetry (port : LaneId) (s : State) : Host.Outcome State Fault Refusal :=
  s.onDev fun d => d.trainRetry port.val

/-- IDLE_TIMER_EXPIRY (R285). -/
def execIdleTimerExpiry (port : LaneId) (s : State) : Host.Outcome State Fault Refusal :=
  s.onDev fun d => d.idleTimer port.val

/-- IDLE_ENTRY_RECEIVE (R285). -/
def execIdleEntryReceive (port : LaneId) (s : State) : Host.Outcome State Fault Refusal :=
  s.onDev fun d => d.idleEntry port.val

/-- IDLE_EXIT (R286). -/
def execIdleExit (port : LaneId) (s : State) : Host.Outcome State Fault Refusal :=
  s.onDev fun d => d.idleExit port.val

/-- IDLE_EXIT_FAIL (R287). -/
def execIdleExitFail (port : LaneId) (s : State) : Host.Outcome State Fault Refusal :=
  s.onDev fun d => d.idleExitFail port.val

end Sys2Proof.Machine
end

