-- ==== Sys2Proof/Machine/Management.lean ====
section
/-! DEFINITION. The commands of the management path, files, blocks, attestation and debug (14, 15). Each meaning is a call of the operation that its rule describes. -/

namespace Sys2Proof.Machine

/-- REGISTER_READ_REQUEST (R342). -/
def execRegisterReadRequest (who : Sender) (msg : KxxMsg) (full : Bool) (s : State) : Host.Outcome State Fault Refusal :=
  s.onChip fun c => c.readRequest who msg full

/-- REGISTER_WRITE_REQUEST (R342). -/
def execRegisterWriteRequest (who : Sender) (msg : KxxMsg) (full : Bool) (fuseOk : Bool) (s : State) : Host.Outcome State Fault Refusal :=
  s.onChip fun c => c.writeRequest who msg full fuseOk

/-- HELLO (R341). -/
def execHello (who : Sender) (msg : KxxMsg) (full : Bool) (s : State) : Host.Outcome State Fault Refusal :=
  s.onChip fun c => c.hello who msg full

/-- EVENT_RETRANSMISSION (R348). -/
def execEventRetransmission (who : Sender) (msg : KxxMsg) (full : Bool) (s : State) : Host.Outcome State Fault Refusal :=
  s.onChip fun c => c.retransmit who msg full

/-- ARP_REQUEST (R334). -/
def execArpRequest (port : MgmtPort) (ask : ArpAsk) (s : State) : Host.Outcome State Fault Refusal :=
  s.onDev fun d => d.arpRequest port.val ask.addr.toNat ask.vid.toNat

/-- MANAGEMENT_FRAME_DISCARD (R335). -/
def execManagementFrameDiscard (port : MgmtPort) (frame : MgmtFrame) (s : State) : Host.Outcome State Fault Refusal :=
  s.onDev fun d => d.mgmtDiscard port.val frame

/-- EVENT_MESSAGE_SEND (R347). -/
def execEventMessageSend (s : State) : Host.Outcome State Fault Refusal :=
  s.onChip fun c => c.eventSend

/-- FILE_BEGIN (R351). -/
def execFileBegin (who : Sender) (msg : KxxMsg) (full : Bool) (s : State) : Host.Outcome State Fault Refusal :=
  s.onChip fun c => c.fileBegin who msg full

/-- FILE_DATA (R351). -/
def execFileData (who : Sender) (msg : KxxMsg) (full : Bool) (s : State) : Host.Outcome State Fault Refusal :=
  s.onChip fun c => c.fileData who msg full

/-- FILE_COMMIT (R352). -/
def execFileCommit (who : Sender) (msg : KxxMsg) (full : Bool) (s : State) : Host.Outcome State Fault Refusal :=
  s.onChip fun c => c.fileCommit who msg full

/-- FILE_ABORT (R352). -/
def execFileAbort (who : Sender) (msg : KxxMsg) (full : Bool) (s : State) : Host.Outcome State Fault Refusal :=
  s.onChip fun c => c.fileAbort who msg full

/-- FILE_TRANSFER_TIMEOUT (R352). -/
def execFileTransferTimeout (s : State) : Host.Outcome State Fault Refusal :=
  s.onDev fun d => d.fileTimeout

/-- FILE_VERIFY_DONE (R353). -/
def execFileVerifyDone (found : VerifyIn) (s : State) : Host.Outcome State Fault Refusal :=
  s.onChip fun c => c.verifyDone found

/-- BLOCK_QUIESCED (R349). -/
def execBlockQuiesced (block : JobBlock) (s : State) : Host.Outcome State Fault Refusal :=
  s.onDev fun d => d.blockQuiesced block.val

/-- CROZIER_ISSUE (R358). -/
def execCrozierIssue (who : Sender) (msg : KxxMsg) (full : Bool) (s : State) : Host.Outcome State Fault Refusal :=
  s.onChip fun c => c.crozierIssue who msg full

/-- QUOTE_DONE (R378). -/
def execQuoteDone (ok : Bool) (rand : List Byte) (s : State) : Host.Outcome State Fault Refusal :=
  s.onDev fun d => d.quoteDone s.chip.fuses.identity ok rand

/-- DEBUG_ACCESS_ATTEMPT (R374). -/
def execDebugAccessAttempt (s : State) : Host.Outcome State Fault Refusal :=
  s.onDev fun d => d.debugAttempt

/-- MANAGEMENT_PORT_LINK (R334). -/
def execManagementPortLink (port : MgmtPort) (up : Bool) (s : State) : Host.Outcome State Fault Refusal :=
  s.onDev fun d => d.mgmtLink port.val up

end Sys2Proof.Machine
end

