-- ==== Sys2Proof/Machine/Optics.lean ====
section
/-! DEFINITION. The commands of the optical engines (9). Each meaning is a call of the operation that its rule describes. -/

namespace Sys2Proof.Machine

/-- MONITOR_SAMPLE (R223). -/
def execMonitorSample (engine : EngineId) (feeds : List Int) (txf : List Int) (s : State) : Host.Outcome State Fault Refusal :=
  s.onDev fun d => d.monitorSample engine.val feeds txf

/-- SUB_REQUEST_RECEIVE (R231). -/
def execSubRequestReceive (port : LaneId) (seq : BitVec 8) (op : BitVec 4) (src : BitVec 4) (dst : BitVec 4) (s : State) : Host.Outcome State Fault Refusal :=
  s.onDev fun d => d.subRequest port.val seq.toNat op.toNat src.toNat dst.toNat

/-- SUB_FILTER_LOCKED (R231). -/
def execSubFilterLocked (fibre : FibreId) (s : State) : Host.Outcome State Fault Refusal :=
  s.onDev fun d => d.subFilter fibre.val

/-- SUB_READY_RECEIVE (R231). -/
def execSubReadyReceive (port : LaneId) (seq : BitVec 8) (s : State) : Host.Outcome State Fault Refusal :=
  s.onDev fun d => d.subReady port.val seq.toNat

/-- SUB_MODULATOR_LOCKED (R231). -/
def execSubModulatorLocked (fibre : FibreId) (s : State) : Host.Outcome State Fault Refusal :=
  s.onDev fun d => d.subLocked fibre.val

/-- SUB_RECEIVER_ADAPTED (R231). -/
def execSubReceiverAdapted (fibre : FibreId) (s : State) : Host.Outcome State Fault Refusal :=
  s.onDev fun d => d.subAdapted fibre.val

/-- SUB_MIRROR_REQUEST_RECEIVE (R231). -/
def execSubMirrorRequestReceive (port : LaneId) (seq : BitVec 8) (s : State) : Host.Outcome State Fault Refusal :=
  s.onDev fun d => d.subMirror port.val seq.toNat

/-- SUB_MIRROR_VERIFIED (R231). -/
def execSubMirrorVerified (fibre : FibreId) (s : State) : Host.Outcome State Fault Refusal :=
  s.onDev fun d => d.subVerified fibre.val

/-- SUB_MIRROR_GOOD_RECEIVE (R231). -/
def execSubMirrorGoodReceive (port : LaneId) (seq : BitVec 8) (s : State) : Host.Outcome State Fault Refusal :=
  s.onDev fun d => d.subGood port.val seq.toNat

/-- SUB_SWITCH_RECEIVE (R231). -/
def execSubSwitchReceive (port : LaneId) (seq : BitVec 8) (block : Word) (s : State) : Host.Outcome State Fault Refusal :=
  s.onDev fun d => d.subSwitch port.val seq.toNat block.toNat

/-- SUB_SWITCH_BLOCK (R231). -/
def execSubSwitchBlock (fibre : FibreId) (s : State) : Host.Outcome State Fault Refusal :=
  s.onDev fun d => d.subBlock fibre.val

/-- SUB_DONE_RECEIVE (R231). -/
def execSubDoneReceive (port : LaneId) (seq : BitVec 8) (s : State) : Host.Outcome State Fault Refusal :=
  s.onDev fun d => d.subDone port.val seq.toNat

/-- SUB_REFUSE_RECEIVE (R232). -/
def execSubRefuseReceive (port : LaneId) (seq : BitVec 8) (s : State) : Host.Outcome State Fault Refusal :=
  s.onDev fun d => d.subRefuse port.val seq.toNat

/-- SUB_RESEND (R230). -/
def execSubResend (fibre : FibreId) (far : Bool) (s : State) : Host.Outcome State Fault Refusal :=
  s.onDev fun d => d.subResend fibre.val far

/-- SUB_TIMEOUT (R232). -/
def execSubTimeout (fibre : FibreId) (s : State) : Host.Outcome State Fault Refusal :=
  s.onDev fun d => d.subTimeout fibre.val

/-- FEED_RELEASE (R235). -/
def execFeedRelease (engine : EngineId) (s : State) : Host.Outcome State Fault Refusal :=
  s.onDev fun d => d.feedRelease engine.val

/-- FEED_READY_TIMEOUT (R237). -/
def execFeedReadyTimeout (engine : EngineId) (s : State) : Host.Outcome State Fault Refusal :=
  s.onDev fun d => d.feedTimeout engine.val

/-- HEATER_LOOP_UPDATE (R239). -/
def execHeaterLoopUpdate (engine : EngineId) (loop : LoopId) (locked : Bool) (temp : BitVec 16) (slew : BitVec 16) (s : State) : Host.Outcome State Fault Refusal :=
  s.onDev fun d => d.heaterUpdate engine.val loop.val locked temp.toNat slew.toNat

/-- HEATER_UNLOCK (R240). -/
def execHeaterUnlock (engine : EngineId) (loop : LoopId) (s : State) : Host.Outcome State Fault Refusal :=
  s.onDev fun d => d.heaterUnlock engine.val loop.val

/-- CALIBRATION_COMMIT_DONE (R243). -/
def execCalibrationCommitDone (section_ : CalTarget) (ok : Bool) (s : State) : Host.Outcome State Fault Refusal :=
  match section_ with
  | .engine e => s.onChip fun c => c.oeCommitDone e.val ok
  | .quad q => s.onChip fun c => c.bypCommitDone q.val ok

end Sys2Proof.Machine
end

