-- ==== Sys2Proof/Machine/PowerThermal.lean ====
section
/-! DEFINITION. The commands of supply, speed, shedding and heat (13, 20). Each meaning is a call of the operation that its rule describes. -/

namespace Sys2Proof.Machine

/-- AVS_LOOP (R321). -/
def execAvsLoop (die : DieId) (speed : Nat) (temp : BitVec 16) (s : State) : Host.Outcome State Fault Refusal :=
  s.onDev fun d => d.avsLoop die.val speed temp.toNat

/-- SPEED_MARGIN_RECOVER (R322). -/
def execSpeedMarginRecover (die : DieId) (s : State) : Host.Outcome State Fault Refusal :=
  s.onDev fun d => d.marginRecover die.val

/-- SHEDDING_STEP_ENTER (R325). -/
def execSheddingStepEnter (rail : BitVec 16) (s : State) : Host.Outcome State Fault Refusal :=
  s.onDev fun d => d.shedEnter rail.toNat

/-- SHEDDING_STEP_EXIT (R326). -/
def execSheddingStepExit (rail : BitVec 16) (s : State) : Host.Outcome State Fault Refusal :=
  s.onDev fun d => d.shedExit rail.toNat

/-- SUPPLY_FAULT_RESET (R328). -/
def execSupplyFaultReset (s : State) : Host.Outcome State Fault Refusal :=
  s.onChip fun c => c.supplyFault

/-- RAIL_FAULT (R439). -/
def execRailFault (rail : RailId) (s : State) : Host.Outcome State Fault Refusal :=
  s.onChip fun c => c.railFault rail.val

/-- THERMAL_STATE_CHANGE (R330). -/
def execThermalStateChange (part : ThermPart) (temp : BitVec 16) (s : State) : Host.Outcome State Fault Refusal :=
  s.onDev fun d => d.thermChange part.val temp.toNat

/-- THERMAL_TRIP (R330). -/
def execThermalTrip (part : StrapId) (s : State) : Host.Outcome State Fault Refusal :=
  s.onChip fun c => c.thermalTrip part.val

/-- GDDR7_CASE_TRIP (R329). -/
def execGddr7CaseTrip (channel : GddrCh) (s : State) : Host.Outcome State Fault Refusal :=
  s.onDev fun d => d.gddrTrip channel.val

end Sys2Proof.Machine
end

