-- ==== Sys2Proof/Machine/Reduction.lean ====
section
/-! DEFINITION. The commands of reductions, barriers and lichen (6 to 8). Each meaning is a call of the operation that its rule describes. -/

namespace Sys2Proof.Machine

/-- SORUS_FRAME_TAKE (R147). -/
def execSorusFrameTake (array : ArrayId) (met : TakeFaults) (s : State) : Host.Outcome State Fault Refusal :=
  s.onDev fun d => d.sorusTake array.val met.step met.read

/-- RESULT_VERIFY_DONE (R186). -/
def execResultVerifyDone (key : ChunkKey) (faults : List RedFault) (s : State) : Host.Outcome State Fault Refusal :=
  s.onDev fun d => d.verifyDone key faults

/-- SLOT_TIMEOUT (R188). -/
def execSlotTimeout (key : ChunkKey) (s : State) : Host.Outcome State Fault Refusal :=
  s.onDev fun d => d.slotTimeout key

/-- CLOSED_RECORD_RELEASE (R178). -/
def execClosedRecordRelease (key : ChunkKey) (s : State) : Host.Outcome State Fault Refusal :=
  s.onDev fun d => d.closedRelease key

/-- SPILL_RESIDENCY (R181). -/
def execSpillResidency (array : ArrayRead) (s : State) : Host.Outcome State Fault Refusal :=
  s.onDev fun d => d.spillResidency array.array.val array.faults

/-- SPILL_FETCH_RETURN (R181). -/
def execSpillFetchReturn (key : ChunkKey) (fault : FetchFault) (s : State) : Host.Outcome State Fault Refusal :=
  s.onDev fun d => d.spillReturn key fault

/-- SPILL_FETCH_TIMEOUT (R182). -/
def execSpillFetchTimeout (key : ChunkKey) (s : State) : Host.Outcome State Fault Refusal :=
  s.onDev fun d => d.spillTimeout key

/-- BARRIER_TIMEOUT (R198). -/
def execBarrierTimeout (barrier : BarrierId) (s : State) : Host.Outcome State Fault Refusal :=
  s.onDev fun d => d.barrierTimeout barrier.val

/-- LICHEN_DIGEST_RECEIVE (R212). -/
def execLichenDigestReceive (port : LaneId) (pay : List Byte) (s : State) : Host.Outcome State Fault Refusal :=
  s.onDev fun d => d.lichenReceive port.val pay

/-- LICHEN_PENDING_TIMEOUT (R212). -/
def execLichenPendingTimeout (die : DieId) (group : BitVec 16) (chunk : BitVec 16) (jobStep : BitVec 14) (s : State) : Host.Outcome State Fault Refusal :=
  s.onDev fun d => d.lichenTimeout die.val group.toNat chunk.toNat jobStep.toNat

/-- KNOWN_ANSWER_TEST_DONE (R217). -/
def execKnownAnswerTestDone (die : DieId) (out : List Byte) (s : State) : Host.Outcome State Fault Refusal :=
  s.onDev fun d => d.katDone die.val out

end Sys2Proof.Machine
end

