-- ==== Sys2Proof/Machine/Rhizoid.lean ====
section
/-! DEFINITION. The commands of the die-to-die link and the UCIe site (12). Each meaning is a call of the operation that its rule describes. -/

namespace Sys2Proof.Machine

/-- FLIT_RECEIVE (R298). -/
def execFlitReceive (die : DieId) (bundle : FlitBundle) (seq : BitVec 10) (body : FlitBody) (s : State) : Host.Outcome State Fault Refusal :=
  s.onDev fun d => d.flitReceive die.val bundle.val seq.toNat ⟨seq.toNat, 0, body.idx0.toNat, body.idx1.toNat, body.cell0, body.cell1⟩
    (body.flips.map fun x => x.val)

/-- FLIT_RESEND_LIMIT (R298). -/
def execFlitResendLimit (die : DieId) (bundle : FlitBundle) (s : State) : Host.Outcome State Fault Refusal :=
  s.onDev fun d => d.flitLimit die.val bundle.val

/-- WIRE_REPAIR (R299). -/
def execWireRepair (die : DieId) (bundle : WireBundle) (wire : WireId) (s : State) : Host.Outcome State Fault Refusal :=
  s.onDev fun d => d.wireRepair die.val bundle.val wire.val

/-- PEER_DIE_LOST (R84). -/
def execPeerDieLost (die : DieId) (s : State) : Host.Outcome State Fault Refusal :=
  s.onDev fun d => d.peerDieLost die.val

/-- UCIE_MEASUREMENT_ANSWER (R303). -/
def execUcieMeasurementAnswer (answer : List Byte) (s : State) : Host.Outcome State Fault Refusal :=
  s.onDev fun d => d.ucieAnswer answer

/-- UCIE_MEASUREMENT_TIMEOUT (R303). -/
def execUcieMeasurementTimeout (s : State) : Host.Outcome State Fault Refusal :=
  s.onDev fun d => d.ucieTimeout

/-- UCIE_LINK_DOWN (R304). -/
def execUcieLinkDown (s : State) : Host.Outcome State Fault Refusal :=
  s.onDev fun d => d.ucieDown

end Sys2Proof.Machine
end

