-- ==== Sys2Proof/Machine/StageControl.lean ====
section
/-! DEFINITION. The commands of the stage election, peers and cartridges (14). Each meaning is a call of the operation that its rule describes. -/

namespace Sys2Proof.Machine

/-- STAGE_CLAIM_RECEIVE (R360). -/
def execStageClaimReceive (link : SideLink) (origin : StagePos) (seq : BitVec 32) (epoch : BitVec 16) (prio : BitVec 8) (s : State) : Host.Outcome State Fault Refusal :=
  s.onDev fun d => d.claimReceive link.val origin.val seq.toNat epoch.toNat prio.toNat

/-- STAGE_BEACON_RECEIVE (R360). -/
def execStageBeaconReceive (link : SideLink) (origin : StagePos) (seq : BitVec 32) (epoch : BitVec 16) (prio : BitVec 8) (s : State) : Host.Outcome State Fault Refusal :=
  s.onDev fun d => d.beaconReceive link.val origin.val seq.toNat epoch.toNat prio.toNat

/-- STAGE_BEACON_TIMEOUT (R360). -/
def execStageBeaconTimeout (s : State) : Host.Outcome State Fault Refusal :=
  s.onDev fun d => d.beaconTimeout

/-- STAGE_CLAIM_WON (R360). -/
def execStageClaimWon (s : State) : Host.Outcome State Fault Refusal :=
  s.onDev fun d => d.claimWon

/-- STAGE_BEACON_SEND (R360). -/
def execStageBeaconSend (s : State) : Host.Outcome State Fault Refusal :=
  s.onDev fun d => d.beaconSend

/-- STAGE_STATUS_SEND (R364). -/
def execStageStatusSend (s : State) : Host.Outcome State Fault Refusal :=
  s.onDev fun d => d.statusSend

/-- STAGE_STATUS_RECEIVE (R364). -/
def execStageStatusReceive (link : SideLink) (origin : StagePos) (seq : BitVec 32) (status : StageStat) (s : State) : Host.Outcome State Fault Refusal :=
  s.onDev fun d => d.statusReceive link.val origin.val seq.toNat status

/-- STAGE_PEER_LOST (R364). -/
def execStagePeerLost (pos : StagePos) (s : State) : Host.Outcome State Fault Refusal :=
  s.onDev fun d => d.peerSilent pos.val

/-- SIDEBAND_SILENT (R359). -/
def execSidebandSilent (link : SideLink) (s : State) : Host.Outcome State Fault Refusal :=
  s.onDev fun d => d.sideSilent link.val

/-- CARTRIDGE_BRING_UP (R362). -/
def execCartridgeBringUp (pos : StagePos) (site : SiteId) (s : State) : Host.Outcome State Fault Refusal :=
  s.onDev fun d => d.cartBringUp pos.val site.val

/-- CARTRIDGE_IDENTITY_READ (R362). -/
def execCartridgeIdentityRead (site : SiteId) (bytes : List Byte) (s : State) : Host.Outcome State Fault Refusal :=
  s.onDev fun d => d.cartRead site.val bytes

/-- CARTRIDGE_CHECK (R362). -/
def execCartridgeCheck (pos : StagePos) (site : SiteId) (answer : List Byte) (s : State) : Host.Outcome State Fault Refusal :=
  s.onDev fun d => d.cartCheck pos.val site.val answer

/-- CARTRIDGE_REMOVAL (R363). -/
def execCartridgeRemoval (site : SiteId) (s : State) : Host.Outcome State Fault Refusal :=
  s.onDev fun d => d.cartRemove site.val

/-- CARTRIDGE_TEMPERATURE_POLL (R364). -/
def execCartridgeTemperaturePoll (pos : StagePos) (site : SiteId) (temp : BitVec 16) (s : State) : Host.Outcome State Fault Refusal :=
  s.onDev fun d => d.cartPoll pos.val site.val temp.toNat

end Sys2Proof.Machine
end

