-- ==== Sys2Proof/Machine/Traffic.lean ====
section
/-! DEFINITION. The commands of frames from ingress to egress, traffic management, audits (3, 4). Each meaning is a call of the operation that its rule describes. -/

namespace Sys2Proof.Machine

/-- FRAME_ARRIVAL (R60). -/
def execFrameArrival (port : LaneId) (bytes : List Byte) (followed : Bool) (faults : List MemFault) (s : State) : Host.Outcome State Fault Refusal :=
  s.onDev fun d => d.frameArrive port.val bytes followed faults

/-- HOME_DIE_ANSWER (R175). -/
def execHomeDieAnswer (die : DieId) (s : State) : Host.Outcome State Fault Refusal :=
  s.onDev fun d => d.homeAnswer die.val

/-- BAND_ACCEPTANCE (R113). -/
def execBandAcceptance (die : DieId) (port : LaneId) (s : State) : Host.Outcome State Fault Refusal :=
  s.onDev fun d => d.acceptHead die.val port.val

/-- EGRESS_SELECT (R110). -/
def execEgressSelect (port : LaneId) (s : State) : Host.Outcome State Fault Refusal :=
  s.onDev fun d => d.egressSelect port.val

/-- FRAME_DEPARTURE (R113). -/
def execFrameDeparture (port : LaneId) (fault : CellFault) (s : State) : Host.Outcome State Fault Refusal :=
  s.onDev fun d => d.frameDeparture port.val fault

/-- STAGING_CELL_ARRIVAL (R83). -/
def execStagingCellArrival (port : LaneId) (s : State) : Host.Outcome State Fault Refusal :=
  s.onDev fun d => d.stagingArrival port.val

/-- PULL_ACKNOWLEDGE (R24). -/
def execPullAcknowledge (die : DieId) (s : State) : Host.Outcome State Fault Refusal :=
  s.onDev fun d => d.pullAck die.val

/-- PINNED_MAPPING_SWITCH (R95). -/
def execPinnedMappingSwitch (origin : Origin) (bundle : BundleId) (s : State) : Host.Outcome State Fault Refusal :=
  s.onDev fun d => d.mappingSwitch origin bundle.val

/-- SHAPER_REFILL (R111). -/
def execShaperRefill (die : DieId) (s : State) : Host.Outcome State Fault Refusal :=
  s.onDev fun d => d.shaperRefill die.val

/-- RESERVE_BUCKET_REFILL (R110). -/
def execReserveBucketRefill (port : LaneId) (s : State) : Host.Outcome State Fault Refusal :=
  s.onDev fun d => d.reserveRefill port.val

/-- BULK_CAP_REFILL (R331). -/
def execBulkCapRefill (port : LaneId) (s : State) : Host.Outcome State Fault Refusal :=
  s.onDev fun d => d.bulkRefill port.val

/-- PEER_DEPTH_REFRESH (R102). -/
def execPeerDepthRefresh (die : DieId) (s : State) : Host.Outcome State Fault Refusal :=
  s.onDev fun d => d.peerDepthRefresh die.val

/-- SAMPLING_TICK (R116). -/
def execSamplingTick (die : DieSample) (s : State) : Host.Outcome State Fault Refusal :=
  s.onDev fun d => d.samplingTick die.die.val die.parity

/-- SATURATION_DWELL (R117). -/
def execSaturationDwell (port : LaneId) (cls : ClassId) (s : State) : Host.Outcome State Fault Refusal :=
  s.onDev fun d => d.saturationDwell port.val cls.val

/-- AUDIT_PASS_START (R85). -/
def execAuditPassStart (die : DieId) (s : State) : Host.Outcome State Fault Refusal :=
  s.onDev fun d => d.auditStart die.val

/-- AUDIT_PASS_END (R86). -/
def execAuditPassEnd (die : DieId) (s : State) : Host.Outcome State Fault Refusal :=
  s.onDev fun d => d.auditEnd die.val

end Sys2Proof.Machine
end

