-- ==== Sys2Proof/Machine/Dispatch.lean ====
section
/-! DEFINITION. One arm for each command: a direct call of its meaning. -/

namespace Sys2Proof.Machine

def exec (i : Instr) (s : State) : Host.Outcome State Fault Refusal :=
  match i with
  | .powerGood b => Sys2Proof.Machine.execPowerGood b s
  | .imageActivation => Sys2Proof.Machine.execImageActivation s
  | .trafficReady => Sys2Proof.Machine.execTrafficReady s
  | .frameArrival port bytes followed faults => Sys2Proof.Machine.execFrameArrival port bytes followed faults s
  | .homeDieAnswer die => Sys2Proof.Machine.execHomeDieAnswer die s
  | .backingFetchReturn die key fault => Sys2Proof.Machine.execBackingFetchReturn die key fault s
  | .backingFetchTimeout die key => Sys2Proof.Machine.execBackingFetchTimeout die key s
  | .bandAcceptance die port => Sys2Proof.Machine.execBandAcceptance die port s
  | .egressSelect port => Sys2Proof.Machine.execEgressSelect port s
  | .frameDeparture port fault => Sys2Proof.Machine.execFrameDeparture port fault s
  | .stagingCellArrival port => Sys2Proof.Machine.execStagingCellArrival port s
  | .pullAcknowledge die => Sys2Proof.Machine.execPullAcknowledge die s
  | .sorusFrameTake array met => Sys2Proof.Machine.execSorusFrameTake array met s
  | .resultVerifyDone key faults => Sys2Proof.Machine.execResultVerifyDone key faults s
  | .slotTimeout key => Sys2Proof.Machine.execSlotTimeout key s
  | .closedRecordRelease key => Sys2Proof.Machine.execClosedRecordRelease key s
  | .spillResidency array => Sys2Proof.Machine.execSpillResidency array s
  | .spillFetchReturn key fault => Sys2Proof.Machine.execSpillFetchReturn key fault s
  | .spillFetchTimeout key => Sys2Proof.Machine.execSpillFetchTimeout key s
  | .barrierTimeout barrier => Sys2Proof.Machine.execBarrierTimeout barrier s
  | .lichenDigestReceive port pay => Sys2Proof.Machine.execLichenDigestReceive port pay s
  | .lichenPendingTimeout die group chunk jobStep => Sys2Proof.Machine.execLichenPendingTimeout die group chunk jobStep s
  | .linkBlockTransmit port => Sys2Proof.Machine.execLinkBlockTransmit port s
  | .linkBlockReceive port low others => Sys2Proof.Machine.execLinkBlockReceive port low others s
  | .replayRequestReceive port seq => Sys2Proof.Machine.execReplayRequestReceive port seq s
  | .replayTimerExpiry port => Sys2Proof.Machine.execReplayTimerExpiry port s
  | .replayLimit port bad => Sys2Proof.Machine.execReplayLimit port bad s
  | .blockLockLost port => Sys2Proof.Machine.execBlockLockLost port s
  | .lossOfSignal port => Sys2Proof.Machine.execLossOfSignal port s
  | .creditReturnReceive port k1 k2 => Sys2Proof.Machine.execCreditReturnReceive port k1 k2 s
  | .creditReturnPeriodic port => Sys2Proof.Machine.execCreditReturnPeriodic port s
  | .creditAdvertReceive port ack k1 k2 => Sys2Proof.Machine.execCreditAdvertReceive port ack k1 k2 s
  | .creditAdvertRepeat port => Sys2Proof.Machine.execCreditAdvertRepeat port s
  | .linkControlUnknown port => Sys2Proof.Machine.execLinkControlUnknown port s
  | .heartbeatRequestSend port => Sys2Proof.Machine.execHeartbeatRequestSend port s
  | .heartbeatRequestReceive port seq stamp => Sys2Proof.Machine.execHeartbeatRequestReceive port seq stamp s
  | .heartbeatAnswerReceive port seq stamp hold => Sys2Proof.Machine.execHeartbeatAnswerReceive port seq stamp hold s
  | .heartbeatMiss port => Sys2Proof.Machine.execHeartbeatMiss port s
  | .portLivenessRemoval port => Sys2Proof.Machine.execPortLivenessRemoval port s
  | .pinnedMappingSwitch origin bundle => Sys2Proof.Machine.execPinnedMappingSwitch origin bundle s
  | .trainingStart port => Sys2Proof.Machine.execTrainingStart port s
  | .trainingWordReceive lane t0 t1 t2 tap adapted snr => Sys2Proof.Machine.execTrainingWordReceive lane t0 t1 t2 tap adapted snr s
  | .trainingTimeout port noSignal => Sys2Proof.Machine.execTrainingTimeout port noSignal s
  | .trainingRetry port => Sys2Proof.Machine.execTrainingRetry port s
  | .idleTimerExpiry port => Sys2Proof.Machine.execIdleTimerExpiry port s
  | .idleEntryReceive port => Sys2Proof.Machine.execIdleEntryReceive port s
  | .idleExit port => Sys2Proof.Machine.execIdleExit port s
  | .idleExitFail port => Sys2Proof.Machine.execIdleExitFail port s
  | .timeFrameSend port => Sys2Proof.Machine.execTimeFrameSend port s
  | .timeFrameReceive port t0 t1 t2 t3 => Sys2Proof.Machine.execTimeFrameReceive port t0 t1 t2 t3 s
  | .timeSourceTimeout secondary => Sys2Proof.Machine.execTimeSourceTimeout secondary s
  | .timeCopyReload die found => Sys2Proof.Machine.execTimeCopyReload die found s
  | .statisticsEpochBoundary unit => Sys2Proof.Machine.execStatisticsEpochBoundary unit s
  | .shaperRefill die => Sys2Proof.Machine.execShaperRefill die s
  | .reserveBucketRefill port => Sys2Proof.Machine.execReserveBucketRefill port s
  | .bulkCapRefill port => Sys2Proof.Machine.execBulkCapRefill port s
  | .peerDepthRefresh die => Sys2Proof.Machine.execPeerDepthRefresh die s
  | .samplingTick die => Sys2Proof.Machine.execSamplingTick die s
  | .saturationDwell port cls => Sys2Proof.Machine.execSaturationDwell port cls s
  | .auditPassStart die => Sys2Proof.Machine.execAuditPassStart die s
  | .auditPassEnd die => Sys2Proof.Machine.execAuditPassEnd die s
  | .tableCommandDone die => Sys2Proof.Machine.execTableCommandDone die s
  | .bankSwapApply => Sys2Proof.Machine.execBankSwapApply s
  | .drainTimerExpiry die => Sys2Proof.Machine.execDrainTimerExpiry die s
  | .ageTick die => Sys2Proof.Machine.execAgeTick die s
  | .crossDieTableChange die lost => Sys2Proof.Machine.execCrossDieTableChange die lost s
  | .filterRebuildDone die bank => Sys2Proof.Machine.execFilterRebuildDone die bank s
  | .knownAnswerTestDone die out => Sys2Proof.Machine.execKnownAnswerTestDone die out s
  | .monitorSample engine feeds txf => Sys2Proof.Machine.execMonitorSample engine feeds txf s
  | .subRequestReceive port seq op src dst => Sys2Proof.Machine.execSubRequestReceive port seq op src dst s
  | .subFilterLocked fibre => Sys2Proof.Machine.execSubFilterLocked fibre s
  | .subReadyReceive port seq => Sys2Proof.Machine.execSubReadyReceive port seq s
  | .subModulatorLocked fibre => Sys2Proof.Machine.execSubModulatorLocked fibre s
  | .subReceiverAdapted fibre => Sys2Proof.Machine.execSubReceiverAdapted fibre s
  | .subMirrorRequestReceive port seq => Sys2Proof.Machine.execSubMirrorRequestReceive port seq s
  | .subMirrorVerified fibre => Sys2Proof.Machine.execSubMirrorVerified fibre s
  | .subMirrorGoodReceive port seq => Sys2Proof.Machine.execSubMirrorGoodReceive port seq s
  | .subSwitchReceive port seq block => Sys2Proof.Machine.execSubSwitchReceive port seq block s
  | .subSwitchBlock fibre => Sys2Proof.Machine.execSubSwitchBlock fibre s
  | .subDoneReceive port seq => Sys2Proof.Machine.execSubDoneReceive port seq s
  | .subRefuseReceive port seq => Sys2Proof.Machine.execSubRefuseReceive port seq s
  | .subResend fibre far => Sys2Proof.Machine.execSubResend fibre far s
  | .subTimeout fibre => Sys2Proof.Machine.execSubTimeout fibre s
  | .feedRelease engine => Sys2Proof.Machine.execFeedRelease engine s
  | .feedReadyTimeout engine => Sys2Proof.Machine.execFeedReadyTimeout engine s
  | .heaterLoopUpdate engine loop locked temp slew => Sys2Proof.Machine.execHeaterLoopUpdate engine loop locked temp slew s
  | .heaterUnlock engine loop => Sys2Proof.Machine.execHeaterUnlock engine loop s
  | .calibrationCommitDone section_ ok => Sys2Proof.Machine.execCalibrationCommitDone section_ ok s
  | .bypassVerifyComplete quad inTap outTaps biasOk => Sys2Proof.Machine.execBypassVerifyComplete quad inTap outTaps biasOk s
  | .bypassDarkInputCheck quad input level => Sys2Proof.Machine.execBypassDarkInputCheck quad input level s
  | .bypassTapSample quad ins outs temp => Sys2Proof.Machine.execBypassTapSample quad ins outs temp s
  | .bypassTrim quad => Sys2Proof.Machine.execBypassTrim quad s
  | .bypassRecordRead quad bad => Sys2Proof.Machine.execBypassRecordRead quad bad s
  | .flitReceive die bundle seq body => Sys2Proof.Machine.execFlitReceive die bundle seq body s
  | .flitResendLimit die bundle => Sys2Proof.Machine.execFlitResendLimit die bundle s
  | .wireRepair die bundle wire => Sys2Proof.Machine.execWireRepair die bundle wire s
  | .peerDieLost die => Sys2Proof.Machine.execPeerDieLost die s
  | .ucieMeasurementAnswer answer => Sys2Proof.Machine.execUcieMeasurementAnswer answer s
  | .ucieMeasurementTimeout => Sys2Proof.Machine.execUcieMeasurementTimeout s
  | .ucieLinkDown => Sys2Proof.Machine.execUcieLinkDown s
  | .packageReset b => Sys2Proof.Machine.execPackageReset b s
  | .referenceClockLoss clock => Sys2Proof.Machine.execReferenceClockLoss clock s
  | .hubReset => Sys2Proof.Machine.execHubReset s
  | .headlessEntry die => Sys2Proof.Machine.execHeadlessEntry die s
  | .hubAttach fw0 fw1 => Sys2Proof.Machine.execHubAttach fw0 fw1 s
  | .headlessTimeout die => Sys2Proof.Machine.execHeadlessTimeout die s
  | .hubWatchdogExpiry => Sys2Proof.Machine.execHubWatchdogExpiry s
  | .fatalError die cause => Sys2Proof.Machine.execFatalError die cause s
  | .handshakeStall die => Sys2Proof.Machine.execHandshakeStall die s
  | .fatalWindowClose die => Sys2Proof.Machine.execFatalWindowClose die s
  | .avsLoop die speed temp => Sys2Proof.Machine.execAvsLoop die speed temp s
  | .speedMarginRecover die => Sys2Proof.Machine.execSpeedMarginRecover die s
  | .sheddingStepEnter rail => Sys2Proof.Machine.execSheddingStepEnter rail s
  | .sheddingStepExit rail => Sys2Proof.Machine.execSheddingStepExit rail s
  | .supplyFaultReset => Sys2Proof.Machine.execSupplyFaultReset s
  | .railFault rail => Sys2Proof.Machine.execRailFault rail s
  | .thermalStateChange part temp => Sys2Proof.Machine.execThermalStateChange part temp s
  | .thermalTrip part => Sys2Proof.Machine.execThermalTrip part s
  | .registerReadRequest who msg full => Sys2Proof.Machine.execRegisterReadRequest who msg full s
  | .registerWriteRequest who msg full fuseOk => Sys2Proof.Machine.execRegisterWriteRequest who msg full fuseOk s
  | .hello who msg full => Sys2Proof.Machine.execHello who msg full s
  | .eventRetransmission who msg full => Sys2Proof.Machine.execEventRetransmission who msg full s
  | .arpRequest port ask => Sys2Proof.Machine.execArpRequest port ask s
  | .managementFrameDiscard port frame => Sys2Proof.Machine.execManagementFrameDiscard port frame s
  | .eventMessageSend => Sys2Proof.Machine.execEventMessageSend s
  | .fileBegin who msg full => Sys2Proof.Machine.execFileBegin who msg full s
  | .fileData who msg full => Sys2Proof.Machine.execFileData who msg full s
  | .fileCommit who msg full => Sys2Proof.Machine.execFileCommit who msg full s
  | .fileAbort who msg full => Sys2Proof.Machine.execFileAbort who msg full s
  | .fileTransferTimeout => Sys2Proof.Machine.execFileTransferTimeout s
  | .fileVerifyDone found => Sys2Proof.Machine.execFileVerifyDone found s
  | .blockQuiesced block => Sys2Proof.Machine.execBlockQuiesced block s
  | .crozierIssue who msg full => Sys2Proof.Machine.execCrozierIssue who msg full s
  | .stageClaimReceive link origin seq epoch prio => Sys2Proof.Machine.execStageClaimReceive link origin seq epoch prio s
  | .stageBeaconReceive link origin seq epoch prio => Sys2Proof.Machine.execStageBeaconReceive link origin seq epoch prio s
  | .stageBeaconTimeout => Sys2Proof.Machine.execStageBeaconTimeout s
  | .stageClaimWon => Sys2Proof.Machine.execStageClaimWon s
  | .stageBeaconSend => Sys2Proof.Machine.execStageBeaconSend s
  | .stageStatusSend => Sys2Proof.Machine.execStageStatusSend s
  | .stageStatusReceive link origin seq status => Sys2Proof.Machine.execStageStatusReceive link origin seq status s
  | .stagePeerLost pos => Sys2Proof.Machine.execStagePeerLost pos s
  | .sidebandSilent link => Sys2Proof.Machine.execSidebandSilent link s
  | .cartridgeBringUp pos site => Sys2Proof.Machine.execCartridgeBringUp pos site s
  | .cartridgeIdentityRead site bytes => Sys2Proof.Machine.execCartridgeIdentityRead site bytes s
  | .cartridgeCheck pos site answer => Sys2Proof.Machine.execCartridgeCheck pos site answer s
  | .cartridgeRemoval site => Sys2Proof.Machine.execCartridgeRemoval site s
  | .cartridgeTemperaturePoll pos site temp => Sys2Proof.Machine.execCartridgeTemperaturePoll pos site temp s
  | .quoteDone ok rand => Sys2Proof.Machine.execQuoteDone ok rand s
  | .debugAccessAttempt => Sys2Proof.Machine.execDebugAccessAttempt s
  | .flightRecordPeriodic => Sys2Proof.Machine.execFlightRecordPeriodic s
  | .powerGoodLoss => Sys2Proof.Machine.execPowerGoodLoss s
  | .supplyRailReturn rail b => Sys2Proof.Machine.execSupplyRailReturn rail b s
  | .referenceClockReturn clock => Sys2Proof.Machine.execReferenceClockReturn clock s
  | .gddr7CaseTrip channel => Sys2Proof.Machine.execGddr7CaseTrip channel s
  | .managementPortLink port up => Sys2Proof.Machine.execManagementPortLink port up s

end Sys2Proof.Machine
end

