-- ==== Sys2Proof/Machine/Step.lean ====
section
/-! DEFINITION. One step: the command at the front of the queue, or a tick of the reference clock on an empty queue. -/

namespace Sys2Proof.Machine

/-- The machine with its front command taken from the queue. -/
def State.rest (s : State) : State := { s with pending := s.pending.tail }

/-- The machine with a command put at the front of its queue. -/
def State.push (s : State) (c : Instr) : State := { s with pending := c :: s.pending }

/-- One step: the front command acts on the machine with the rest of the queue; on an empty queue one tick of the reference
clock passes (DESIGN CHOICE, log 1). -/
def step (s : State) : Host.Outcome State Fault Refusal :=
  match s.pending with
  | [] => s.onDev Dev.tickStep
  | c :: _ => exec c s.rest

/-- The state in which the next step runs the command that a word spells; the table spells none, so the state stays. -/
def State.withFetchWord (s : State) (nbits w : Nat) : State :=
  match decodeTableWord nbits w with
  | some c => s.push c
  | none => s

end Sys2Proof.Machine
end

