-- ==== Sys2Proof/WellFormed.lean ====
section
/-! DEFINITION. Which terms stand for an event that the module can meet: the limits on a command's operands that their types do
not already set. The meanings are total and do not depend on it. -/

namespace Sys2Proof

open Sys2Proof.Machine

/-- A chunk record's key: die, descriptor, chunk index and job step within their fields (R174). -/
def chunkKeyOk (k : ChunkKey) : Bool := k.die < 2 && k.desc < 32768 && k.chunk < 65536 && k.step < 16384

/-- An origin of frames (R93): a lane, a sorus array or a core die. -/
def originOk : Origin → Bool
  | .port lane => lane < 1024
  | .array a => a < 32
  | .other die => die < 2

/-- The symbols of one block time: 10,880 bits, two in a symbol, on each of one to four lanes (R264, R266, R268). -/
def blockSymbolsOk (lanes : List (List (BitVec 2))) : Bool :=
  1 ≤ lanes.length && lanes.length ≤ 4 && lanes.all fun l => l.length == 5440

/-- A KXX-M message: at most 1,424 bytes of payload and a tag of 16 (R337). -/
def kxxOk (m : KxxMsg) : Bool := m.payload.length ≤ 1424 && m.tag.length == 16

/-- A status message: a 48-bit serial, a 48-byte digest, the eight sites (R364). -/
def stageStatOk (s : StageStat) : Bool := s.serial < 2 ^ 48 && s.digest.length == 48 && s.sites.length == 8

/-- A fatal cause that Table 17.7 gives the die. -/
def fatalOk (die : StrapId) (cause : BitVec 4) : Bool :=
  let c := cause.toNat
  if die.val < 2 then 1 ≤ c && c ≤ 5 else if die.val = 22 then 5 ≤ c && c ≤ 7 else c == 8

/-- The operand limits of each command. -/
def Instr.wellFormed : Instr → Bool
  | .resultVerifyDone k _ | .slotTimeout k | .closedRecordRelease k | .spillFetchReturn k _ | .spillFetchTimeout k => chunkKeyOk k
  | .lichenDigestReceive _ pay => pay.length == 64
  | .linkBlockReceive _ low others => blockSymbolsOk (low :: others)
  | .pinnedMappingSwitch o _ => originOk o
  | .monitorSample _ feeds txf => feeds.length == 18 && txf.length == 8
  | .bypassVerifyComplete _ inTap outTaps _ => inTap.length == 8 && outTaps.all fun l => l.length == 8
  | .bypassTapSample _ ins outs _ => ins.length == 32 && outs.length == 32
  | .flitReceive _ _ _ b => b.cell0.length == 256 && b.cell1.length == 256
  | .fatalError die cause => fatalOk die cause
  | .railFault rail => rail.val != 0
  | .thermalTrip part => part.val < 18 || part.val == 22
  | .registerReadRequest _ m _ | .registerWriteRequest _ m _ _ | .hello _ m _ | .eventRetransmission _ m _ | .fileBegin _ m _
  | .fileData _ m _ | .fileCommit _ m _ | .fileAbort _ m _ | .crozierIssue _ m _ => kxxOk m
  | .stageStatusReceive _ _ _ st => stageStatOk st
  | .cartridgeIdentityRead _ bytes => bytes.length == 128
  | .cartridgeCheck _ _ answer => answer.isEmpty || answer.length == 128
  | .quoteDone ok rand => !ok || rand.length == 72
  | _ => true

/-- Bytes of a frame, message, record or file that a command brings with it. -/
def Instr.carried : Instr → Nat
  | .lichenDigestReceive _ pay => pay.length
  | .registerReadRequest _ m _ | .registerWriteRequest _ m _ _ | .hello _ m _ | .eventRetransmission _ m _ | .fileBegin _ m _
  | .fileData _ m _ | .fileCommit _ m _ | .fileAbort _ m _ | .crozierIssue _ m _ => m.payload.length + m.tag.length
  | .cartridgeIdentityRead _ bytes => bytes.length
  | .cartridgeCheck _ _ answer => answer.length
  | .quoteDone true rand => rand.length
  | _ => 0

end Sys2Proof
end

