-- ==== Sys2Proof/Safety.lean ====
section
/-! DEFINITION. The terms in which claims are stated: what a command leaves as it was, what the fuses may do, what a run that never
stops is. -/

namespace Sys2Proof.Machine

/-- The device of a machine state. -/
abbrev State.dev (s : State) : Dev := s.chip.dev

/-- The parts of the machine. `mgmt` is the management state but for the blocks that report quiesced, which `quiesced` is. -/
inductive Part where
  | pending | fuses | flash | pend | regs | tick | release | freeCtr | out | cfg | time | ev | sw | tm | fw | sy | ln | oe | by_ | d2
  | pw | quiesced | mgmt | se | st | parserDrops
  deriving DecidableEq, Repr

/-- Two machine states hold the same in a part. -/
def Part.same (a b : State) : Part → Prop
  | .pending => b.pending = a.pending
  | .fuses => b.chip.fuses = a.chip.fuses
  | .flash => b.chip.flash = a.chip.flash
  | .pend => b.chip.pend = a.chip.pend
  | .regs => b.dev.regs = a.dev.regs
  | .tick => b.dev.tick = a.dev.tick
  | .release => b.dev.release = a.dev.release
  | .freeCtr => b.dev.freeCtr = a.dev.freeCtr
  | .out => b.dev.out = a.dev.out
  | .cfg => b.dev.cfg = a.dev.cfg
  | .time => b.dev.time = a.dev.time
  | .ev => b.dev.ev = a.dev.ev
  | .sw => b.dev.sw = a.dev.sw
  | .tm => b.dev.tm = a.dev.tm
  | .fw => b.dev.fw = a.dev.fw
  | .sy => b.dev.sy = a.dev.sy
  | .ln => b.dev.ln = a.dev.ln
  | .oe => b.dev.oe = a.dev.oe
  | .by_ => b.dev.by_ = a.dev.by_
  | .d2 => b.dev.d2 = a.dev.d2
  | .pw => b.dev.pw = a.dev.pw
  | .quiesced => b.dev.mg.quiesced = a.dev.mg.quiesced
  | .mgmt => { b.dev.mg with quiesced := 0 } = { a.dev.mg with quiesced := 0 }
  | .se => b.dev.se = a.dev.se
  | .st => b.dev.st = a.dev.st
  | .parserDrops => b.dev.parserDrops = a.dev.parserDrops

/-- Every part but the listed ones is the same in `b` as in `a`. -/
def KeepsBut (l : List Part) (a b : State) : Prop := ∀ p, p ∉ l → p.same a b

/-- Every register but the listed ones reads the same in `b` as in `a`, at every unit and index. -/
def RegsKeptBut (l : List Reg) (a b : State) : Prop :=
  ∀ r u i, r ∉ l → b.dev.rdw r u i = a.dev.rdw r u i

/-- The state that a device effect leaves of the machine. -/
def State.after (s : State) (f : Dev → Dev) : State := { s with chip := (s.chip.on f).settled }

/-- A counting field rises by one, and stops at its largest value. -/
def Counted (f : Fld) (u i : Nat) (a b : State) : Prop := b.dev.rd f u i = Nat.min f.max (a.dev.rd f u i + 1)

/-- The error registers of a block instance hold a code (R408): ERR_FIRST is valid, and the code is the one it holds or a bit of
ERR_NEXT. -/
def Latched (b : ErrBlk) (u code : Nat) (t : State) : Prop :=
  t.dev.rd ⟨b.first, 63, 63⟩ u 0 = 1 ∧ (t.dev.rd ⟨b.first, 55, 48⟩ u 0 = code ∨ wbit (t.dev.rdw b.next u 0) code = true)

/-- One error of a block instance is logged under a code (R408): its count rises by one and its registers hold the code. -/
def Logged (b : ErrBlk) (u code : Nat) (s t : State) : Prop := Counted ⟨b.count, 31, 0⟩ u 0 s t ∧ Latched b u code t

/-- No entry at the positions of a key in a die's on-die table holds a stored error (R143). -/
def KeyClean (d : Dev) (die key : Nat) : Prop :=
  ∀ p ∈ d.logPos die key 32768, ∀ y, smFind d.fw.logical (lgBase die + p) = some y → y.flip = 0

/-- A frame that the ingress pipeline of a running die accepts: it passes every check of the parser, is not link-local, and its job
block is admitted (R60, R311). -/
def Passes (d : Dev) (port : Nat) (bytes : List Byte) : Prop :=
  d.isPort port = true ∧ d.dieRuns (laneDie port) = true ∧ parserReason bytes (d.portBlocks port) = none ∧
  linkLocal (parseFrame bytes).ftype = false ∧ d.admitted (laneDie port) (parseFrame bytes).block = true

/-- The payload of a substitution message (Table 9.4). -/
def subPay (kind seq op from_ to_ block : Nat) : List Byte :=
  wordsPay ([wmk [(63, 56, kind), (55, 48, seq), (47, 44, op), (43, 40, from_), (39, 36, to_)], BitVec.ofNat 64 block] ++
    List.replicate 6 0)

/-- A substitution message as it is put in line on a port. -/
def subCtl (d : Dev) (port kind seq op from_ to_ block : Nat) : Ctl :=
  ⟨port, d.mkLinkFrame (laneDie port) 4 (subPay kind seq op from_ to_ block), d.tick⟩

/-- The registers that counting, events and error logging write (R97, R408 to R411, R420, R426), the blocks' own event
and drop counters aside; a flight-recorder record may meet an injection (R415). -/
def loggingRegs : List Reg :=
  [.CNT_VAL, .CNT_CTRL, .HUB_ERING_STAT, .MEM_FR_STAT, .HUB_INJ_CTRL, .HUB_INJ_STAT, .OE_EVT_CNT, .BYP_EVT_CNT,
   .HUB_ERR_FIRST, .HUB_ERR_NEXT, .HUB_ERR_COUNT, .MGT_ERR_FIRST, .MGT_ERR_NEXT, .MGT_ERR_COUNT,
   .SEC_ERR_FIRST, .SEC_ERR_NEXT, .SEC_ERR_COUNT, .TIME_ERR_FIRST, .TIME_ERR_NEXT, .TIME_ERR_COUNT,
   .D2D_ERR_FIRST, .D2D_ERR_NEXT, .D2D_ERR_COUNT, .FWD_ERR_FIRST, .FWD_ERR_NEXT, .FWD_ERR_COUNT,
   .SWC_ERR_FIRST, .SWC_ERR_NEXT, .SWC_ERR_COUNT, .TM_ERR_FIRST, .TM_ERR_NEXT, .TM_ERR_COUNT,
   .RED_ERR_FIRST, .RED_ERR_NEXT, .RED_ERR_COUNT, .SYNC_ERR_FIRST, .SYNC_ERR_NEXT, .SYNC_ERR_COUNT,
   .LANE_ERR_FIRST, .LANE_ERR_NEXT, .LANE_ERR_COUNT, .OE_ERR_FIRST, .OE_ERR_NEXT, .OE_ERR_COUNT,
   .BYP_ERR_FIRST, .BYP_ERR_NEXT, .BYP_ERR_COUNT]

/-- A record that names a die, descriptor, array, job block and cells that exist. -/
def ChunkRec.InRange (r : ChunkRec) : Prop :=
  r.key.die < 2 ∧ r.key.desc < 32768 ∧ r.array < 16 ∧ r.block < 64 ∧ ∀ u ∈ r.units, u.1 < 32

/-- What may become of the fuses (R366, R369, R375, Table 15.1): a blown fuse stays blown. The factory values stay, the rollback value
never falls, a disabled factory slot stays so, an enrolled owner stays enrolled with the same digests. -/
def FusesOnlyBlow (a b : Fuses) : Prop :=
  b.serial = a.serial ∧ b.mac = a.mac ∧ b.steppings = a.steppings ∧ b.wires = a.wires ∧ b.firmware = a.firmware ∧
  b.calibration = a.calibration ∧ b.debugLocked = a.debugLocked ∧ b.device = a.device ∧ b.identity = a.identity ∧
  a.rollback ≤ b.rollback ∧
  (a.slot0Disabled = true → b.slot0Disabled = true) ∧ (∀ o, a.owner = some o → b.owner = some o)

/-- Core die `i` is reset and parked (R310, Table 12.3): its frames, cells, chunks and tables are gone and no block is admitted on it. The
other die keeps its state, its tables and banks and the state of its ports, and so does every other die. -/
def CoreParked (i : Nat) (s t : State) : Prop :=
  t.dev.dieState i = 2 ∧ (∀ k < 23, k ≠ i → t.dev.dieState k = s.dev.dieState k) ∧
  (∀ e ∈ t.dev.fw.routes, e.1 / 524288 ≠ i) ∧ (∀ e ∈ t.dev.fw.logical, e.1 / 262144 ≠ i) ∧ (∀ x ∈ t.dev.sw.queue, x.die ≠ i) ∧
  (∀ e ∈ t.dev.sw.cells, e.1 / 1048576 ≠ i) ∧ (∀ x ∈ t.dev.sy.recs, x.key.die ≠ i) ∧ t.dev.rdw .HUB_ADMIT 0 i = 0 ∧
  (∀ k, k / 524288 = 1 - i → smFind t.dev.fw.routes k = smFind s.dev.fw.routes k) ∧
  (∀ k, k / 262144 = 1 - i → smFind t.dev.fw.logical k = smFind s.dev.fw.logical k) ∧
  smFind t.dev.fw.active (1 - i) = smFind s.dev.fw.active (1 - i) ∧ t.dev.fw.backing = s.dev.fw.backing ∧
  t.dev.rdw .FWD_EPOCH (1 - i) 0 = s.dev.rdw .FWD_EPOCH (1 - i) 0 ∧
  (∀ p, laneDie p = 1 - i → t.dev.portState p = s.dev.portState p) ∧
  KeepsBut [.regs, .ev, .sw, .tm, .fw, .sy, .ln, .time, .d2, .pw, .out, .parserDrops, .quiesced] s t

/-- Every job block that reports quiesced has its quiesce bit set, and no frame, chunk or barrier left (R349). -/
def QuiescedHeld (s : State) : Prop :=
  ∀ b < 64, s.dev.mg.quiesced.getLsbD b = true → s.dev.on F.MGT_BLK_CTRL_quiesce 0 b = true ∧ s.dev.blockEmpty b = true

/-- The canonical form of the register store: keys rising, and no word equal to its register's reset value. -/
def RegsCanonical (m : RegFile) : Prop := smWf m (fun k => smGet resetTable (keyReg k) 0) = true

/-- A machine in which the hub and both core dies run, attached, and PWRGOOD is high. -/
def Running (s : State) : Prop := s.dev.hubRuns = true ∧ s.dev.dieState 0 = 1 ∧ s.dev.dieState 1 = 1 ∧ s.dev.pw.good = true

end Sys2Proof.Machine
end

