-- ==== Sys2Proof/Certificates/Slice0/Obligations.lean ====
section
/-! DEFINITION. The statements for the provers. -/

open Sys2Proof Sys2Proof.Machine

/-- For every command c and state s, a step of s with c put at the front of its queue is exec of c on s, whose queue is the rest. (00_scope.md, 01_architecture.md) -/
def Obligations.StepTakesFront : Prop :=
  ∀ (c : Instr) (s : State), step (s.push c) = exec c s

/-- With no command waiting a step answers the state after one tick of the reference clock: the tick count rises by one and the queue stays empty. That a step on an empty queue is a tick is the model's choice (log 1). Every step answers a next state, and so does exec for every command: none ends in a fault or a refusal, whatever its operands and the state, and none touches the queue. That a command whose guard fails does nothing, where it could also have stopped, is the model's choice (log 152). (16_fabric_time.md, Table 16.1, 00_scope.md, 17_faults_and_errors.md) -/
def Obligations.StepAnswers : Prop :=
  (∀ s : State, s.pending = [] → ∃ t, step s = .next t ∧ t.dev.tick = s.dev.tick + 1 ∧ t.pending = [] ∧
    KeepsBut [.regs, .tick, .time, .pw, .ln, .out, .freeCtr, .quiesced] s t) ∧
  ((∀ s : State, ∃ t, step s = .next t) ∧
  (∀ (c : Instr) (s : State), ∃ t, exec c s = .next t ∧ t.pending = s.pending))

/-- FRAME_ARRIVAL: a reduction contribution to this device that passes every parser check, is admitted, unfenced and not learned from, and whose slot group has its home on the other die, leaves the delivered frames and waits there for the home die's answer; nothing outside the counters, that list and the delivered frames changes. FRAME_ARRIVAL: a frame whose first failing check of Table 2.8 is number r is dropped: the ingress port's drop count for r rises by one and no queue, table or reduction changes. HOME_DIE_ANSWER: when a contribution waits on a die whose home map names a running home die and the rhizoid link is up, the oldest one leaves the wait and the home die decides on it by check 2 and on; whether another frame follows it in its queue is a free choice (log 159). FRAME_ARRIVAL of a frame that passes the parser, is admitted, unfenced, not learned from, neither multicast nor addressed by rank, and not to this device. With no bank for its epoch it is dropped under FWD reason 2, with no route under 1, by a poisoned route under 4, with hop limit 0 under parser reason 11. Otherwise its route's port, or the member that the bundle's choice gives, where the block is admitted and the port open, has it: with cells for it, no meter and a lossless class or pool it takes its cells and stands last in the queue, unchanged but for colour 3, which leaves as 2; its credit is owed once its cells are free. FRAME_ARRIVAL of such a frame from which the device learns: with no entry for its source key and room for one, the die's table holds afterwards a learned entry with the port's configured target, the source DFID and the present tick of aging; a learned or fetched entry whose target or DFID differs is replaced by the same, and FWD event 1 counts; a static entry stays and FWD event 4 counts. FRAME_ARRIVAL of a multicast frame from which nothing is learned: a group outside its block's region is dropped under SWC reason 6. Of a group without a stage kind and without bundle references, whose ports are all admitted and open, with no meter, a lossless class or pool and cells and a record for it, one record holds its cells and one copy for each port of the bitmap but the arrival port stands in the queue, in the order of the ports. FRAME_ARRIVAL of a barrier arrival to this device: one of no valid counter, another block or generation, a member already there, or a weight that is 0, above 1,024 or over what is expected is dropped under SYNC reason 8 with no counter changed. Any other enters its member and weight; the one that completes a counter without a parent clears the vector and the weight, advances the generation modulo 256 and counts event 9. FRAME_ARRIVAL of a crozier frame: a broadcast with hop limit 0 is dropped under parser reason 11, a malformed one, or one of a tree without ports, under SYNC reason 9. A well-formed broadcast not seen before is among the last 64 sequences of its block afterwards; one seen before counts SYNC event 11 and leaves that record as it was. An acknowledgement to this device adds one for its sequence, or shows its sequence with one. It rests also on readings that are the model's own: log 24, 29, 30, 31, 41, 51, 52, 158, 159, 162, 176. Under hypotheses on the state and operands alone it concludes that exec answers a next state, and what that holds, for frameArrival, homeDieAnswer. (03_switch_core.md, 07_collective_protocol.md, R60, R175, 02_keaxaxis_frames.md, 05_forwarding_tables.md, R65, R119, R129, R88, R197, R200) -/
def Obligations.FrameArrivals : Prop :=
  (∀ (s : State) (port : LaneId) (bytes : List Byte) (followed : Bool),
    let d := s.dev; let die := laneDie port.val; let f := parseFrame bytes
    d.isPort port.val = true → d.dieRuns die = true → parserReason bytes (d.portBlocks port.val) = none →
    f.ftype = 1 → d.admitted die f.block = true → d.fenced die f = false → d.learns port.val f = false →
    f.dest = d.rd F.FWD_DEV_DFID_dfid die 0 → d.on F.SYNC_HOME_DATA_valid die f.slotGroup = true →
    d.rd F.SYNC_HOME_DATA_die die f.slotGroup ≠ die →
    ∃ t, exec (.frameArrival port bytes followed []) s = .next t ∧
      t.dev.fw = { d.fw with homeWait := d.fw.homeWait ++ [⟨die, port.val, 0, f⟩] } ∧
      t.dev.ln.delivered = d.ln.delivered.erase (port.val, bytes) ∧
      RegsKeptBut [.CNT_VAL, .CNT_CTRL] s t ∧ KeepsBut [.regs, .fw, .ln, .quiesced] s t) ∧
  (∀ (s : State) (port : LaneId) (bytes : List Byte) (followed : Bool) (r : Nat),
    s.dev.isPort port.val = true → s.dev.dieRuns (laneDie port.val) = true →
    parserReason bytes (s.dev.portBlocks port.val) = some r →
    ∃ t, exec (.frameArrival port bytes followed []) s = .next t ∧
      smGet t.dev.parserDrops (port.val * 16 + r) 0 = smGet s.dev.parserDrops (port.val * 16 + r) 0 + 1 ∧
      KeepsBut [.regs, .ln, .parserDrops, .quiesced] s t) ∧
  (∀ (s : State) (die : DieId) (p : Parked),
    let d := s.dev
    d.fw.homeWait.find? (fun p => p.die == die.val) = some p → d.on F.SYNC_HOME_DATA_valid die.val p.frame.slotGroup = true →
    d.dieRuns (d.rd F.SYNC_HOME_DATA_die die.val p.frame.slotGroup) = true → d.peerOk = true →
    exec (.homeDieAnswer die) s = .next { s with chip := (s.chip.on fun d =>
      let q := ({ d with fw := { d.fw with homeWait := d.fw.homeWait.eraseP fun q => q.die == die.val } } : Dev).packFree
      q.1.homeDecide (d.rd F.SYNC_HOME_DATA_die die.val p.frame.slotGroup) die.val p.port p.frame q.2).settled }) ∧
  (∀ (s : State) (port : LaneId) (bytes : List Byte) (followed : Bool),
    let d := s.dev; let die := laneDie port.val; let f := parseFrame bytes; let o := Origin.port port.val
    Passes d port.val bytes → f.ftype ≠ 5 → d.fenced die f = false →
    d.learns port.val f = false → f.flag 0 = false → f.flag 2 = false → f.dest ≠ d.rd F.FWD_DEV_DFID_dfid die 0 →
    (f.hop ≠ 0 →
      (d.bankFor die f.epoch = none → ∃ t, exec (.frameArrival port bytes followed []) s = .next t ∧ Counted F.FWD_DROP_CNT_frames die 2 s t ∧ t.dev.sw.queue = d.sw.queue) ∧
      (∀ bank, d.bankFor die f.epoch = some bank →
        ((d.lpm die bank f.dest 24).2 = .none → ∃ t, exec (.frameArrival port bytes followed []) s = .next t ∧ Counted F.FWD_DROP_CNT_frames die 1 s t ∧ t.dev.sw.queue = d.sw.queue) ∧
        ((d.lpm die bank f.dest 24).2 = .poisoned → ∃ t, exec (.frameArrival port bytes followed []) s = .next t ∧ Counted F.FWD_DROP_CNT_frames die 4 s t ∧
          t.dev.sw.queue = d.sw.queue))) ∧
    (f.hop = 0 → ∃ t, exec (.frameArrival port bytes followed []) s = .next t ∧
      smGet t.dev.parserDrops (port.val * 16 + 11) 0 = smGet d.parserDrops (port.val * 16 + 11) 0 + 1 ∧ t.dev.sw.queue = d.sw.queue) ∧
    (∀ bank kind tgt p ks, f.hop ≠ 0 → d.bankFor die f.epoch = some bank → (d.lpm die bank f.dest 24).2 = .target kind tgt →
      (kind = 1 ∧ tgt = p ∧ d.portOpen die p = true) ∨ (kind = 2 ∧ (d.chooseMember o tgt f f.dest none).2 = some p) →
      d.admitted (laneDie p) f.block = true → d.meterOf port.val f.cls = none → d.lossless die (requester o f.cls) f.cls = true →
      smFind d.sw.opens (voqKey o (.port p) f.cls) = none → (d.reserve die o f.cls ((f.len + 255) / 256) false).2 = .ok ks →
      ∃ t x, exec (.frameArrival port bytes followed []) s = .next t ∧ t.dev.sw.queue = d.sw.queue ++ [x] ∧
        x.frame = (if f.colour = 3 ∧ f.ftype ≤ 2 then Frame.setColour f 2 else f) ∧ x.id = d.sw.nextId ∧ x.die = die ∧ x.origin = o ∧
        x.dest = .port p ∧ x.cls = f.cls ∧ x.cells = ks ∧ x.offset = 0 ∧ x.mrec = none ∧ x.enq = d.tick ∧ x.result = none ∧ x.chunk = none ∧
        t.dev.sw.holds = d.sw.holds ++ [⟨d.sw.nextId, port.val, f.cls, creditsFor f.len, ks⟩] ∧ t.dev.sw.nextId = d.sw.nextId + 1 ∧
        t.dev.ln.delivered = d.ln.delivered.erase (port.val, bytes) ∧ KeepsBut [.regs, .ln, .sw, .fw, .ev, .freeCtr, .quiesced] s t)) ∧
  (∀ (s : State) (port : LaneId) (bytes : List Byte) (followed : Bool),
    let d := s.dev; let die := laneDie port.val; let f := parseFrame bytes
    Passes d port.val bytes → f.ftype ≤ 1 → d.fenced die f = false →
    d.learns port.val f = true → f.flag 0 = false → f.flag 2 = false → f.dest ≠ d.rd F.FWD_DEV_DFID_dfid die 0 →
    let key := logKey f.block f.srcRank; let tk := d.rd F.FWD_PORT_CFG_tgt_kind die (port.val % 512)
    let tg := d.rd F.FWD_PORT_CFG_target die (port.val % 512)
    let held := fun (t : State) => ∃ p e, t.dev.findLog die key = some (p, e) ∧
      { e with flip := 0 } = (⟨false, 1, tk, tg, f.srcDfid, f.block, f.srcRank, d.ageTick die, 0⟩ : LogEntry)
    KeyClean d die key →
    (d.findLog die key = none → d.roomLog die key = true → ∃ t, exec (.frameArrival port bytes followed []) s = .next t ∧ held t ∧ Counted F.FWD_EVT_CNT_events die 0 s t) ∧
    (∀ p e, d.findLog die key = some (p, e) → (e.tkind ≠ tk ∨ e.target ≠ tg ∨ e.dfid ≠ f.srcDfid) →
      (e.kind = 1 ∨ e.kind = 2 → ∃ t, exec (.frameArrival port bytes followed []) s = .next t ∧ held t ∧ Counted F.FWD_EVT_CNT_events die 1 s t) ∧
      (e.kind = 0 → ∃ t, exec (.frameArrival port bytes followed []) s = .next t ∧ t.dev.findLog die key = some (p, e) ∧ Counted F.FWD_EVT_CNT_events die 4 s t))) ∧
  (∀ (s : State) (port : LaneId) (bytes : List Byte) (followed : Bool),
    let d := s.dev; let die := laneDie port.val; let f := parseFrame bytes; let o := Origin.port port.val
    Passes d port.val bytes → f.ftype ≠ 5 → d.fenced die f = false →
    d.learns port.val f = false → f.flag 2 = true →
    let e := (d.rd F.SWC_MC_REGION_base die f.block + f.dest % 65536) % 65536; let w := fun i => d.rdw .VM_MC die (e * 19 + i)
    let ps := (d.bitmapPorts w).filter fun p => p != port.val
    (d.rd F.SWC_MC_REGION_size die f.block ≤ f.dest % 65536 → ∃ t, exec (.frameArrival port bytes followed []) s = .next t ∧ Counted F.SWC_DROP_CNT_frames die 6 s t ∧
      t.dev.sw.queue = d.sw.queue) ∧
    (∀ ks, f.dest % 65536 < d.rd F.SWC_MC_REGION_size die f.block → f.hop ≠ 0 → fget (w 16) 1 0 = 0 →
      (∀ i < 8, wbit (w (17 + i / 4)) (16 * (i % 4) + 15) = false) → ps ≠ [] →
      (∀ p ∈ ps, d.admitted (laneDie p) f.block = true ∧ d.portOpen die p = true) → d.meterOf port.val f.cls = none →
      d.lossless die (requester o f.cls) f.cls = true → (d.reserve die o f.cls ((f.len + 255) / 256) true).2 = .ok ks →
      ∃ t xs, exec (.frameArrival port bytes followed []) s = .next t ∧ t.dev.sw.queue = d.sw.queue ++ xs ∧ xs.map (fun x => x.dest) = ps.map Dest.port ∧
        (∀ x ∈ xs, x.frame = (if f.colour = 3 ∧ f.ftype ≤ 2 then Frame.setColour f 2 else f) ∧ x.id = d.sw.nextId ∧ x.die = die ∧
          x.cls = f.cls ∧ x.cells = ks ∧ x.mrec = some d.sw.nextId) ∧
        smFind t.dev.sw.mrecs d.sw.nextId = some ⟨die, if f.cls = 7 then none else some (requester o f.cls), ks, ps.length⟩ ∧
        KeepsBut [.regs, .ln, .sw, .freeCtr, .quiesced] s t)) ∧
  (∀ (s : State) (port : LaneId) (bytes : List Byte) (followed : Bool),
    let d := s.dev; let die := laneDie port.val; let f := parseFrame bytes
    Passes d port.val bytes → f.ftype = 3 → d.fenced die f = false →
    f.flag 2 = false → f.dest = d.rd F.FWD_DEV_DFID_dfid die 0 →
    let b0 := payWord f.payload 0; let b := fget b0 47 35; let cd := b / 4096; let i := b % 4096; let member := fget b0 34 25
    let weight := fget b0 24 14; let v : BarVec := smGet d.sy.barVec b 0; let sum := d.rd F.SYNC_BAR_STAT_weight cd i + weight
    let want := d.rd F.SYNC_BAR_CFG_expected cd i
    let good := 1 ≤ weight ∧ weight ≤ 1024 ∧ wbit b0 63 = false ∧ d.on F.SYNC_BAR_CFG_valid cd i = true ∧
      f.block = d.rd F.SYNC_BAR_CFG_block cd i ∧ fget b0 55 48 = d.rd F.SYNC_BAR_STAT_generation cd i ∧ v.getLsbD member = false ∧ sum ≤ want
    d.dieRuns cd = true →
    (¬ good → ∃ t, exec (.frameArrival port bytes followed []) s = .next t ∧ Counted F.SYNC_DROP_CNT_frames cd 8 s t ∧ t.dev.sy = d.sy ∧
      t.dev.rdw .SYNC_BAR_STAT cd i = d.rdw .SYNC_BAR_STAT cd i) ∧
    (good → sum < want → ∃ t, exec (.frameArrival port bytes followed []) s = .next t ∧ smGet t.dev.sy.barVec b 0 = v ||| BitVec.twoPow 1024 member ∧
      t.dev.rd F.SYNC_BAR_STAT_weight cd i = sum % (F.SYNC_BAR_STAT_weight.max + 1) ∧ t.dev.rd F.SYNC_BAR_STAT_last cd i = member ∧
      t.dev.rd F.SYNC_BAR_STAT_generation cd i = d.rd F.SYNC_BAR_STAT_generation cd i ∧ t.dev.sw.queue = d.sw.queue) ∧
    (good → sum = want → d.on F.SYNC_BAR_TGT_parent cd i = false → ∃ t, exec (.frameArrival port bytes followed []) s = .next t ∧ smGet t.dev.sy.barVec b 0 = 0 ∧
      t.dev.rd F.SYNC_BAR_STAT_weight cd i = 0 ∧ t.dev.rd F.SYNC_BAR_STAT_last cd i = member ∧
      t.dev.rd F.SYNC_BAR_STAT_generation cd i = (d.rd F.SYNC_BAR_STAT_generation cd i + 1) % 256 ∧
      Counted F.SYNC_EVT_CNT_events cd 9 s t)) ∧
  (∀ (s : State) (port : LaneId) (bytes : List Byte) (followed : Bool),
    let d := s.dev; let die := laneDie port.val; let f := parseFrame bytes
    Passes d port.val bytes → f.ftype = 5 →
    let c0 := payWord f.payload 0; let kind := fget c0 63 62; let ports := d.crzPorts die f.block (fget c0 61 60)
    let seen := smGet d.sy.crzSeen f.block []
    (kind = 0 → f.hop = 0 → ∃ t, exec (.frameArrival port bytes followed []) s = .next t ∧
      smGet t.dev.parserDrops (port.val * 16 + 11) 0 = smGet d.parserDrops (port.val * 16 + 11) 0 + 1 ∧ t.dev.sy = d.sy) ∧
    (kind = 0 → f.hop ≠ 0 → f.payload.length < 16 ∨ ports = [] → ∃ t, exec (.frameArrival port bytes followed []) s = .next t ∧ Counted F.SYNC_DROP_CNT_frames die 9 s t ∧
      t.dev.sy = d.sy) ∧
    (kind = 0 → f.hop ≠ 0 → 16 ≤ f.payload.length → ports ≠ [] →
      (f.mseq ∈ seen → ∃ t, exec (.frameArrival port bytes followed []) s = .next t ∧ t.dev.sy.crzSeen = d.sy.crzSeen ∧ Counted F.SYNC_EVT_CNT_events die 11 s t) ∧
      (f.mseq ∉ seen → ∃ t, exec (.frameArrival port bytes followed []) s = .next t ∧ smGet t.dev.sy.crzSeen f.block [] = (f.mseq :: seen).take 64)) ∧
    (kind = 1 → f.payload.length = 16 → f.dest = d.rd F.FWD_DEV_DFID_dfid die 0 → ∃ t, exec (.frameArrival port bytes followed []) s = .next t ∧ t.dev.sy = d.sy ∧
      t.dev.rd F.SYNC_CRZ_STAT_sequence die 0 = f.mseq ∧
      t.dev.rd F.SYNC_CRZ_STAT_acks die 0 = (if f.mseq = d.rd F.SYNC_CRZ_STAT_sequence die 0 then
        Nat.min F.SYNC_CRZ_STAT_acks.max (d.rd F.SYNC_CRZ_STAT_acks die 0 + 1) else 1)))

/-- BAND_ACCEPTANCE: when the share has room for some waiting head of a die toward a port, one waiting frame takes the present tick as its acceptance stamp and the port's admission count rises by its length; nothing outside that queue, TM_ADM_STAT and the programmable counters changes. It rests also on readings that are the model's own: log 27. Under hypotheses on the state and operands alone it concludes that exec answers a next state, and what that holds, for bandAcceptance. (04_traffic_management.md, R113) -/
def Obligations.HeadAccepted : Prop :=
  ∀ (s : State) (die : DieId) (port : LaneId),
    let d := s.dev
    (∃ x ∈ d.waitHeads die.val port.val, d.rd F.TM_ADM_STAT_count die.val port.val + x.frame.len ≤
      d.rd F.TM_ADM_CFG_share die.val port.val) →
    ∃ t, exec (.bandAcceptance die port) s = .next t ∧
      (∃ x ∈ d.waitHeads die.val port.val, { x with stamp := some d.tick } ∈ t.dev.sw.queue ∧
        t.dev.rd F.TM_ADM_STAT_count die.val port.val = d.rd F.TM_ADM_STAT_count die.val port.val + x.frame.len) ∧
      t.dev.sw.queue.length = d.sw.queue.length ∧ RegsKeptBut [.TM_ADM_STAT, .CNT_VAL, .CNT_CTRL] s t ∧
      KeepsBut [.regs, .sw, .quiesced] s t

/-- EGRESS_SELECT: at a frame boundary of an up port whose die runs outside hold, when the scheduler of R110 chooses a frame, its copy toward that destination leaves the queue and it is in transmission at the port with no cell staged, the same but for its ECN mark. No other frame moves, and no other part of the switch changes. It rests also on readings that are the model's own: log 26, 160. Under hypotheses on the state and operands alone it concludes that exec answers a next state, and what that holds, for egressSelect. (04_traffic_management.md, R110) -/
def Obligations.EgressStarts : Prop :=
  ∀ (s : State) (port : LaneId) (pk : Picked),
    let d := s.dev
    d.isPort port.val = true → d.portState port.val = 2 → smFind d.sw.tx port.val = none → d.shed < 5 →
    d.dieRuns (laneDie port.val) = true → d.schedule port.val = some pk →
    ∃ t, exec (.egressSelect port) s = .next t ∧
      t.dev.sw = { d.sw with queue := d.sw.queue.eraseP (fun y => y.id == pk.desc.id && y.dest == pk.desc.dest),
                             tx := smInsert d.sw.tx port.val ⟨{ pk.desc with frame := (d.ecnMark port.val pk.desc.frame).2 }, 0, false⟩ } ∧
      KeepsBut [.regs, .sw, .tm, .quiesced] s t

/-- FRAME_DEPARTURE: outside hold, with an intact frame in transmission at a port, all its cells on the egress die, the port is idle again and the frame, with the hop, epoch and other changes a departing frame takes, is the last thing that left the device, its trailer stomped only if it was cut off. STAGING_CELL_ARRIVAL: the next cell of a frame from the other die enters staging and, unless a multicast record holds it, its acknowledgement waits for the ingress die; a cell beyond the port's window (24 cells a lane, 4 more for class 7) is an overrun, SWC code 7, and does not enter; while the dies do not reach each other none comes (log 185). PULL_ACKNOWLEDGE: the oldest waiting acknowledgement to a die is taken and its cell loses a reference. It rests also on readings that are the model's own: log 28. Under hypotheses on the state and operands alone it concludes that exec answers a next state, and what that holds, for frameDeparture, stagingCellArrival, pullAcknowledge. (03_switch_core.md, R64, R73, R83, R327, R24, R82) -/
def Obligations.FramesLeave : Prop :=
  (∀ (s : State) (port : LaneId) (x : Tx),
    smFind s.dev.sw.tx port.val = some x → (x.desc.die = laneDie port.val ∨ x.desc.cells.length ≤ x.staged) → x.desc.flip = 0 →
    x.desc.result = none → s.dev.shed < 5 →
    ∃ t, exec (.frameDeparture port .none) s = .next t ∧ smFind t.dev.sw.tx port.val = none ∧
      t.dev.out = s.dev.out ++ [.frame port.val
        (if x.desc.origin.port?.isSome then Frame.departed x.desc.frame else x.desc.frame) x.stomp] ∧
      KeepsBut [.regs, .out, .sw, .tm, .ln, .ev, .quiesced] s t) ∧
  ((∀ (s : State) (port : LaneId) (x : Tx) (c : Nat),
    smFind s.dev.sw.tx port.val = some x → x.desc.die ≠ laneDie port.val → x.desc.cells[x.staged]? = some c →
    x.staged < s.dev.stageWindow port.val x.desc.cls → s.dev.peerOk = true →
    ∃ t, exec (.stagingCellArrival port) s = .next t ∧
      t.dev.sw = { (s.dev.commitRead x.desc c).sw with
        tx := smInsert s.dev.sw.tx port.val { x with staged := x.staged + 1 },
        acks := if x.desc.mrec.isSome then s.dev.sw.acks
          else s.dev.sw.acks ++ [⟨x.desc.die, x.desc.id, x.desc.frame.block, c, some port.val, x.desc.cls⟩] } ∧
      RegsKeptBut [.SWC_STAGE_STAT, .CNT_VAL, .CNT_CTRL] s t ∧ KeepsBut [.regs, .sw, .quiesced] s t) ∧
  (∀ (s : State) (port : LaneId) (x : Tx) (c : Nat),
    smFind s.dev.sw.tx port.val = some x → x.desc.die ≠ laneDie port.val → x.desc.cells[x.staged]? = some c →
    s.dev.stageWindow port.val x.desc.cls ≤ x.staged → s.dev.peerOk = true →
    ∃ t, exec (.stagingCellArrival port) s = .next t ∧ Logged .SWC (laneDie port.val) 7 s t ∧
      RegsKeptBut loggingRegs s t ∧ KeepsBut [.regs, .ev, .quiesced] s t) ∧
  (∀ (s : State) (port : LaneId) (x : Tx), smFind s.dev.sw.tx port.val = some x → x.desc.die ≠ laneDie port.val → s.dev.peerOk = false →
    ∃ t, exec (.stagingCellArrival port) s = .next t ∧ KeepsBut [.quiesced] s t) ∧
  (∀ (s : State) (die : DieId) (a : Ack),
    s.dev.sw.acks.find? (fun a => a.die == die.val) = some a →
    ∃ t, exec (.pullAcknowledge die) s = .next t ∧ t.dev.sw.acks = s.dev.sw.acks.eraseP (fun b => b.die == die.val) ∧
      (∀ i, smFind s.dev.sw.cells a.cell = some i → smFind t.dev.sw.cells a.cell =
        if i.refs ≤ 1 then none else some { i with refs := i.refs - 1 }) ∧
      KeepsBut [.regs, .sw, .tm, .ev, .quiesced] s t))

/-- RESERVE_BUCKET_REFILL adds 128 B per lane of the port up to 4,132 B; BULK_CAP_REFILL adds half the payload rate of a capped port, 3,200 B per lane, up to 4,132 B. Nothing else changes. SHAPER_REFILL raises the tokens of every enabled shaper of the die by its rate up to its depth, a changed one after it has taken its written enable, rate and depth, and leaves no shaper of the die marked as changed; PEER_DEPTH_REFRESH makes the die's copy show what the peer holds and changes else only the saturation latches; SAMPLING_TICK of a running die outside freeze and shedding writes time, depth and delay of every queue group of the die at the next entry and advances it; an entry with a parity error is cleared under TM code 4, in freeze too; SATURATION_DWELL of a queue group at or above its threshold latches it and names it in TM_SAT_STAT. It rests also on readings that are the model's own: log 10, 37, 161. Under hypotheses on the state and operands alone it concludes that exec answers a next state, and what that holds, for shaperRefill, reserveBucketRefill, bulkCapRefill, peerDepthRefresh, samplingTick, saturationDwell. (04_traffic_management.md, R110, R331, R102, R111, R112, R116, R117) -/
def Obligations.TrafficRefills : Prop :=
  ((∀ (s : State) (port : LaneId), s.dev.isPort port.val = true →
    ∃ t, exec (.reserveBucketRefill port) s = .next t ∧ t.dev.tm = { s.dev.tm with
        reserve := smInsert s.dev.tm.reserve port.val (Nat.min 4132 (s.dev.reserveOf port.val + 128 * s.dev.portWidth port.val)) } ∧
      KeepsBut [.tm, .quiesced] s t) ∧
  (∀ (s : State) (port : LaneId) (n : Int), smFind s.dev.tm.bulkTokens port.val = some n →
    ∃ t, exec (.bulkCapRefill port) s = .next t ∧ t.dev.tm = { s.dev.tm with
        bulkTokens := smInsert s.dev.tm.bulkTokens port.val (min 4132 (n + 3200 * s.dev.portWidth port.val)) } ∧
      KeepsBut [.tm, .quiesced] s t)) ∧
  ((∀ (s : State) (die : DieId), ∃ t, exec (.shaperRefill die) s = .next t ∧
      (∀ k ∈ t.dev.tm.shaperDirty, laneDie (k / 8) ≠ die.val) ∧
      (∀ k h, smFind s.dev.tm.shapers k = some h → laneDie (k / 8) = die.val → k ∉ s.dev.tm.shaperDirty →
        smFind t.dev.tm.shapers k = some (if h.enable then { h with tokens := min (h.depth : Int) (h.tokens + h.rate) } else h)) ∧
      (∀ k ∈ s.dev.tm.shaperDirty, laneDie (k / 8) = die.val →
        let e := laneDie (k / 8); let i := shpKey (k / 8 % 512) (k % 8); let h := smGet s.dev.tm.shapers k Shaper.off
        let en := s.dev.on F.TM_SHP_CFG_enable e i; let rate := s.dev.rd F.TM_SHP_CFG_rate e i
        let depth := s.dev.rd F.TM_SHP_CFG_depth e i
        let full : Int := if en && !h.enable then depth else min h.tokens depth
        smFind t.dev.tm.shapers k = some ⟨en, rate, depth, if en then min depth (full + rate) else full⟩) ∧
      (∀ k, laneDie (k / 8) ≠ die.val → smFind t.dev.tm.shapers k = smFind s.dev.tm.shapers k) ∧
      { t.dev.tm with shapers := s.dev.tm.shapers, shaperDirty := s.dev.tm.shaperDirty } = s.dev.tm ∧
      KeepsBut [.tm, .quiesced] s t) ∧
  (∀ (s : State) (die : DieId), ∃ t, exec (.peerDepthRefresh die) s = .next t ∧
      t.dev.tm = { s.dev.tm with peerDepth := s.dev.peerView die.val, satLatch := t.dev.tm.satLatch } ∧
      KeepsBut [.tm, .quiesced] s t) ∧
  (∀ (s : State) (die : DieId), s.dev.on F.TM_SAMP_CTRL_freeze die.val 0 = false → s.dev.shed = 0 → s.dev.dieRuns die.val = true →
    ∃ t, exec (.samplingTick ⟨die, []⟩) s = .next t ∧
      t.dev.rd F.TM_QSEL_next die.val 0 = (s.dev.rd F.TM_QSEL_next die.val 0 + 1) % 64 ∧
      (∀ (port : LaneId) (cls : ClassId), s.dev.isPort port.val = true → laneDie port.val = die.val →
        smFind t.dev.tm.samples (sampKey port.val cls.val (s.dev.rd F.TM_QSEL_next die.val 0)) =
          some ⟨s.dev.hallNs die.val, s.dev.depth die.val port.val cls.val, s.dev.headDelay port.val cls.val⟩) ∧
      RegsKeptBut [.TM_QSEL] s t ∧ KeepsBut [.regs, .tm, .quiesced] s t) ∧
  (∀ (s : State) (die : DieId) (r : RingEntry), s.dev.on F.TM_SAMP_CTRL_freeze die.val 0 = true → s.dev.dieRuns die.val = true →
    laneDie r.port.val = die.val →
    ∃ t, exec (.samplingTick ⟨die, [r]⟩) s = .next t ∧
      t.dev.tm = { s.dev.tm with samples := smErase s.dev.tm.samples (sampKey r.port.val r.cls.val r.entry.val) } ∧
      Logged .TM die.val 4 s t ∧ RegsKeptBut loggingRegs s t ∧ KeepsBut [.regs, .tm, .ev, .quiesced] s t) ∧
  (∀ (s : State) (port : LaneId) (cls : ClassId),
    let d := s.dev; let e := laneDie port.val; let k := pcKey (port.val % 512) cls.val
    d.isPort port.val = true → d.rd F.TM_SAT_CFG_dwell e 0 ≠ 0 → d.rd F.TM_Q_CFG_sat_thr e k ≠ 0 →
    d.rd F.TM_Q_CFG_sat_thr e k ≤ d.depth e port.val cls.val → smGet d.tm.satLatch (pcKey port.val cls.val) false = false →
    ∃ t, exec (.saturationDwell port cls) s = .next t ∧ smGet t.dev.tm.satLatch (pcKey port.val cls.val) false = true ∧
      t.dev.rd F.TM_SAT_STAT_event e 0 = 1 ∧ t.dev.rd F.TM_SAT_STAT_port e 0 = port.val % 512 ∧
      t.dev.rd F.TM_SAT_STAT_class e 0 = cls.val ∧ KeepsBut [.regs, .tm, .ev, .quiesced] s t))

/-- AUDIT_PASS_START on a running die clears every mark of the die and sets busy; AUDIT_PASS_END clears busy, adds one to the passes (modulo the field), and gives every cell of the die that was not reached by the end of this pass the suspicion that makes it a leak at the end of the next. The leaks of this pass are the cells not reached now and suspect since the last: their number stands in SWC_AUDIT_STAT leaks, the first 64 in SWC_AUDIT_LEAK with owner and cell number (how a number names a control buffer cell is log 156), and each is logged as SWC code 5. In quiet mode a requester whose count of cells differs from SWC_REQ_STAT is logged as code 4 and mismatch is set, and no mismatch clears it. PINNED_MAPPING_SWITCH ends settling of a pair with nothing queued. Under hypotheses on the state and operands alone it concludes that exec answers a next state, and what that holds, for pinnedMappingSwitch, auditPassStart, auditPassEnd. (03_switch_core.md, R85, R86, R95) -/
def Obligations.AuditPasses : Prop :=
  (∀ (s : State) (die : DieId), s.dev.on F.SWC_AUDIT_STAT_busy die.val 0 = false → s.dev.dieRuns die.val = true →
    ∃ t, exec (.auditPassStart die) s = .next t ∧ t.dev.on F.SWC_AUDIT_STAT_busy die.val 0 = true ∧
      (∀ e ∈ t.dev.sw.cells, e.1 / 1048576 = die.val → e.2.mark = false) ∧
      RegsKeptBut [.SWC_AUDIT_STAT, .SWC_AUDIT_LEAK] s t ∧ KeepsBut [.regs, .sw, .quiesced] s t) ∧
  (∀ (s : State) (die : DieId), s.dev.on F.SWC_AUDIT_STAT_busy die.val 0 = true → s.dev.dieRuns die.val = true →
    let d := s.dev
    let leaks := d.sw.cells.filter fun e => e.1 / 1048576 == die.val && !(d.reached die.val).contains e.1 && !e.2.mark && e.2.suspect
    let off := (List.range 912).filter fun q => (d.sw.cells.filter fun e =>
      e.1 / 1048576 == die.val && !isCtl e.1 && e.2.owner == q).length != d.rd F.SWC_REQ_STAT_in_use die.val q
    let quiet := d.on F.SWC_AUDIT_CTRL_quiet die.val 0
    ∃ t, exec (.auditPassEnd die) s = .next t ∧ t.dev.on F.SWC_AUDIT_STAT_busy die.val 0 = false ∧
      t.dev.rd F.SWC_AUDIT_STAT_leaks die.val 0 = leaks.length % (F.SWC_AUDIT_STAT_leaks.max + 1) ∧
      t.dev.rd F.SWC_AUDIT_STAT_passes die.val 0 = (d.rd F.SWC_AUDIT_STAT_passes die.val 0 + 1) % (F.SWC_AUDIT_STAT_passes.max + 1) ∧
      (∀ n l, leaks[n]? = some l → n < 64 →
        t.dev.rdw .SWC_AUDIT_LEAK die.val n = wmk [(63, 63, 1), (28, 19, l.2.owner), (18, 0, cellNo l.1)]) ∧
      t.dev.sw = { d.sw with cells := d.sw.cells.map fun e => if e.1 / 1048576 = die.val then
        (e.1, { e.2 with mark := e.2.mark || (d.reached die.val).contains e.1,
                         suspect := !(e.2.mark || (d.reached die.val).contains e.1) }) else e } ∧
      t.dev.rd F.SWC_ERR_COUNT_count die.val 0 =
        min 4294967295 (d.rd F.SWC_ERR_COUNT_count die.val 0 + leaks.length + (if quiet then off.length else 0)) ∧
      (leaks ≠ [] → Latched .SWC die.val 5 t) ∧
      (quiet = true → t.dev.rd F.SWC_AUDIT_STAT_mismatch die.val 0 = (if off = [] then 0 else 1) ∧
        (off ≠ [] → Latched .SWC die.val 4 t)) ∧
      RegsKeptBut (.SWC_AUDIT_STAT :: .SWC_AUDIT_LEAK :: loggingRegs) s t ∧ KeepsBut [.regs, .sw, .ev, .quiesced] s t) ∧
  (∀ (s : State) (o : Origin) (b : BundleId), s.dev.pairBusy o b.val = false →
    ∃ t, exec (.pinnedMappingSwitch o b) s = .next t ∧
      t.dev.sw = { s.dev.sw with oldMap := smErase s.dev.sw.oldMap (rrKey o b.val) } ∧ KeepsBut [.sw, .quiesced] s t)

/-- BACKING_FETCH_RETURN, with the key's backing positions readable: a fetch of a key that the die does not hold, returned without error while no frame waits, ends and installs the backing entry as a cached entry of the same target with the die's age tick, and is counted under index 6 (that the fetch counts as four reads of GDDR7 is log 40); with the key present on the die and absent from the backing table, the waiting frames are released in order by the die's own entry. BACKING_FETCH_TIMEOUT: the fetch ends, FWD code 3 is logged with the key, and the waiting frames go on in order by the DFID they arrived with: to this device where it is its own, else by its route. Whether another frame follows a released one in its queue is a free choice (log 159). Under hypotheses on the state and operands alone it concludes that exec answers a next state, and what that holds, for backingFetchReturn, backingFetchTimeout. (05_forwarding_tables.md, R126, R127) -/
def Obligations.FetchEnds : Prop :=
  (∀ (s : State) (die : DieId) (key : GidKey) (p : Nat) (e : LogEntry),
    let d := s.dev; let k := key.toNat
    d.fw.fetches.contains (die.val, k) = true → (∀ x ∈ d.fw.miss, ¬ (x.die = die.val ∧ x.key = k)) →
    d.findLog die.val k = none → d.roomLog die.val k = true → d.findBack die.val k = some (p, e) → e.flip = 0 →
    d.keyUp die.val k = true → KeyClean d die.val k →
    ∃ t q x, exec (.backingFetchReturn die key .none) s = .next t ∧ (die.val, k) ∉ t.dev.fw.fetches ∧
      t.dev.fw.miss = d.fw.miss ∧ t.dev.findLog die.val k = some (q, x) ∧ x.kind = 2 ∧ x.tkind = e.tkind ∧ x.target = e.target ∧
      x.dfid = e.dfid ∧ x.poisoned = e.poisoned ∧ x.ts = d.ageTick die.val ∧
      RegsKeptBut [.CNT_VAL, .CNT_CTRL, .FWD_EVT_CNT, .HUB_INJ_CTRL, .HUB_INJ_STAT] s t ∧ KeepsBut [.regs, .fw, .quiesced] s t) ∧
  (∀ (s : State) (die : DieId) (key : GidKey) (q : Nat) (e : LogEntry),
    let d := s.dev; let k := key.toNat
    d.fw.fetches.contains (die.val, k) = true → d.keyUp die.val k = true → (d.readKey die.val k).findLog die.val k = some (q, e) →
    d.findBack die.val k = none →
    exec (.backingFetchReturn die key .none) s = .next (s.after fun d =>
      ((((d.endFetch die.val k).1.cntPC ⟨2, 4⟩ 1 none none 4).evtCnt .FWD die.val 7).readKey die.val k).each (d.endFetch die.val k).2
        fun d p => d.packFree.1.byEntry die.val p.port p.frame e d.packFree.2)) ∧
  (∀ (s : State) (die : DieId) (key : GidKey),
    let k := key.toNat
    s.dev.fw.fetches.contains (die.val, k) = true →
    ∃ t, exec (.backingFetchTimeout die key) s = .next t ∧ (die.val, k) ∉ t.dev.fw.fetches ∧
      t = (s.after fun d => ((d.endFetch die.val k).1.logErr .FWD die.val 3 (BitVec.ofNat 64 k)).each (d.endFetch die.val k).2
        fun d p => d.packFree.1.byDfid die.val p.port p.frame d.packFree.2) ∧
      Latched .FWD die.val 3 t ∧ KeepsBut [.regs, .sw, .tm, .sy, .ev, .ln, .parserDrops, .fw, .freeCtr, .quiesced] s t)

/-- TABLE_COMMAND_DONE, while the hub runs: FWD_CMD of the die shows busy 0 and the status and count of the command, nothing else of the register changes, and the die has no command running. FILTER_REBUILD_DONE: the bank's filter is in use again. BANK_SWAP_APPLY, while the hub runs: on each die with a requested swap the shadow bank becomes active, E inverts, draining sets and remain takes the drain time; a die without one keeps its bank and its FWD_EPOCH; no route entry changes. DRAIN_TIMER_EXPIRY: draining and remain clear and the epoch stays. Under hypotheses on the state and operands alone it concludes that exec answers a next state, and what that holds, for tableCommandDone, bankSwapApply, drainTimerExpiry, filterRebuildDone. (05_forwarding_tables.md, R136, R142, R143, Table 5.14, R139, R140) -/
def Obligations.TableCommands : Prop :=
  ((∀ (s : State) (die : DieId) (r : TblResult), smFind s.dev.fw.cmd die.val = some r → s.dev.hubRuns = true →
    ∃ t, exec (.tableCommandDone die) s = .next t ∧ t.dev.fw = { s.dev.fw with cmd := smErase s.dev.fw.cmd die.val } ∧
      t.dev.rdw .FWD_CMD die.val 0 =
        fput (fput (fput (s.dev.rdw .FWD_CMD die.val 0) 63 63 0) 62 59 r.status) 44 20 r.count ∧
      t.dev.rd F.FWD_CMD_busy die.val 0 = 0 ∧ t.dev.rd F.FWD_CMD_status die.val 0 = r.status % 16 ∧
      t.dev.rd F.FWD_CMD_count die.val 0 = r.count % 33554432 ∧
      RegsKeptBut [.FWD_CMD] s t ∧ KeepsBut [.regs, .fw, .quiesced] s t) ∧
  (∀ (s : State) (die : DieId) (bank : BankId),
    ∃ t, exec (.filterRebuildDone die bank) s = .next t ∧
      t.dev.fw = { s.dev.fw with rebuild := smErase s.dev.fw.rebuild (die.val * 2 + bank.val) } ∧
      smGet t.dev.fw.rebuild (die.val * 2 + bank.val) false = false ∧ KeepsBut [.fw, .quiesced] s t)) ∧
  ((∀ s : State, s.dev.hubRuns = true → ∃ t, exec .bankSwapApply s = .next t ∧
    (∀ die : DieId, smGet s.dev.fw.swapPend die.val false = true →
      smGet t.dev.fw.active die.val 0 = 1 - smGet s.dev.fw.active die.val 0 ∧
      t.dev.rd F.FWD_EPOCH_epoch die.val 0 = 1 - s.dev.rd F.FWD_EPOCH_epoch die.val 0 ∧
      t.dev.rd F.FWD_EPOCH_draining die.val 0 = 1 ∧
      t.dev.rd F.FWD_EPOCH_remain die.val 0 = s.dev.rd F.FWD_EPOCH_drain die.val 0 ∧
      smGet t.dev.fw.swapPend die.val false = false) ∧
    (∀ die : DieId, smGet s.dev.fw.swapPend die.val false = false →
      smGet t.dev.fw.active die.val 0 = smGet s.dev.fw.active die.val 0 ∧
      t.dev.rdw .FWD_EPOCH die.val 0 = s.dev.rdw .FWD_EPOCH die.val 0) ∧
    t.dev.fw.routes = s.dev.fw.routes ∧ t.dev.fw.logical = s.dev.fw.logical ∧
    RegsKeptBut [.FWD_EPOCH] s t ∧ KeepsBut [.regs, .fw, .quiesced] s t) ∧
  (∀ (s : State) (die : DieId), ∃ t, exec (.drainTimerExpiry die) s = .next t ∧
    t.dev.rdw .FWD_EPOCH die.val 0 = fput (fput (s.dev.rdw .FWD_EPOCH die.val 0) 63 63 0) 31 16 0 ∧
    t.dev.rd F.FWD_EPOCH_draining die.val 0 = 0 ∧ RegsKeptBut [.FWD_EPOCH] s t ∧ KeepsBut [.regs, .quiesced] s t))

/-- AGE_TICK: the age tick of the die advances modulo 2^16; an entry of the die is gone exactly if it is not static, its block has an age limit and its age exceeds the limit; one that stays and is not static has been read, so a stored error in it is corrected or has poisoned it. The other die's entries stay. CROSS_DIE_TABLE_CHANGE: the oldest change sent by the other die is taken. An own insert, move or removal of the key that comes after it, by its tick and in one tick by die 0 coming last, stands, and the change has no effect any more; where die 0's own of the same tick has left already, die 0 sends its entry once more; an own later refresh keeps its timestamp in the changed entry. Else an own static entry of the key stays and is counted as a conflict; a removal removes the die's entry of the key; a refresh changes only the timestamp of the die's entry, and nothing where it has none; an insert or move replaces the die's entry of the key, and installs it where the die holds none and there is room. A lost change logs FWD code 4, copies the table of die 0 to die 1 and leaves no change on its way. The entries at the key's positions hold no stored error (R143). It rests also on readings that are the model's own: log 42. Under hypotheses on the state and operands alone it concludes that exec answers a next state, and what that holds, for ageTick, crossDieTableChange. (05_forwarding_tables.md, R130, R143, R131) -/
def Obligations.TableUpkeep : Prop :=
  (∀ (s : State) (die : DieId), smRising 0 s.dev.fw.logical = true →
    (∀ x ∈ s.dev.fw.logical, x.2.block < 64) →
    let swept := fun (x : Nat × LogEntry) => if x.1 / 262144 = die.val ∧ x.2.kind ≠ 0 then
        (x.1, { x.2 with poisoned := x.2.poisoned || x.2.flip == 2, flip := 0 }) else x
    ∃ t, exec (.ageTick die) s = .next t ∧
      t.dev.rd F.FWD_AGE_CFG_tick die.val 0 = (s.dev.rd F.FWD_AGE_CFG_tick die.val 0 + 1) % 65536 ∧
      (∀ x ∈ s.dev.fw.logical, swept x ∈ t.dev.fw.logical ↔ ¬ (x.1 / 262144 = die.val ∧ x.2.kind ≠ 0 ∧
        s.dev.rd F.FWD_BLK_CFG_age_limit die.val x.2.block ≠ 0 ∧
        s.dev.rd F.FWD_BLK_CFG_age_limit die.val x.2.block <
          (t.dev.rd F.FWD_AGE_CFG_tick die.val 0 + 65536 - x.2.ts) % 65536)) ∧
      (∀ y ∈ t.dev.fw.logical, ∃ x ∈ s.dev.fw.logical, swept x = y) ∧
      RegsKeptBut (.FWD_AGE_CFG :: .FWD_EVT_CNT :: loggingRegs) s t ∧ KeepsBut [.regs, .fw, .ev, .quiesced] s t) ∧
  (∀ (s : State) (die : DieId) (c : CrossChange), s.dev.fw.cross.find? (fun c => c.from_ != die.val) = some c →
    let d := s.dev
    let left := d.fw.cross.eraseP fun x => x.from_ != die.val
    let own := smFind d.fw.lastChange (die.val * 67108864 + c.key)
    let later := fun (w : OwnChange) => c.tick < w.tick ∨ (w.tick = c.tick ∧ die.val = 0)
    (KeyClean d die.val c.key → (∀ w, own = some w → ¬ later w) →
      (∀ (q : Nat) (o : LogEntry), d.findLog die.val c.key = some (q, o) →
        (o.kind = 0 → ∃ t, exec (.crossDieTableChange die false) s = .next t ∧ t.dev.fw = { d.fw with cross := left } ∧
          t.dev.rd F.FWD_EVT_CNT_events die.val 4 = min 281474976710655 (d.rd F.FWD_EVT_CNT_events die.val 4 + 1) ∧
          RegsKeptBut [.FWD_EVT_CNT, .CNT_VAL, .CNT_CTRL] s t ∧ KeepsBut [.regs, .fw, .quiesced] s t) ∧
        (o.kind ≠ 0 → c.entry = none → ∃ t, exec (.crossDieTableChange die false) s = .next t ∧
          t.dev.fw = { d.fw with cross := left, logical := smErase d.fw.logical (lgBase die.val + q) } ∧ KeepsBut [.fw, .quiesced] s t) ∧
        (o.kind ≠ 0 → ∀ e, c.entry = some e → c.refresh = true → ∃ t b, exec (.crossDieTableChange die false) s = .next t ∧
          t.dev.fw = { d.fw with cross := left, logical := smInsert d.fw.logical (lgBase die.val + q) { o with ts := e.ts, flip := b } } ∧
          RegsKeptBut [.HUB_INJ_CTRL, .HUB_INJ_STAT] s t ∧ KeepsBut [.regs, .fw, .quiesced] s t) ∧
        (o.kind ≠ 0 → ∀ e, c.entry = some e → c.refresh = false → e.key = c.key → ∃ t b, exec (.crossDieTableChange die false) s = .next t ∧
          t.dev.fw = { d.fw with cross := left, logical := smInsert d.fw.logical (lgBase die.val + q) { e with flip := b } } ∧
          RegsKeptBut [.HUB_INJ_CTRL, .HUB_INJ_STAT] s t ∧ KeepsBut [.regs, .fw, .quiesced] s t)) ∧
      (d.findLog die.val c.key = none →
        ((c.entry = none ∨ c.refresh = true) → ∃ t, exec (.crossDieTableChange die false) s = .next t ∧
          t.dev.fw = { d.fw with cross := left } ∧ KeepsBut [.fw, .quiesced] s t) ∧
        (∀ e, c.entry = some e → c.refresh = false → e.key = c.key → d.roomLog die.val c.key = true →
          ∃ t q b, exec (.crossDieTableChange die false) s = .next t ∧ t.dev.findLog die.val c.key = some (q, { e with flip := b }) ∧
            (∀ k x, smFind d.fw.logical k = some x → k / 262144 ≠ die.val → smFind t.dev.fw.logical k = some x) ∧
            RegsKeptBut [.FWD_EVT_CNT, .CNT_VAL, .CNT_CTRL, .HUB_INJ_CTRL, .HUB_INJ_STAT] s t ∧ KeepsBut [.regs, .fw, .quiesced] s t))) ∧
    (∀ w, own = some w → later w → w.refresh = none →
      let underway := d.fw.cross.any fun x => x.from_ == die.val && x.key == c.key
      ((w.tick ≠ c.tick ∨ underway = true) → ∃ t, exec (.crossDieTableChange die false) s = .next t ∧
        t.dev.fw = { d.fw with cross := left } ∧ KeepsBut [.fw, .quiesced] s t) ∧
      (w.tick = c.tick → underway = false → d.dieRuns (1 - die.val) = true → ∃ t, exec (.crossDieTableChange die false) s = .next t ∧
        t.dev.fw.cross = left ++ [⟨die.val, c.key, (d.findLog die.val c.key).map Prod.snd, false, d.tick⟩] ∧
        t.dev.fw.logical = d.fw.logical ∧ KeepsBut [.fw, .quiesced] s t)) ∧
    (∀ w ts q o e, own = some w → later w → w.refresh = some ts → KeyClean d die.val c.key → d.findLog die.val c.key = some (q, o) →
      o.kind ≠ 0 → c.entry = some e → c.refresh = false → e.key = c.key → ∃ t b, exec (.crossDieTableChange die false) s = .next t ∧
        t.dev.fw = { d.fw with cross := left, logical := smInsert d.fw.logical (lgBase die.val + q) { e with ts := ts, flip := b } } ∧
        KeepsBut [.regs, .fw, .quiesced] s t) ∧
    (∃ t, exec (.crossDieTableChange die true) s = .next t ∧
      t.dev.fw = { d.fw with cross := [], logical := copyLog d.fw.logical 0 1 } ∧ Logged .FWD die.val 4 s t ∧
      RegsKeptBut loggingRegs s t ∧ KeepsBut [.regs, .fw, .ev, .quiesced] s t))

/-- SLOT_TIMEOUT: a pass-through chunk of a block that is not mirrored closes without a result; an on-die or spilled chunk with a contribution missing aborts under event 1; one with all in and applied completes. CLOSED_RECORD_RELEASE frees the closed record, and SYNC_REC_STAT shows the records left. An abort of an open chunk, its digest aside, closes its record with no unit held, discards every contribution that waits for its array and withdraws every copy of its result that has not begun. Under hypotheses on the state and operands alone it concludes that exec answers a next state, and what that holds, for slotTimeout, closedRecordRelease. (07_collective_protocol.md, R178, R188, R189) -/
def Obligations.ChunksTimeOut : Prop :=
  ((∀ (s : State) (k : ChunkKey) (r : ChunkRec), s.dev.chunk? k = some r →
    (r.state = .passThrough → s.dev.mirrored r.key.die r.block = false → r.InRange →
      ∃ t, exec (.slotTimeout k) s = .next t ∧
        (∀ x ∈ t.dev.sy.recs, x.key = k → x.state = .closed ∧ x.units = [] ∧ x.spillUnits = 0) ∧
        (∃ x ∈ t.dev.sy.recs, x.key = k) ∧ (∀ x, x.key ≠ k → (x ∈ t.dev.sy.recs ↔ x ∈ s.dev.sy.recs)) ∧
        KeepsBut [.regs, .sy, .quiesced] s t) ∧
    (r.state = .onDie ∨ r.state = .spilled → s.dev.allIn r = false →
      exec (.slotTimeout k) s = .next (s.after fun d => d.abortChunk r 1)) ∧
    (r.state = .onDie → s.dev.allIn r = true → r.admitted = r.applied →
      exec (.slotTimeout k) s = .next (s.after fun d => d.completeChunk r [])) ∧
    (r.state = .closed → k.die < 2 → ∃ t, exec (.closedRecordRelease k) s = .next t ∧
      t.dev.sy = { s.dev.sy with recs := s.dev.sy.recs.filter fun x => x.key != k } ∧
      t.dev.rd F.SYNC_REC_STAT_in_use k.die 0 = t.dev.recCount k.die % 32768 ∧
      RegsKeptBut [.SYNC_REC_STAT] s t ∧ KeepsBut [.regs, .sy, .quiesced] s t))) ∧
  (∀ (d : Dev) (r : ChunkRec) (evt : Nat), d.chunk? r.key = some r → r.state = .onDie ∨ r.state = .spilled →
    (∀ x ∈ (d.abortCore r evt).sy.recs, x.key = r.key → x.state = .closed ∧ x.units = [] ∧ x.spillUnits = 0) ∧
    (∀ x ∈ (d.abortCore r evt).sw.queue, contribOf r x = false ∧ x.result ≠ some r.key))

/-- SORUS_FRAME_TAKE: the head that the round robin picks leaves its queue, its cells go back, its payload counts as input of the array (that the array input of a digest is the payload taken is log 10) and is applied to its chunk. Applying a contribution that does not complete the chunk, with no error found, replaces the chunk's record by the one the arithmetic gives and changes no other record, no queue and no table. It rests also on readings that are the model's own: log 31, 32. Under hypotheses on the state and operands alone it concludes that exec answers a next state, and what that holds, for sorusFrameTake. (06_reduction_arithmetic.md, R147, R153, R184) -/
def Obligations.ArrayTakesFrame : Prop :=
  (∀ (s : State) (a : ArrayId) (faults read : List RedFault) (x : Desc) (r : ChunkRec),
    let d := s.dev; let die := a.val / 16; let pk := pcKey (1024 + a.val) 6
    d.shed < 5 → d.dieRuns die = true →
    rrNext (smGet d.tm.drrVoq pk 0) ((headsOf d.sw.queue (.array a.val)).filter fun x => d.takeable x) = some x → x.flip = 0 →
    d.recordFor x = some r →
    exec (.sorusFrameTake a ⟨faults, read⟩) s = .next (s.after fun d =>
      ((({ d with tm := { d.tm with drrVoq := smInsert d.tm.drrVoq pk (x.origin.rank + 1) },
                  sw := { d.sw with queue := d.sw.queue.filter fun y => !(y.id == x.id && y.dest == x.dest) } } : Dev).takeCellsOf
        die x).noteInput a.val x.frame.payload.length).applyTo r x faults read)) ∧
  (∀ (d : Dev) (r : ChunkRec) (x : Desc) (r1 : ChunkRec), r.flip = 0 → r.flips = [] →
    r.apply (d.dscOf r) x.frame d.tick r.accs [] = .ok r1 → r1.admitted ≠ r1.applied →
    ∃ b l, (d.applyTo r x [] []).sy = { d.sy with
        recs := d.sy.recs.map fun y => if y.key == r.key then { r1 with flip := b, flips := l } else y } ∧
      (d.applyTo r x [] []).sw = d.sw ∧ (d.applyTo r x [] []).fw = d.fw ∧ (d.applyTo r x [] []).tm = d.tm ∧
      (d.applyTo r x [] []).ev = d.ev ∧ (d.applyTo r x [] []).out = d.out)

/-- RESULT_VERIFY_DONE: with nothing found and an equal check a sending chunk is verified, and closes at once if its last copy is done; before a copy has left, a check that differs logs RED code 2 (log 48) and an uncorrectable SRAM error is counted in its cell and logs RED code 3, and the chunk, verified, aborts under event 2. Once a copy has left, a result not yet retracted is retracted and RED code 4 is logged: no copy of it waits any more, and its record shows it verified and retracted, or is closed. Of a chunk aborted meanwhile the error is counted and logged only. It rests also on readings that are the model's own: log 48. Under hypotheses on the state and operands alone it concludes that exec answers a next state, and what that holds, for resultVerifyDone. (07_collective_protocol.md, 06_reduction_arithmetic.md, R164, R165, R186) -/
def Obligations.VerificationEnds : Prop :=
  (∀ (s : State) (k : ChunkKey) (r : ChunkRec), s.dev.chunk? k = some r → r.state = .sending → r.verified = false → r.flip = 0 → r.flips = [] →
    let same := crc32c (chunkPayloads (s.dev.dscOf r) r).1.flatten = r.check
    (same → r.copies ≠ 0 → ∃ t, exec (.resultVerifyDone k []) s = .next t ∧
      t.dev.sy = { s.dev.sy with recs := s.dev.sy.recs.map fun x => if x.key == k then { r with verified := true } else x } ∧
      KeepsBut [.sy, .quiesced] s t) ∧
    (same → r.copies = 0 → ∃ t, exec (.resultVerifyDone k []) s = .next t ∧
      (∀ x ∈ t.dev.sy.recs, x.key = k → x.state = .closed ∧ x.units = [] ∧ x.spillUnits = 0) ∧
      (∀ x, x.key ≠ k → (x ∈ t.dev.sy.recs ↔ x ∈ s.dev.sy.recs)) ∧ KeepsBut [.regs, .sy, .quiesced] s t) ∧
    (¬ same → r.left = false → exec (.resultVerifyDone k []) s = .next (s.after fun d =>
      ((d.redErr r 2 (r.unitCell 0)).putChunk { r with verified := true }).abortChunk r 2)) ∧
    (r.left = false → ∀ cell, exec (.resultVerifyDone k [.sram cell]) s = .next (s.after fun d =>
      (((d.sramBad r cell.val).redErr r 3 cell.val).putChunk { r with verified := true }).abortChunk r 2)) ∧
    (r.left = true → r.retracted = false → r.InRange → ∀ found, (¬ same ∧ found = []) ∨ (∃ cell, found = [RedFault.sram cell]) →
      ∃ t, exec (.resultVerifyDone k found) s = .next t ∧ Latched .RED k.die 4 t ∧
        t.dev.rd F.SYNC_EVT_CNT_events k.die 3 = min 281474976710655 (s.dev.rd F.SYNC_EVT_CNT_events k.die 3 + 1) ∧
        (∀ x ∈ t.dev.sw.queue, x.result ≠ some k) ∧
        (∀ x ∈ t.dev.sy.recs, x.key = k → x.state = .closed ∨ (x.verified = true ∧ x.retracted = true)) ∧
        KeepsBut [.regs, .sw, .tm, .sy, .ev, .parserDrops, .fw, .freeCtr, .quiesced] s t)) ∧
  (∀ (s : State) (k : ChunkKey) (r : ChunkRec) (cell : Fin 32), s.dev.chunk? k = some r → r.state = .closed → r.verified = false →
    r.flip = 0 → r.flips = [] → r.InRange →
    ∃ t, exec (.resultVerifyDone k [.sram cell]) s = .next t ∧ Logged .RED k.die (if r.left then 4 else 3) s t ∧
      t.dev.rd F.RED_CELL_STAT_uncorrectable k.die (cellIdx r.array cell.val) =
        min F.RED_CELL_STAT_uncorrectable.max (s.dev.rd F.RED_CELL_STAT_uncorrectable k.die (cellIdx r.array cell.val) + 1) ∧
      t.dev.sy = { s.dev.sy with recs := s.dev.sy.recs.map fun x => if x.key == k then { r with verified := true } else x } ∧
      RegsKeptBut (.RED_CELL_STAT :: .RED_EVT_CNT :: loggingRegs) s t ∧ KeepsBut [.regs, .sy, .ev, .quiesced] s t)

/-- SPILL_RESIDENCY: with spill available and room in the window, the one chunk that waits and that a head needs is made resident if nothing was applied, else its fetch starts and is pending. SPILL_FETCH_RETURN without error makes the chunk resident and lowers the pending fetches; with an uncorrectable one it aborts under SYNC code 3. SPILL_FETCH_TIMEOUT aborts it under code 4. Under hypotheses on the state and operands alone it concludes that exec answers a next state, and what that holds, for spillResidency, spillFetchReturn, spillFetchTimeout. (07_collective_protocol.md, R181, R182, Table 7.10) -/
def Obligations.SpillCommands : Prop :=
  (∀ (s : State) (a : ArrayId) (r : ChunkRec) (faults : List RedFault),
    let d := s.dev; let die := a.val / 16; let array := a.val % 16
    d.spillAvail die = true →
    (d.sy.recs.filter fun r => r.key.die == die && r.array == array && r.state == .spilled && !r.resident && !r.fetching) = [r] →
    d.headNeeds r = true → d.windowUsed die array + r.spillUnits ≤ d.rd F.SYNC_SPILL_CFG_window die 0 →
    (r.applied = 0 → exec (.spillResidency ⟨a, faults⟩) s = .next (s.after fun d => d.makeResident r)) ∧
    (r.applied ≠ 0 → ∃ t, exec (.spillResidency ⟨a, faults⟩) s = .next t ∧
      t.dev.sy = { d.sy with recs := d.sy.recs.map fun x => if x.key == r.key then { r with fetching := true } else x } ∧
      t.dev.rd F.SYNC_SPILL_STAT_pending die 0 = (d.rd F.SYNC_SPILL_STAT_pending die 0 + 1) % 65536 ∧
      RegsKeptBut [.SYNC_SPILL_STAT, .SYNC_EVT_CNT, .CNT_VAL, .CNT_CTRL] s t ∧ KeepsBut [.regs, .sy, .quiesced] s t)) ∧
  (∀ (s : State) (k : ChunkKey) (r : ChunkRec), s.dev.chunk? k = some r → r.fetching = true → r.flip = 0 → r.flips = [] →
    exec (.spillFetchReturn k .none) s = .next (s.after fun d =>
      let d := (d.cntPC ⟨2, 4⟩ 1 none none (r.spillUnits * 64)).cntPC ⟨2, 4⟩ 3 none none 0
      (d.wr F.SYNC_SPILL_STAT_pending k.die 0 (d.rd F.SYNC_SPILL_STAT_pending k.die 0 - 1)).makeResident r) ∧
    exec (.spillFetchReturn k .bad) s = .next (s.after fun d =>
      (((d.cntPC ⟨2, 4⟩ 1 none none (r.spillUnits * 64)).syncErr k.die 3 r.group k.chunk).putChunk r).abortChunk r 2) ∧
    exec (.spillFetchTimeout k) s = .next (s.after fun d => (d.syncErr k.die 4 r.group k.chunk).abortChunk r 2)) ∧
  (∀ (d : Dev) (r : ChunkRec), d.chunk? r.key = some r → r.admitted ≠ r.applied →
    (d.makeResident r).sy = { d.sy with
      recs := d.sy.recs.map fun x => if x.key == r.key then { r with resident := true, fetching := false } else x })

/-- BARRIER_TIMEOUT: a counter of a running die that is valid and has arrivals is released with abort; its vector clears and no other counter's does. The step to the next generation advances it modulo 256 and clears the weight. LICHEN_DIGEST_RECEIVE on the lichen port of an enabled pair, for a slot group without a home map entry: a key neither pending nor resolved opens a pending entry with the partner's digest; a key pending with the own digest alone resolves. Two completed digests with equal checks and no held chunk are counted as equal and the entry is gone. LICHEN_PENDING_TIMEOUT: an entry with one digest and no held chunk is counted as unpaired and gone. It rests also on readings that are the model's own: log 9, 49, 51, 52, 189. Under hypotheses on the state and operands alone it concludes that exec answers a next state, and what that holds, for barrierTimeout, lichenDigestReceive, lichenPendingTimeout. (07_collective_protocol.md, R197, R198, 08_reproducibility.md, R212, R213, Table 8.3) -/
def Obligations.BarriersAndLichen : Prop :=
  ((∀ (s : State) (b : BarrierId),
    let d := s.dev; let die := b.val / 4096; let i := b.val % 4096
    d.dieRuns die = true → d.on F.SYNC_BAR_CFG_valid die i = true → d.rd F.SYNC_BAR_STAT_weight die i ≠ 0 →
    ∃ t, exec (.barrierTimeout b) s = .next t ∧ t = s.after (fun d => d.barrierAbort b.val) ∧
      t.dev.sy = { d.sy with barVec := smErase d.sy.barVec b.val } ∧
      KeepsBut [.regs, .sw, .tm, .sy, .ev, .parserDrops, .fw, .freeCtr, .quiesced] s t) ∧
  (∀ (d : Dev) (b : BarrierId),
    let die := b.val / 4096; let i := b.val % 4096
    (d.barrierNext b.val).rd F.SYNC_BAR_STAT_generation die i = (d.rd F.SYNC_BAR_STAT_generation die i + 1) % 256 ∧
    (d.barrierNext b.val).rd F.SYNC_BAR_STAT_weight die i = 0 ∧ smGet (d.barrierNext b.val).sy.barVec b.val 0 = 0)) ∧
  ((∀ (s : State) (port : LaneId) (pay : List Byte),
    let d := s.dev; let die := laneDie port.val; let g : Digest := ⟨payWord pay 0, payWord pay 1, payWord pay 2, payWord pay 3⟩
    let group := fget g.l0 47 32; let chunk := fget g.l0 31 16; let step := fget g.l0 13 0
    let hit := fun (x : LichenPend) => x.die == die && x.group == group && x.chunk == chunk && x.step == step
    d.on F.RED_LCH_CFG_enable die 0 = true → d.rd F.RED_LCH_CFG_port die 0 = port.val → d.dieRuns die = true →
    d.on F.SYNC_HOME_DATA_valid die group = false →
    (d.sy.lichen.find? hit = none → (die, group, chunk, step) ∉ d.sy.lichenDone →
      (d.sy.lichen.filter fun x => x.die == die).length < 4096 →
      ∃ t, exec (.lichenDigestReceive port pay) s = .next t ∧
        t.dev.sy = { d.sy with lichen := d.sy.lichen ++ [⟨die, group, chunk, step, none, some g⟩] } ∧
        t.dev.rd F.RED_LCH_PEND_pending die 0 = (t.dev.sy.lichen.filter fun x => x.die == die).length ∧
        RegsKeptBut [.RED_LCH_PEND] s t ∧ KeepsBut [.regs, .sy, .quiesced] s t) ∧
    (∀ e o, d.sy.lichen.find? hit = some e → e.partner = none → e.own = some o → o.outcome = 0 → g.outcome = 0 →
      fget o.l1 63 32 = fget g.l1 63 32 → d.heldChunk e = none →
      ∃ t, exec (.lichenDigestReceive port pay) s = .next t ∧ t.dev.sy.lichen = d.sy.lichen.filter (fun x => !hit x) ∧
        t.dev.rd F.RED_LCH_CNT_chunks die 0 = min 281474976710655 (d.rd F.RED_LCH_CNT_chunks die 0 + 1) ∧
        t.dev.sy.recs = d.sy.recs ∧ RegsKeptBut [.RED_LCH_PEND, .RED_LCH_CNT] s t ∧ KeepsBut [.regs, .sy, .quiesced] s t)) ∧
  (∀ (s : State) (die : DieId) (group chunk : BitVec 16) (jobStep : BitVec 14) (e : LichenPend),
    let d := s.dev
    let hit := fun (x : LichenPend) => x.die == die.val && x.group == group.toNat && x.chunk == chunk.toNat && x.step == jobStep.toNat
    d.sy.lichen.find? hit = some e → e.own.isSome ≠ e.partner.isSome → d.heldChunk e = none →
    ∃ t, exec (.lichenPendingTimeout die group chunk jobStep) s = .next t ∧
      t.dev.sy.lichen = d.sy.lichen.filter (fun x => !hit x) ∧
      t.dev.rd F.RED_LCH_CNT_chunks die.val 2 = min 281474976710655 (d.rd F.RED_LCH_CNT_chunks die.val 2 + 1) ∧
      t.dev.sy.recs = d.sy.recs ∧ RegsKeptBut [.RED_LCH_PEND, .RED_LCH_CNT] s t ∧ KeepsBut [.regs, .sy, .ev, .quiesced] s t))

/-- KNOWN_ANSWER_TEST_DONE: a running test outside shedding ends; its run is counted; last shows 1 exactly if the cell's output is the reference unit's, else it shows 2, the failure is counted and RED code 7 is logged (what a test in shedding does is log 58). It rests also on readings that are the model's own: log 57, 58. Under hypotheses on the state and operands alone it concludes that exec answers a next state, and what that holds, for knownAnswerTestDone. (08_reproducibility.md, R168, R216, R217) -/
def Obligations.KnownAnswer : Prop :=
  ∀ (s : State) (die : DieId) (out : List Byte),
    let d := s.dev
    let ref := katReference (d.rd F.RED_KAT_CTRL_format die.val 0) (d.rd F.RED_KAT_CTRL_op die.val 0)
      (d.on F.RED_KAT_CTRL_exact die.val 0) (d.rd F.RED_KAT_CTRL_contrib die.val 0 + 1) (d.rd F.RED_KAT_CTRL_seed die.val 0)
    d.on F.RED_KAT_STAT_busy die.val 0 = true → d.shed = 0 →
    ∃ t, exec (.knownAnswerTestDone die out) s = .next t ∧ t.dev.rd F.RED_KAT_STAT_busy die.val 0 = 0 ∧
      t.dev.rd F.RED_KAT_STAT_runs die.val 0 = min 16777215 (d.rd F.RED_KAT_STAT_runs die.val 0 + 1) ∧
      t.dev.rd F.RED_KAT_STAT_last die.val 0 = (if out = ref then 1 else 2) ∧
      t.dev.rd F.RED_KAT_STAT_fails die.val 0 =
        (if out = ref then d.rd F.RED_KAT_STAT_fails die.val 0 else min 16777215 (d.rd F.RED_KAT_STAT_fails die.val 0 + 1)) ∧
      t.dev.rd F.RED_ERR_COUNT_count die.val 0 =
        (if out = ref then d.rd F.RED_ERR_COUNT_count die.val 0 else min 4294967295 (d.rd F.RED_ERR_COUNT_count die.val 0 + 1)) ∧
      (out ≠ ref → Latched .RED die.val 7 t) ∧
      RegsKeptBut (.RED_KAT_STAT :: loggingRegs) s t ∧ KeepsBut [.regs, .ev, .quiesced] s t

/-- REPLAY_REQUEST_RECEIVE: a request that names a block of the replay buffer starts the replay there and is counted; one outside the unacknowledged range changes nothing but event 9. REPLAY_TIMER_EXPIRY starts the replay at the oldest block. On a port whose link is up: REPLAY_LIMIT logs code 6 on a bad read and code 2 after eight replays, BLOCK_LOCK_LOST code 4 after sixteen blocks, LOSS_OF_SIGNAL code 3 outside an idle, IDLE_EXIT_FAIL code 5 with event 6 in an idle; each takes the link down. It rests also on readings that are the model's own: log 64, 70. Under hypotheses on the state and operands alone it concludes that exec answers a next state, and what that holds, for replayRequestReceive, replayTimerExpiry, replayLimit, blockLockLost, lossOfSignal, idleExitFail. (11_lanes_and_links.md, R273, R274, R284, R287) -/
def Obligations.LinkRecovery : Prop :=
  (∀ (s : State) (port : LaneId), s.dev.linkUp port.val = true →
    let d := s.dev; let e := laneDie port.val; let i := port.val % 512
    (∀ (seq : BitVec 10) (n : Nat), (d.txLink port.val).replay.findIdx? (fun b => b.seq == seq.toNat) = some n →
      ∃ t, exec (.replayRequestReceive port seq) s = .next t ∧
        t.dev.txLink port.val = { d.txLink port.val with cursor := some n, rounds := (d.txLink port.val).rounds + 1 } ∧
        (∀ q, q ≠ port.val → t.dev.txLink q = d.txLink q) ∧
        t.dev.rd F.LANE_RETRY_replays e i = Nat.min F.LANE_RETRY_replays.max (d.rd F.LANE_RETRY_replays e i + 1) ∧
        RegsKeptBut [.LANE_RETRY] s t ∧ KeepsBut [.regs, .ln, .quiesced] s t) ∧
    (∀ seq : BitVec 10, (d.txLink port.val).replay.findIdx? (fun b => b.seq == seq.toNat) = none →
      ∃ t, exec (.replayRequestReceive port seq) s = .next t ∧
        t.dev.rd F.LANE_EVT_CNT_events e 9 = Nat.min F.LANE_EVT_CNT_events.max (d.rd F.LANE_EVT_CNT_events e 9 + 1) ∧
        RegsKeptBut [.LANE_EVT_CNT, .CNT_VAL, .CNT_CTRL] s t ∧ KeepsBut [.regs, .quiesced] s t) ∧
    ((d.txLink port.val).replay ≠ [] → ∃ t, exec (.replayTimerExpiry port) s = .next t ∧
      t.dev.txLink port.val = { d.txLink port.val with cursor := some 0, rounds := (d.txLink port.val).rounds + 1 } ∧
      t.dev.rd F.LANE_RETRY_replays e i = Nat.min F.LANE_RETRY_replays.max (d.rd F.LANE_RETRY_replays e i + 1) ∧
      RegsKeptBut [.LANE_RETRY] s t ∧ KeepsBut [.regs, .ln, .quiesced] s t)) ∧
  (∀ (s : State) (port : LaneId), s.dev.isPort port.val = true → s.dev.linkUp port.val = true →
    exec (.replayLimit port true) s = .next (s.after fun d => (d.linkErr port.val 6).linkDown port.val true) ∧
    (8 ≤ (s.dev.txLink port.val).rounds →
      exec (.replayLimit port false) s = .next (s.after fun d => (d.linkErr port.val 2).linkDown port.val true)) ∧
    (16 ≤ (s.dev.rxLink port.val).bad →
      exec (.blockLockLost port) s = .next (s.after fun d => (d.linkErr port.val 4).linkDown port.val true)) ∧
    (s.dev.prd F.LANE_PORT_STAT_rx_idle port.val = 0 → exec (.lossOfSignal port) s = .next (s.after fun d =>
      ((d.each (d.lanesOf port.val) fun d n => (d.pwr F.LANE_STAT_signal n 0).pwr F.LANE_STAT_cdr n 0).linkErr port.val
        3).linkDown port.val true)) ∧
    (s.dev.prd F.LANE_PORT_STAT_rx_idle port.val = 1 → exec (.idleExitFail port) s = .next (s.after fun d =>
      ((d.linkErr port.val 5).evtCnt .LANE (laneDie port.val) 6).linkDown port.val true)))

/-- After a link-down of a port nothing waits for it or is in transmission at it, and its replay buffer, receive side, heartbeats and link-local frames are gone. With nothing queued, the port is down, or held where hold is set, its liveness clears and its credits are 0. PORT_LIVENESS_REMOVAL: on an up port with 8 or more misses, nothing is left queued toward the port; with nothing queued before, removed sets, the removals are counted, and the link stays up. It rests also on readings that are the model's own: log 64. Under hypotheses on the state and operands alone it concludes that exec answers a next state, and what that holds, for portLivenessRemoval. (11_lanes_and_links.md, 17_faults_and_errors.md, R74, R108, R284, R396, R94, R395) -/
def Obligations.LinksLeave : Prop :=
  (∀ (d : Dev) (port : LaneId) (raise : Bool), d.isPort port.val = true → d.linkUp port.val = true →
    let t := d.linkDown port.val raise; let e := laneDie port.val; let i := port.val % 512
    (∀ x ∈ t.sw.queue, x.dest ≠ .port port.val) ∧ smFind t.sw.tx port.val = none ∧ smFind t.ln.tx port.val = none ∧
    smFind t.ln.rx port.val = none ∧ smFind t.ln.hb port.val = none ∧ (∀ c ∈ t.ln.ctl, c.port ≠ port.val) ∧
    ((∀ x ∈ d.sw.queue, x.dest ≠ .port port.val) → smFind d.sw.tx port.val = none → d.portWidth port.val ≤ 8 →
      t.portState port.val = (if d.rd F.LANE_PORT_CTRL_hold e i = 1 then 4 else 0) ∧ t.linkUp port.val = false ∧
      t.rd F.LANE_LIVE_removed e i = 0 ∧ t.rd F.LANE_LIVE_misses e i = 0 ∧ t.rd F.LANE_LIVE_streak e i = 0 ∧
      (∀ c < 8, t.rdw .TM_CRD_STAT e (pcKey i c) = 0) ∧
      t.rd F.LANE_EVT_CNT_events e 1 = Nat.min F.LANE_EVT_CNT_events.max (d.rd F.LANE_EVT_CNT_events e 1 + 1))) ∧
  (∀ (s : State) (port : LaneId),
    let d := s.dev; let e := laneDie port.val; let i := port.val % 512
    d.isPort port.val = true → d.linkUp port.val = true → 8 ≤ d.rd F.LANE_LIVE_misses e i → d.rd F.LANE_LIVE_removed e i = 0 →
    ∃ t, exec (.portLivenessRemoval port) s = .next t ∧ (∀ x ∈ t.dev.sw.queue, x.dest ≠ .port port.val) ∧
      ((∀ x ∈ d.sw.queue, x.dest ≠ .port port.val) → t.dev.rd F.LANE_LIVE_removed e i = 1 ∧
        t.dev.rd F.LANE_LIVE_streak e i = 0 ∧ t.dev.linkUp port.val = true ∧
        t.dev.rd F.LANE_LIVE_removals e i = Nat.min 4294967295 (d.rd F.LANE_LIVE_removals e i + 1) ∧
        RegsKeptBut [.LANE_LIVE] s t) ∧
      KeepsBut [.regs, .sw, .tm, .sy, .ev, .quiesced] s t)

/-- When a credit return received on an up port would raise the credits held of a class above the count the partner advertised, the advertised count is held and TM error code 2 stands in the error registers, its error counted. Under hypotheses on the state and operands alone it concludes that exec answers a next state, and what that holds, for creditReturnReceive. (R109) -/
def Obligations.CreditExcess : Prop :=
  ∀ (s : State) (port : LaneId) (k1 k2 : Word) (c : Nat),
    let d := s.dev; let e := laneDie port.val; let k := pcKey (port.val % 512) c; let q := pcKey port.val c
    let n := (creditField k1 k2 c + 4096 - smGet d.ln.crBase q 0) % 4096
    d.linkUp port.val = true → c < 8 → n ≠ 0 → smGet d.ln.partnerAdv q 0 < 4096 →
    smGet d.ln.partnerAdv q 0 < d.rd F.TM_CRD_STAT_held e k + n →
    ∃ t, exec (.creditReturnReceive port k1 k2) s = .next t ∧
      t.dev.rd F.TM_CRD_STAT_held e k = smGet d.ln.partnerAdv q 0 ∧
      ((wbit (t.dev.rdw .TM_ERR_FIRST e 0) 63 = true ∧ t.dev.rd F.TM_ERR_FIRST_code e 0 = 2) ∨
        wbit (t.dev.rdw .TM_ERR_NEXT e 0) 2 = true) ∧
      Nat.min F.TM_ERR_COUNT_count.max (d.rd F.TM_ERR_COUNT_count e 0 + 1) ≤ t.dev.rd F.TM_ERR_COUNT_count e 0 ∧
      RegsKeptBut (.TM_CRD_STAT :: loggingRegs) s t ∧ KeepsBut [.regs, .ln, .ev, .quiesced] s t

/-- CREDIT_RETURN_RECEIVE adds the change of each total that fits under the advertised count. CREDIT_RETURN_PERIODIC puts one return in line, in place of any that waits, that carries every total with what was owed, which is then 0. CREDIT_ADVERT_RECEIVE: the first advertisement, with ack, in training gives the credits held and brings the link up. CREDIT_ADVERT_REPEAT, on an up port that has not sent one with ack or on one at training step 7, puts the own advertisement in line, with ack once the partner's has arrived; with the first one since the link went down the credits that arrived frames still hold are split cell by cell (R108), and the switch is not touched otherwise. LINK_CONTROL_UNKNOWN on a port that is up or trains counts event 8 and does nothing else. Under hypotheses on the state and operands alone it concludes that exec answers a next state, and what that holds, for creditReturnReceive, creditReturnPeriodic, creditAdvertReceive, creditAdvertRepeat, linkControlUnknown. (11_lanes_and_links.md, R276, R277, R278) -/
def Obligations.CreditsMove : Prop :=
  ∀ (s : State) (port : LaneId),
    let d := s.dev; let e := laneDie port.val; let k := fun c => pcKey (port.val % 512) c; let q := fun c => pcKey port.val c
    (d.linkUp port.val = true → ∀ k1 k2 : Word,
      (∀ c < 8, d.rd F.TM_CRD_STAT_held e (k c) + (creditField k1 k2 c + 4096 - smGet d.ln.crBase (q c) 0) % 4096 ≤
        smGet d.ln.partnerAdv (q c) 0 ∧ smGet d.ln.partnerAdv (q c) 0 < 4096) →
      ∃ t, exec (.creditReturnReceive port k1 k2) s = .next t ∧
        (∀ c < 8, t.dev.rd F.TM_CRD_STAT_held e (k c) =
            d.rd F.TM_CRD_STAT_held e (k c) + (creditField k1 k2 c + 4096 - smGet d.ln.crBase (q c) 0) % 4096 ∧
          smGet t.dev.ln.crBase (q c) 0 = creditField k1 k2 c) ∧
        RegsKeptBut [.TM_CRD_STAT] s t ∧ KeepsBut [.regs, .ln, .quiesced] s t) ∧
    (d.isPort port.val = true → d.portState port.val = 2 →
      let tot := fun c => (smGet d.ln.crTotal (q c) 0 + d.rd F.TM_CRD_STAT_owed e (k c)) % 4096
      ∃ t, exec (.creditReturnPeriodic port) s = .next t ∧
        (∀ c < 8, t.dev.rd F.TM_CRD_STAT_owed e (k c) = 0 ∧ smGet t.dev.ln.crTotal (q c) 0 = tot c) ∧
        t.dev.ln.ctl = (d.ln.ctl.filter fun c => !(c.port == port.val && isReturn c.f)) ++
          [⟨port.val, d.linkCtl port.val (wmk [(63, 56, 1)] :: creditWords tot), d.tick⟩] ∧
        RegsKeptBut [.TM_CRD_STAT] s t ∧ KeepsBut [.regs, .ln, .freeCtr, .quiesced] s t) ∧
    (d.isPort port.val = true → d.portState port.val = 1 → (d.train port.val).gotAdv = false → d.portWidth port.val ≤ 8 →
      ∀ k1 k2 : Word, ∃ t, exec (.creditAdvertReceive port true k1 k2) s = .next t ∧
        t.dev.portState port.val = 2 ∧ t.dev.linkUp port.val = true ∧ t.dev.reserveOf port.val = 4132 ∧
        (t.dev.train port.val).gotAdv = true ∧ (t.dev.train port.val).fails = 0 ∧
        (∀ c < 8, t.dev.rd F.TM_CRD_STAT_held e (k c) = creditField k1 k2 c ∧
          smGet t.dev.ln.partnerAdv (q c) 0 = creditField k1 k2 c ∧ smGet t.dev.ln.crBase (q c) 0 = 0) ∧
        KeepsBut [.regs, .ln, .sw, .tm, .ev, .quiesced] s t) ∧
    (d.isPort port.val = true → (d.linkUp port.val = true ∧ (d.train port.val).sentAck = false) ∨
        (d.linkUp port.val = false ∧ d.portState port.val = 1 ∧ d.trainStep port.val = 7) →
      ∃ t, exec (.creditAdvertRepeat port) s = .next t ∧
        t.dev.ln.ctl = d.ln.ctl ++ [⟨port.val, d.linkCtl port.val
          (wmk [(63, 56, 2), (0, 0, b2n (d.train port.val).gotAdv)] :: creditWords fun c => (d.ownAdv port.val).getD c 0), d.tick⟩] ∧
        (t.dev.train port.val).sentAck = ((d.train port.val).sentAck || (d.train port.val).gotAdv) ∧
        { t.dev.sw with holds := d.sw.holds } = d.sw ∧ ((smFind d.ln.ownAdv port.val).isSome = true → t.dev.sw.holds = d.sw.holds) ∧
        (∀ x ∈ t.dev.sw.holds, x.port = port.val → smFind d.ln.ownAdv port.val = none → x.credits = 1 ∧ x.cells.length = 1) ∧
        KeepsBut [.ln, .sw, .freeCtr, .quiesced] s t) ∧
    (d.linkUp port.val = true ∨ d.portState port.val = 1 → ∃ t, exec (.linkControlUnknown port) s = .next t ∧
      t.dev.rd F.LANE_EVT_CNT_events e 8 = Nat.min F.LANE_EVT_CNT_events.max (d.rd F.LANE_EVT_CNT_events e 8 + 1) ∧
      RegsKeptBut [.LANE_EVT_CNT, .CNT_VAL, .CNT_CTRL] s t ∧ KeepsBut [.regs, .quiesced] s t)

/-- HEARTBEAT_REQUEST_SEND takes the next sequence, keeps the request and puts it in line. HEARTBEAT_REQUEST_RECEIVE puts the answer in line, with the sequence and stamp of the request, unless the port is muted. HEARTBEAT_ANSWER_RECEIVE of the one open request clears the misses and gives the round trip; on a removed port it counts in the streak, and the eighth restores the port. HEARTBEAT_MISS drops the oldest request, counts the miss and clears the streak. Under hypotheses on the state and operands alone it concludes that exec answers a next state, and what that holds, for heartbeatRequestSend, heartbeatRequestReceive, heartbeatAnswerReceive, heartbeatMiss. (11_lanes_and_links.md, 17_faults_and_errors.md, R31, R279, R393, R394, R396) -/
def Obligations.Heartbeats : Prop :=
  ∀ (s : State) (port : LaneId), s.dev.linkUp port.val = true →
    let d := s.dev; let e := laneDie port.val; let i := port.val % 512; let hb := smGet d.ln.hb port.val []
    (d.isPort port.val = true → d.dieRuns e = true →
      let seq := (d.rd F.LANE_HB_STAT_sequence e i + 1) % 4294967296
      ∃ t, exec (.heartbeatRequestSend port) s = .next t ∧ t.dev.rd F.LANE_HB_STAT_sequence e i = seq ∧
        t.dev.ln = { d.ln with hb := smInsert d.ln.hb port.val (hb ++ [⟨seq, false⟩]),
                               ctl := d.ln.ctl ++ [⟨port.val, d.mkLinkFrame e 8
                                 (wordsPay [BitVec.ofNat 64 seq, wmk [(63, 32, d.ticksOf e)]]), d.tick⟩] } ∧
        RegsKeptBut [.LANE_HB_STAT] s t ∧ KeepsBut [.regs, .ln, .freeCtr, .quiesced] s t) ∧
    (∀ seq stamp : BitVec 32,
      (d.rd F.LANE_LIVE_mute e i = 0 → ∃ t, exec (.heartbeatRequestReceive port seq stamp) s = .next t ∧
        t.dev.ln = { d.ln with ctl := d.ln.ctl ++ [⟨port.val, d.mkLinkFrame e 8
          (wordsPay [wmk [(63, 63, 1), (31, 0, seq.toNat)], wmk [(63, 32, stamp.toNat)]]), d.tick⟩] } ∧
        KeepsBut [.ln, .freeCtr, .quiesced] s t) ∧
      (d.rd F.LANE_LIVE_mute e i = 1 → ∃ t, exec (.heartbeatRequestReceive port seq stamp) s = .next t ∧ KeepsBut [.quiesced] s t)) ∧
    (∀ (seq stamp hold : BitVec 32) (b : Bool), hb = [⟨seq.toNat, b⟩] →
      ∃ t, exec (.heartbeatAnswerReceive port seq stamp hold) s = .next t ∧ smGet t.dev.ln.hb port.val [] = [] ∧
        t.dev.rd F.LANE_LIVE_misses e i = 0 ∧
        t.dev.rd F.LANE_HB_STAT_rtt e i =
          Nat.min 65535 ((d.ticksOf e + 8589934592 - stamp.toNat - hold.toNat) % 4294967296) ∧
        (d.rd F.LANE_LIVE_removed e i = 0 → RegsKeptBut [.LANE_HB_STAT, .LANE_LIVE] s t ∧ KeepsBut [.regs, .ln, .quiesced] s t) ∧
        (d.rd F.LANE_LIVE_removed e i = 1 → d.rd F.LANE_LIVE_streak e i < 7 →
          t.dev.rd F.LANE_LIVE_removed e i = 1 ∧ t.dev.rd F.LANE_LIVE_streak e i = d.rd F.LANE_LIVE_streak e i + 1) ∧
        (d.rd F.LANE_LIVE_removed e i = 1 → 7 ≤ d.rd F.LANE_LIVE_streak e i →
          t.dev.rd F.LANE_LIVE_removed e i = 0 ∧ t.dev.rd F.LANE_LIVE_streak e i = 0) ∧
        KeepsBut [.regs, .ln, .sw, .ev, .quiesced] s t) ∧
    (∀ (seq : Nat) (rest : List HbReq), hb = ⟨seq, false⟩ :: rest → (∀ r, rest.head? = some r → r.answered = false) →
      ∃ t, exec (.heartbeatMiss port) s = .next t ∧ smGet t.dev.ln.hb port.val [] = rest ∧
        t.dev.rd F.LANE_LIVE_misses e i = Nat.min 255 (d.rd F.LANE_LIVE_misses e i + 1) ∧ t.dev.rd F.LANE_LIVE_streak e i = 0 ∧
        t.dev.rd F.LANE_LIVE_removed e i = d.rd F.LANE_LIVE_removed e i ∧
        RegsKeptBut [.LANE_LIVE, .CNT_VAL, .CNT_CTRL] s t ∧ KeepsBut [.regs, .ln, .quiesced] s t)

/-- TRAINING_START on a down port that may train puts it in training with no step done, the failures and each lane's choice of precoding kept, and each lane begins its stream of PRBS31Q at its first symbol, with no block announced; TRAINING_RETRY does the same after a failure and nothing otherwise (the model's guard, log 152). A training word begins at each 65,536th symbol of the stream: in the tick in which it begins it leaves on the lane with the marker, the step, the width and index of the lane, the wavelength, the precoding requested and in use, the receiver's request and the echo of the stamp last received, as they stand in that tick (log 171). TRAINING_WORD_RECEIVE on a lane of a training port: a word with another marker is ignored; one whose width or index differs from the image fails the training with cause 3; any other shows signal, clock recovery, the SNR and the partner's precoding, notes the word and the wavelength, and decides the own precoding request by LANE_CFG precode as of the start of this training; and keeps the time stamp received and what to ask of the partner, for the lane's next words. TRAINING_TIMEOUT fails the training with cause 1 without signal, else 2, 4 or 5 by the step. The third failure in a row since the link was last up logs LANE code 1, once. It rests also on readings that are the model's own: log 67, 69, 74, 152, 171, 202. Under hypotheses on the state and operands alone it concludes that exec answers a next state, and what that holds, for trainingStart, trainingWordReceive, trainingTimeout, trainingRetry. (11_lanes_and_links.md, R265, R280, R281, R282) -/
def Obligations.PortTraining : Prop :=
  ((∀ (s : State) (port : LaneId), s.dev.canTrain port.val = true → s.dev.portWidth port.val ≤ 8 →
    (∃ t, exec (.trainingStart port) s = .next t ∧ t.dev.portState port.val = 1 ∧
      t.dev.train port.val = { s.dev.train port.val with words := [], adapted := [], rtt := false, gotAdv := false,
                                                         sentAck := false, seenFail := [], starts := [], stamps := [], asks := [],
                                                         force := (t.dev.train port.val).force } ∧
      (∀ n ∈ s.dev.lanesOf port.val, smGet (t.dev.train port.val).force n 0 = s.dev.prd F.LANE_CFG_precode n) ∧
      (∀ n ∈ s.dev.lanesOf port.val, ∃ p, smFind t.dev.ln.wave n = some ⟨false, 0, p, [], none⟩) ∧
      (∀ n ∈ s.dev.lanesOf port.val, t.dev.prd F.LANE_STAT_pre_tx n = 0 ∧ t.dev.prd F.LANE_STAT_block n = 0) ∧
      RegsKeptBut [.LANE_STAT, .LANE_PORT_STAT] s t ∧ KeepsBut [.regs, .ln, .freeCtr, .quiesced] s t) ∧
    ((s.dev.train port.val).fails ≠ 0 → exec (.trainingRetry port) s = exec (.trainingStart port) s) ∧
    ((s.dev.train port.val).fails = 0 → ∃ t, exec (.trainingRetry port) s = .next t ∧ KeepsBut [.quiesced] s t)) ∧
  (∀ (d : Dev) (lane port k : Nat) (w : Wave),
    smFind d.ln.wave lane = some w → d.portOf lane = some port → w.wordAt 726 = some k → d.selfLoop lane = false →
    ∃ t0 t1 t2 rest more, (d.waveTick lane).out = d.out ++ .trainWord lane (t0 :: t1 :: t2 :: rest) :: more ∧
      fget t0 63 48 = 0x7E5A ∧ fget t0 47 45 = d.trainStep port ∧ fget t0 44 43 = widthCode (d.portWidth port) ∧
      fget t0 42 41 = (lane - port) % 4 ∧ fget t0 40 37 = d.carryOf lane % 16 ∧ fget t0 36 36 = smGet d.ln.preReq lane 0 % 2 ∧
      fget t0 35 35 = d.prd F.LANE_STAT_pre_tx lane ∧ fget t0 34 31 = (smGet (d.train port).asks lane (0, false)).1 % 16 ∧
      fget t0 28 28 = b2n (smGet (d.train port).asks lane (0, false)).2 ∧
      fget t1 63 32 = d.ticksOf (laneDie port) % 4294967296 ∧
      fget t1 31 0 = (smGet (d.train port).stamps lane (0, d.tick)).1 % 4294967296 ∧
      (d.trainStep port < 6 → w.stop = none → fget t2 31 0 = 0))) ∧
  ((∀ (s : State) (lane : LaneId) (port : Nat) (t0 t1 t2 : Word) (tap adapted : Bool) (snr : BitVec 16) (ask : Fin 6) (fail : Bool),
    let d := s.dev; let e := laneDie lane.val; let i := lane.val % 512
    d.portOf lane.val = some port → d.portState port = 1 →
    (fget t0 63 48 ≠ 0x7E5A → ∃ t, exec (.trainingWordReceive lane t0 t1 t2 ⟨tap, ask⟩ ⟨adapted, fail⟩ snr) s = .next t ∧ KeepsBut [.quiesced] s t) ∧
    (fget t0 63 48 = 0x7E5A → fget t0 44 43 ≠ widthCode (d.portWidth port) ∨ fget t0 42 41 ≠ lane.val - port →
      exec (.trainingWordReceive lane t0 t1 t2 ⟨tap, ask⟩ ⟨adapted, fail⟩ snr) s = .next (s.after fun d => d.trainFail port 3)) ∧
    (fget t0 63 48 = 0x7E5A → fget t0 44 43 = widthCode (d.portWidth port) → fget t0 42 41 = lane.val - port →
      ∃ t, exec (.trainingWordReceive lane t0 t1 t2 ⟨tap, ask⟩ ⟨adapted, fail⟩ snr) s = .next t ∧
        t.dev.rd F.LANE_STAT_signal e i = 1 ∧ t.dev.rd F.LANE_STAT_cdr e i = 1 ∧ t.dev.rd F.LANE_STAT_snr e i = snr.toNat ∧
        t.dev.rd F.LANE_STAT_pre_tx e i = fget t0 36 36 ∧ lane.val ∈ (t.dev.train port).words ∧
        (adapted = true → lane.val ∈ (t.dev.train port).adapted) ∧ smGet t.dev.ln.rxWl lane.val (lane.val % 8) = fget t0 40 37 ∧
        smGet t.dev.ln.preReq lane.val 0 = (if smGet (d.train port).force lane.val 0 = 1 then 1
          else if smGet (d.train port).force lane.val 0 = 2 then 0 else if tap then 1 else 0) ∧
        smFind (t.dev.train port).stamps lane.val = some (fget t1 63 32, d.tick) ∧
        smFind (t.dev.train port).asks lane.val =
          some (if lane.val ∈ (t.dev.train port).adapted then 0 else ask.val, fail) ∧
        RegsKeptBut [.LANE_STAT, .LANE_PORT_STAT] s t ∧ KeepsBut [.regs, .ln, .freeCtr, .quiesced] s t)) ∧
  (∀ (s : State) (port : LaneId) (noSignal : Bool), s.dev.isPort port.val = true → s.dev.portState port.val = 1 →
    let n := s.dev.trainStep port.val
    exec (.trainingTimeout port noSignal) s = .next (s.after fun d => d.trainFail port.val
      (if noSignal then 1 else if n ≤ 5 then 2 else if n = 6 then 4 else 5))) ∧
  (∀ (s : State) (port : LaneId) (cause : Nat), s.dev.electrical port.val = true → s.dev.portWidth port.val ≤ 8 → cause < 8 →
    let d := s.dev; let u := s.after fun d => d.trainFail port.val cause; let t := u.dev; let e := laneDie port.val; let i := port.val % 512
    (t.train port.val).fails = (d.train port.val).fails + 1 ∧ t.rd F.LANE_PORT_STAT_cause e i = cause ∧
    t.portState port.val = (if d.rd F.LANE_PORT_CTRL_hold e i = 1 then 4 else 0) ∧
    t.rd F.LANE_EVT_CNT_events e 2 = Nat.min F.LANE_EVT_CNT_events.max (d.rd F.LANE_EVT_CNT_events e 2 + 1) ∧
    t.rd F.LANE_ERR_COUNT_count e 0 = (if 3 ≤ (d.train port.val).fails + 1 ∧ (d.train port.val).logged = false
      then Nat.min F.LANE_ERR_COUNT_count.max (d.rd F.LANE_ERR_COUNT_count e 0 + 1) else d.rd F.LANE_ERR_COUNT_count e 0) ∧
    (3 ≤ (d.train port.val).fails + 1 → (d.train port.val).logged = false → Latched .LANE e 1 u)))

/-- IDLE_TIMER_EXPIRY: a direction under an idle timer in which nothing waits sends a last block and goes idle, counted under event 4. IDLE_ENTRY_RECEIVE: the receive direction shows rx_idle. IDLE_EXIT: an idle direction for which a frame, a credit or a link-local frame waits begins the exit, counted under event 5: each lane begins the waveform of the exit, at its first symbol, and six null blocks come before the first sequenced block. How the waveform's times round to symbols is log 65. It rests also on readings that are the model's own: log 65, 66, 69, 202. Under hypotheses on the state and operands alone it concludes that exec answers a next state, and what that holds, for idleTimerExpiry, idleEntryReceive, idleExit. (11_lanes_and_links.md, R285, R286) -/
def Obligations.ElectricalIdle : Prop :=
  ∀ (s : State) (port : LaneId),
    let d := s.dev; let e := laneDie port.val; let i := port.val % 512
    (d.rd F.LANE_PORT_CTRL_idle_timer e i ≠ 0 → d.idleReady port.val = true → (∀ c ∈ d.ln.ctl, c.port ≠ port.val) →
      6 ≤ (d.txLink port.val).since → d.portWidth port.val ≤ 8 →
      ∃ t b cs, exec (.idleTimerExpiry port) s = .next t ∧ t.dev.portState port.val = 3 ∧
        t.dev.out = d.out ++ [.block port.val b cs] ∧
        t.dev.rd F.LANE_EVT_CNT_events e 4 = Nat.min F.LANE_EVT_CNT_events.max (d.rd F.LANE_EVT_CNT_events e 4 + 1) ∧
        RegsKeptBut [.LANE_PORT_STAT, .LANE_INJ, .LANE_EVT_CNT, .CNT_VAL, .CNT_CTRL] s t ∧
        KeepsBut [.regs, .ln, .sy, .time, .out, .freeCtr, .quiesced] s t) ∧
    (d.linkUp port.val = true → ∃ t, exec (.idleEntryReceive port) s = .next t ∧ t.dev.rd F.LANE_PORT_STAT_rx_idle e i = 1 ∧
      t.dev.rxLink port.val = { d.rxLink port.val with good := 0, bad := 0 } ∧ t.dev.portState port.val = d.portState port.val ∧
      RegsKeptBut [.LANE_PORT_STAT] s t ∧ KeepsBut [.regs, .ln, .quiesced] s t) ∧
    (d.isPort port.val = true → d.portState port.val = 3 →
      d.frameWaits port.val = true ∨ d.owes port.val = true ∨ (∃ c ∈ d.ln.ctl, c.port = port.val) →
      ∃ t, exec (.idleExit port) s = .next t ∧ t.dev.portState port.val = 5 ∧ (t.dev.txLink port.val).exit = 6 ∧
        (∀ n ∈ d.lanesOf port.val, ∃ p, smFind t.dev.ln.wave n = some ⟨true, 0, p, [], some exitWave⟩) ∧
        t.dev.rd F.LANE_EVT_CNT_events e 5 = Nat.min F.LANE_EVT_CNT_events.max (d.rd F.LANE_EVT_CNT_events e 5 + 1) ∧
        RegsKeptBut [.LANE_PORT_STAT, .LANE_EVT_CNT, .CNT_VAL, .CNT_CTRL] s t ∧ KeepsBut [.regs, .ln, .freeCtr, .quiesced] s t)

/-- LINK_BLOCK_TRANSMIT on an up port outside hold with no replay, no link-local frame and nothing owed: with frame bytes waiting and the replay buffer not full, the block holds data, takes the next sequence and enters the replay buffer; with none it is a null block and takes no sequence. Without precoding or injection each lane sends the Gray symbols of the FEC block of its message. On a port that leaves idle each of the null blocks still to send leaves first. LINK_BLOCK_RECEIVE: the symbols are read lane by lane and taken as a link block. On a port with block lock, and without link-local segments, a decoded block of the expected sequence advances it; a decoded block of another changes neither the sequence nor what is delivered; an undecodable one is answered by one replay request that names the expected sequence. It rests also on readings that are the model's own: log 60, 61, 62, 68, 168, 169, 178. Under hypotheses on the state and operands alone it concludes that exec answers a next state, and what that holds, for linkBlockTransmit, linkBlockReceive. (11_lanes_and_links.md, R264, R266, R267, R269, R271, R272, R286, R327) -/
def Obligations.LinkBlocks : Prop :=
  (∀ (s : State) (port : LaneId),
    let d := s.dev; let x := d.txLink port.val; let e := laneDie port.val; let i := port.val % 512
    d.isPort port.val = true → d.dieRuns e = true → d.portState port.val = 2 → d.shed < 5 → x.cursor = none → x.idleCmd = false →
    d.owes port.val = false → (∀ c ∈ d.ln.ctl, c.port ≠ port.val) → x.replay.length < 64 →
    1 ≤ d.portWidth port.val → d.portWidth port.val ≤ 8 →
    ∃ t b cs, exec (.linkBlockTransmit port) s = .next t ∧ t.dev.out = d.out ++ [.block port.val b cs] ∧
      b.ack = d.ackNow port.val ∧ b.lanes.length = d.portWidth port.val ∧ (t.dev.txLink port.val).blocks = x.blocks + 1 ∧
      (x.stream ≠ [] → b.hasData = true ∧ b.seq = d.rd F.LANE_PORT_STAT_next_seq e i ∧
        (t.dev.txLink port.val).replay = x.replay ++ [b] ∧
        t.dev.rd F.LANE_PORT_STAT_next_seq e i = (d.rd F.LANE_PORT_STAT_next_seq e i + 1) % 1024) ∧
      (x.stream = [] → b.hasData = false ∧ (t.dev.txLink port.val).replay = x.replay ∧
        t.dev.rd F.LANE_PORT_STAT_next_seq e i = d.rd F.LANE_PORT_STAT_next_seq e i) ∧
      ((∀ n ∈ d.lanesOf port.val, d.prd F.LANE_STAT_pre_tx n ≠ 1 ∧ d.prd F.LANE_INJ_mode n ≠ 2) →
        cs = (d.lanesOf port.val).map fun n =>
          (fecEncode (blockMessage (Config.idleFill d.freeCtr) b.seq b.ack (b.lanes.getD (n - port.val) []))).map graySymbol) ∧
      RegsKeptBut [.LANE_PORT_STAT, .LANE_INJ, .CNT_VAL, .CNT_CTRL] s t ∧ KeepsBut [.regs, .ln, .out, .freeCtr, .quiesced] s t) ∧
  (∀ (s : State) (port : LaneId) (n : Nat),
    let d := s.dev
    d.isPort port.val = true → d.dieRuns (laneDie port.val) = true → d.portState port.val = 5 →
    (d.txLink port.val).exit = n + 1 →
    ∃ t b cs, exec (.linkBlockTransmit port) s = .next t ∧ t.dev.out = d.out ++ [.block port.val b cs] ∧ b.hasData = false ∧
      (t.dev.txLink port.val).exit = n ∧ t.dev.portState port.val = 5 ∧
      RegsKeptBut [.LANE_INJ, .CNT_VAL, .CNT_CTRL] s t ∧ KeepsBut [.regs, .ln, .out, .freeCtr, .quiesced] s t) ∧
  (∀ (s : State) (port : LaneId) (low : List (BitVec 2)) (others : List (List (BitVec 2))),
    let d := s.dev
    d.isPort port.val = true → d.dieRuns (laneDie port.val) = true → d.streams port.val = true →
    (∀ n ∈ d.lanesOf port.val, d.laneTest n = false) →
    exec (.linkBlockReceive port low others) s = .next (s.after fun d =>
      let r := d.readLanes port.val ((low :: others).map fun l => l.map BitVec.toNat)
      r.1.takeBlock port.val r.2)) ∧
  (∀ (s : State) (port : LaneId) (rs : List (Option (List Byte) × Nat × Nat)),
    let d := s.dev; let x := d.rxLink port.val; let e := laneDie port.val; let i := port.val % 512
    let t := s.after fun d => d.takeBlock port.val rs
    d.linkUp port.val = true → d.locked port.val = true → 1 ≤ d.portWidth port.val → d.portWidth port.val ≤ 8 →
    (∀ ms, rs.mapM Prod.fst = some ms → (blockOf ms).hasData = true →
      (∀ l ∈ (blockOf ms).lanes, ∀ g ∈ l, g = .idle ∨ g.isData = true) →
      ((blockOf ms).seq = x.expected → (t.dev.rxLink port.val).expected = (x.expected + 1) % 1024 ∧
        (t.dev.rxLink port.val).waiting = false ∧ (t.dev.rxLink port.val).bad = 0 ∧
        (t.dev.rxLink port.val).blocks = x.blocks + 1 ∧
        (∃ new, t.dev.ln.delivered = d.ln.delivered ++ new ∧ ∀ f ∈ new, f.1 = port.val) ∧ KeepsBut [.regs, .ln, .quiesced] s t) ∧
      ((blockOf ms).seq ≠ x.expected → (t.dev.rxLink port.val).expected = x.expected ∧
        (t.dev.rxLink port.val).waiting = x.waiting ∧ (t.dev.rxLink port.val).stream = x.stream ∧
        t.dev.ln.delivered = d.ln.delivered ∧ t.dev.ln.ctl = d.ln.ctl ∧ KeepsBut [.regs, .ln, .quiesced] s t)) ∧
    (rs.mapM Prod.fst = none → x.waiting = false →
      (t.dev.rxLink port.val).expected = x.expected ∧ (t.dev.rxLink port.val).waiting = true ∧
      (t.dev.rxLink port.val).bad = x.bad + 1 ∧ t.dev.ln.delivered = d.ln.delivered ∧
      t.dev.ln.ctl = d.ln.ctl ++ [⟨port.val, d.linkCtl port.val [wmk [(63, 56, 3), (9, 0, x.expected)]], d.tick⟩] ∧
      t.dev.rd F.LANE_RETRY_requests e i = Nat.min F.LANE_RETRY_requests.max (d.rd F.LANE_RETRY_requests e i + 1) ∧
      KeepsBut [.regs, .ln, .freeCtr, .quiesced] s t))

/-- TIME_FRAME_SEND on an up port under TIME_CTRL tx with the hub attached: one type 9 frame with the next time sequence is put in line and event 0 counted; while the core dies run by themselves the frame goes out with holdover set and nothing is counted. TIME_FRAME_RECEIVE: dropped and counted while the core dies run by themselves; counted under event 2 if a reserved bit is set; from a port that is no source, kept for the next echo and counted under event 1; from the primary source in use without an echo, it also gives the steps and enters the capture ring. It rests also on readings that are the model's own: log 12, 75, 77. Under hypotheses on the state and operands alone it concludes that exec answers a next state, and what that holds, for timeFrameSend, timeFrameReceive. (16_fabric_time.md, R383, R384, R385) -/
def Obligations.TimeFrames : Prop :=
  (∀ (s : State) (port : LaneId), let d := s.dev; let e := laneDie port.val
    d.isPort port.val = true → d.portState port.val = 2 → d.dieRuns e = true → d.attached = true → d.on F.TIME_CTRL_tx 0 0 = true →
    ∃ t pay, exec (.timeFrameSend port) s = .next t ∧
      t.dev.ln = { d.ln with ctl := d.ln.ctl ++ [⟨port.val, d.mkLinkFrame e 9 pay, d.tick⟩] } ∧
      fget (payWord pay 2) 63 48 = smGet d.time.txSeq port.val 0 % 65536 ∧
      smGet t.dev.time.txSeq port.val 0 = (smGet d.time.txSeq port.val 0 + 1) % 65536 ∧ Counted F.TIME_EVT_CNT_events 0 0 s t ∧
      RegsKeptBut [.TIME_EVT_CNT, .CNT_VAL, .CNT_CTRL] s t ∧ KeepsBut [.regs, .ln, .time, .freeCtr, .quiesced] s t) ∧
  (∀ (s : State) (port : LaneId), let d := s.dev; let e := laneDie port.val
    d.isPort port.val = true → d.portState port.val = 2 → d.dieRuns e = true → d.attached = false → d.on F.TIME_CTRL_tx 0 0 = true →
    ∃ t pay, exec (.timeFrameSend port) s = .next t ∧
      t.dev.ln = { d.ln with ctl := d.ln.ctl ++ [⟨port.val, d.mkLinkFrame e 9 pay, d.tick⟩] } ∧
      wbit (payWord pay 2) 17 = true ∧ wbit (payWord pay 2) 16 = false ∧ KeepsBut [.ln, .time, .freeCtr, .quiesced] s t) ∧
  (∀ (s : State) (port : LaneId) (t0 t1 t2 t3 : Word), let d := s.dev; let e := laneDie port.val
    let arrival := hallAdd (d.copyOf e) (-(d.tsCorr port.val false))
    d.linkUp port.val = true → d.dieRuns e = true →
    (d.attached = false → ∃ t, exec (.timeFrameReceive port t0 t1 t2 t3) s = .next t ∧
      smGet t.dev.time.dropped e 0 = smGet d.time.dropped e 0 + 1 ∧ KeepsBut [.time, .quiesced] s t) ∧
    (d.attached = true → fget t2 23 19 ≠ 0 ∨ fget t2 15 0 ≠ 0 ∨ t3 ≠ 0 →
      ∃ t, exec (.timeFrameReceive port t0 t1 t2 t3) s = .next t ∧ Counted F.TIME_EVT_CNT_events 0 2 s t ∧
        RegsKeptBut [.TIME_EVT_CNT, .CNT_VAL, .CNT_CTRL] s t ∧ KeepsBut [.regs, .quiesced] s t) ∧
    (d.attached = true → fget t2 23 19 = 0 → fget t2 15 0 = 0 → t3 = 0 → fget t2 31 24 ≠ 255 → wbit t2 17 = false →
      (d.sourceOf port.val = 0 → ∃ t, exec (.timeFrameReceive port t0 t1 t2 t3) s = .next t ∧
        t.dev.time = { d.time with rx := smInsert d.time.rx port.val ⟨t0, fget t2 63 48, arrival⟩ } ∧
        Counted F.TIME_EVT_CNT_events 0 1 s t ∧
        RegsKeptBut [.TIME_EVT_CNT, .CNT_VAL, .CNT_CTRL] s t ∧ KeepsBut [.regs, .time, .quiesced] s t) ∧
      (d.sourceOf port.val = 1 → d.rd F.TIME_STAT_source 0 0 = 1 → d.on F.TIME_CTRL_root 0 0 = false → wbit t2 18 = false →
        ∃ t, exec (.timeFrameReceive port t0 t1 t2 t3) s = .next t ∧
          t.dev.rd F.TIME_STAT_steps 0 0 = fget t2 31 24 + 1 ∧ t.dev.rd F.TIME_STAT_source 0 0 = 1 ∧
          t.dev.time.good = d.time.good + 1 ∧ 1 ∈ t.dev.time.valid ∧
          smGet t.dev.time.caps (smGet d.time.capNext 1 0 * 4) 0 = t0 ∧
          smGet t.dev.time.caps (smGet d.time.capNext 1 0 * 4 + 3) 0 = BitVec.ofNat 64 arrival ∧
          smGet t.dev.time.capNext 1 0 = (smGet d.time.capNext 1 0 + 1) % 16 ∧ t.dev.time.hall = d.time.hall ∧
          RegsKeptBut [.TIME_STAT, .TIME_EVT_CNT, .CNT_VAL, .CNT_CTRL] s t ∧ KeepsBut [.regs, .time, .quiesced] s t)))

/-- A captured offset of n units of 2^-33 ns: a free-running counter, or one more than 1,000 ns away, is stepped at the next tick and shows acquiring; any other gets an increment within 100 ppm of 6.4 ns, its last bit rounded either way (log 12), shown in TIME_INC, and shows locked exactly after 16 offsets in a row within 20 ns. TIME_FRAME_RECEIVE from the primary source in use, with an echo of a frame whose departure time is still held: the offset shown is (t4 - t3) - (t2 - t1) halved, in 2^-8 ns, rounded either way (log 12; which parts of the four times enter is log 75). With TIME_CTRL mode 0 the servo acts on it: a free-running counter, or one more than 1,000 ns away, takes a step at the next tick that halves the difference of the two delays away and shows acquiring; any other gets an increment within 100 ppm of 6.4 ns, and the state shows locked exactly after 16 offsets in a row within 20 ns. In mode 1 the offset is shown and neither the counter nor its increment nor the state changes. TIME_SOURCE_TIMEOUT of the one valid source, in use: no source is left, steps show 255, event 4 is counted and TIME code 1 logged; a disciplined counter goes into holdover under code 3. TIME_COPY_RELOAD: a running die's copy more than 8 ns from the hub's counter takes its value and TIME code 2 is logged; a nearer one is left alone. It rests also on readings that are the model's own: log 12, 75, 76. Under hypotheses on the state and operands alone it concludes that exec answers a next state, and what that holds, for timeFrameReceive, timeSourceTimeout, timeCopyReload. (16_fabric_time.md, R384, R386, R381, R385) -/
def Obligations.FabricClock : Prop :=
  (∀ (d : Dev) (n : Int),
    (d.rd F.TIME_STAT_state 0 0 = 0 ∨ 1000 * 2 ^ 33 < n.natAbs →
      (d.servo n).rd F.TIME_STAT_state 0 0 = 1 ∧ (d.servo n).time.streak = 0 ∧ (d.servo n).time.pendInc = d.time.pendInc ∧
      (2 * ((d.servo n).time.pendAdj - d.time.pendAdj) + n).natAbs ≤ 1) ∧
    (d.rd F.TIME_STAT_state 0 0 ≠ 0 → n.natAbs ≤ 1000 * 2 ^ 33 → d.rd F.TIME_CTRL_interval 0 0 ≠ 0 →
      ∃ inc : Nat, (d.servo n).time.pendInc = some inc ∧ (d.servo n).rdw .TIME_INC 0 0 = BitVec.ofNat 64 inc ∧
        (32 * 2 ^ 32 * 9999 - 50000 : Int) ≤ inc * 50000 ∧ (inc * 50000 : Int) ≤ 32 * 2 ^ 32 * 10001 + 50000 ∧
        (d.servo n).time.pendAdj = d.time.pendAdj ∧ (d.servo n).time.freq = d.time.freq + n ∧
        (d.servo n).time.streak = (if n.natAbs ≤ 20 * 2 ^ 33 then d.time.streak + 1 else 0) ∧
        (d.servo n).rd F.TIME_STAT_state 0 0 = (if 16 ≤ (d.servo n).time.streak then 2 else 1))) ∧
  (∀ (s : State) (port : LaneId) (t0 t1 t2 : Word) (x : Nat × Nat × Nat), let d := s.dev; let e := laneDie port.val
    let arrival := hallAdd (d.copyOf e) (-(d.tsCorr port.val false))
    let n := hallDiff arrival (fget t0 63 32 * 2 ^ 32) - hallDiff (fget t1 31 0 * 2 ^ 32) x.2.2
    let st := d.rd F.TIME_STAT_state 0 0
    d.linkUp port.val = true → d.dieRuns e = true → d.attached = true → fget t2 23 19 = 0 → fget t2 15 0 = 0 →
    fget t2 31 24 ≠ 255 → wbit t2 17 = false → wbit t2 18 = true →
    d.sourceOf port.val = 1 → d.rd F.TIME_STAT_source 0 0 = 1 → d.on F.TIME_CTRL_root 0 0 = false →
    d.time.txTimes.find? (fun y => y.1 == port.val && y.2.1 == fget t2 47 32) = some x →
    ∃ t, exec (.timeFrameReceive port t0 t1 t2 0) s = .next t ∧ t.dev.time.hall = d.time.hall ∧
      (n.natAbs ≤ 2 ^ 55 → ((BitVec.ofNat 32 (t.dev.rd F.TIME_STAT_offset 0 0)).toInt * 2 ^ 25 - n).natAbs < 2 ^ 25) ∧
      (d.on F.TIME_CTRL_mode 0 0 = false → st = 0 ∨ 1000 * 2 ^ 33 < n.natAbs →
        t.dev.rd F.TIME_STAT_state 0 0 = 1 ∧ t.dev.time.streak = 0 ∧ t.dev.time.pendInc = d.time.pendInc ∧
        (2 * (t.dev.time.pendAdj - d.time.pendAdj) + n).natAbs ≤ 1) ∧
      (d.on F.TIME_CTRL_mode 0 0 = false → st ≠ 0 → n.natAbs ≤ 1000 * 2 ^ 33 → d.rd F.TIME_CTRL_interval 0 0 ≠ 0 →
        t.dev.time.pendAdj = d.time.pendAdj ∧
        (∃ inc : Nat, t.dev.time.pendInc = some inc ∧ t.dev.rdw .TIME_INC 0 0 = BitVec.ofNat 64 inc ∧
          (32 * 2 ^ 32 * 9999 - 50000 : Int) ≤ inc * 50000 ∧ (inc * 50000 : Int) ≤ 32 * 2 ^ 32 * 10001 + 50000) ∧
        t.dev.time.streak = (if n.natAbs ≤ 20 * 2 ^ 33 then d.time.streak + 1 else 0) ∧
        t.dev.rd F.TIME_STAT_state 0 0 = (if 16 ≤ t.dev.time.streak then 2 else 1)) ∧
      (d.on F.TIME_CTRL_mode 0 0 = true → t.dev.rd F.TIME_STAT_state 0 0 = st ∧ t.dev.time.pendInc = d.time.pendInc ∧
        t.dev.time.pendAdj = d.time.pendAdj) ∧
      RegsKeptBut [.TIME_STAT, .TIME_INC, .TIME_EVT_CNT, .CNT_VAL, .CNT_CTRL] s t ∧ KeepsBut [.regs, .time, .freeCtr, .quiesced] s t) ∧
  ((∀ (s : State) (sec : Bool), let d := s.dev; let n := if sec then 2 else 1
    let port := d.rd (if sec then F.TIME_SRC_CFG_secondary else F.TIME_SRC_CFG_primary) 0 0
    d.attached = true → d.prd F.LANE_PORT_STAT_rx_idle port = 0 → d.time.valid = [n] → d.rd F.TIME_STAT_source 0 0 = n →
    d.on F.TIME_CTRL_root 0 0 = false →
    ∃ t, exec (.timeSourceTimeout sec) s = .next t ∧ t.dev.time.valid = [] ∧ t.dev.rd F.TIME_STAT_source 0 0 = 0 ∧
      t.dev.rd F.TIME_STAT_steps 0 0 = 255 ∧ Counted F.TIME_EVT_CNT_events 0 4 s t ∧
      (let st := d.rd F.TIME_STAT_state 0 0; t.dev.rd F.TIME_STAT_state 0 0 = (if st = 1 ∨ st = 2 then 3 else st) ∧ (st = 1 ∨ st = 2 → Latched .TIME 0 3 t)) ∧ Latched .TIME 0 1 t ∧
      Nat.min F.TIME_ERR_COUNT_count.max (d.rd F.TIME_ERR_COUNT_count 0 0 + 1) ≤ t.dev.rd F.TIME_ERR_COUNT_count 0 0 ∧ t.dev.time.hall = d.time.hall ∧
      RegsKeptBut (.TIME_STAT :: .TIME_EVT_CNT :: loggingRegs) s t ∧ KeepsBut [.regs, .time, .ev, .quiesced] s t) ∧
  (∀ (s : State) (die : DieId) (found : HallTime), s.dev.attached = true → s.dev.dieRuns die.val = true →
    (8 * 2 ^ 32 < (hallDiff found.toNat s.dev.time.hall).natAbs → ∃ t, exec (.timeCopyReload die found) s = .next t ∧
      smGet t.dev.time.copies die.val 0 = s.dev.time.hall ∧ t.dev.time.hall = s.dev.time.hall ∧
      Logged .TIME 0 2 s t ∧ RegsKeptBut loggingRegs s t ∧ KeepsBut [.regs, .time, .ev, .quiesced] s t) ∧
    ((hallDiff found.toNat s.dev.time.hall).natAbs ≤ 8 * 2 ^ 32 → ∃ t, exec (.timeCopyReload die found) s = .next t ∧
      KeepsBut [.quiesced] s t)))

/-- STATISTICS_EPOCH_BOUNDARY of a running unit whose boundary is due: in every counter set of the unit the epoch bank takes the counts of before and its sequence rises by one; a set with restart, or with a clear on this tick, then counts from 0, and any other keeps its counts. FLIGHT_RECORD_PERIODIC under a period: while the recorder runs, one record of 32 words is written at the head, which advances, with no stored error unless an injection is under way; while it is frozen nothing is. It rests also on readings that are the model's own: log 79, 150. Under hypotheses on the state and operands alone it concludes that exec answers a next state, and what that holds, for statisticsEpochBoundary, flightRecordPeriodic. (18_counters_and_telemetry.md, R423, R424, R426, R427) -/
def Obligations.EpochsAndRecords : Prop :=
  (∀ (s : State) (u : UnitId), let d := s.dev
    u.val ∈ d.time.due → d.unitRuns u.val = true →
    ∃ t, exec (.statisticsEpochBoundary u) s = .next t ∧ u.val ∉ t.dev.time.due ∧
      (∀ set ∈ setsOf u.val, ∀ i < 8,
        t.dev.rd F.CNT_EP_VAL_count u.val (32 * set + i) = d.rd F.CNT_VAL_count u.val (32 * set + i) ∧
        t.dev.rd F.CNT_EP_STAT_sequence u.val (32 * set) = (d.rd F.CNT_EP_STAT_sequence u.val (32 * set) + 1) % 4294967296 ∧
        t.dev.rd F.CNT_VAL_count u.val (32 * set + i) =
          (if d.on F.CNT_CTRL_restart u.val (32 * set) = true ∨ (u.val, set) ∈ d.time.cntClear then 0
           else d.rd F.CNT_VAL_count u.val (32 * set + i))) ∧
      RegsKeptBut [.CNT_EP_VAL, .CNT_EP_TICK, .CNT_EP_STAT, .CNT_VAL, .CNT_CTRL] s t ∧ KeepsBut [.regs, .time, .quiesced] s t) ∧
  (∀ s : State, s.dev.rd F.MEM_FR_CTRL_period 0 0 ≠ 0 →
    (s.dev.flightRuns = true → ∃ t w f, exec .flightRecordPeriodic s = .next t ∧ w.length = 32 ∧
      t.dev.ev = { s.dev.ev with flight := smInsert s.dev.ev.flight (s.dev.rd F.MEM_FR_STAT_head 0 0) w,
                                 flightSeq := (s.dev.ev.flightSeq + 1) % 4294967296, flightFlip := f } ∧
      (s.dev.rd F.HUB_INJ_CTRL_busy 0 0 = 0 → smFind f (s.dev.rd F.MEM_FR_STAT_head 0 0) = none) ∧
      t.dev.rd F.MEM_FR_STAT_head 0 0 = (s.dev.rd F.MEM_FR_STAT_head 0 0 + 1) % 1048576 ∧
      RegsKeptBut [.MEM_FR_STAT, .CNT_VAL, .CNT_CTRL, .HUB_INJ_CTRL, .HUB_INJ_STAT] s t ∧ KeepsBut [.regs, .ev, .quiesced] s t) ∧
    (s.dev.flightRuns = false → ∃ t, exec .flightRecordPeriodic s = .next t ∧ KeepsBut [.quiesced] s t))

/-- MONITOR_SAMPLE of a running engine: each of its 18 feed monitors keeps the latest eight samples in range, newest first, and forgets them at a sample out of range. A row of the ladder sets a wavelength at or below its threshold, clears it above its recovery level, and keeps it in between and without a level. FEED_RELEASE after the switch ends the changeover, lowers the old feed's enable, ends the command that began it, counts and raises the change and runs the ladder on the new feed. FEED_READY_TIMEOUT before the switch ends it on the feed in use: the other feed's enable falls, busy clears where a command began the change, and OE code 2 is logged. It rests also on readings that are the model's own: log 80, 83, 85. Under hypotheses on the state and operands alone it concludes that exec answers a next state, and what that holds, for monitorSample, feedRelease, feedReadyTimeout. (09_optical_engines.md, R223, R224, R226, Table 9.6, R235, R237) -/
def Obligations.EngineMonitors : Prop :=
  ((∀ (s : State) (e : EngineId) (feeds txf : List Int), s.dev.engineRuns e.val = true →
    ∃ t, exec (.monitorSample e feeds txf) s = .next t ∧
      (∀ i < 18, ∀ v, feeds[i]? = some v → smGet t.dev.oe.feed (e.val * 32 + i) [] =
        (if inRange v then (v :: smGet s.dev.oe.feed (e.val * 32 + i) []).take 8 else [])) ∧
      (∀ k, k / 32 ≠ e.val → smGet t.dev.oe.feed k [] = smGet s.dev.oe.feed k []) ∧
      KeepsBut [.regs, .oe, .ln, .sw, .tm, .sy, .ev, .freeCtr, .quiesced] s t) ∧
  (∀ (lev : Nat → Option Int) (old : Nat) (thr rec_ : Int) (w : Nat), w < 9 →
    bitOf (ladderMask lev old thr rec_) w = (match lev w with
      | none => bitOf old w
      | some v => if v ≤ 8 * thr then true else if 8 * rec_ < v then false else bitOf old w))) ∧
  ((∀ (s : State) (e : EngineId) (c : FeedChange), smFind s.dev.oe.change e.val = some c → c.switched = true →
    exec (.feedRelease e) s = .next (s.after fun d =>
      (((((({ d with oe := { d.oe with change := smErase d.oe.change e.val, deep := smErase d.oe.deep e.val } } : Dev).wr
        (if c.to_ = 1 then F.OE_STATE_a_en else F.OE_STATE_b_en) e.val 0 0).cmdEnd e.val [3, 4]).oeEvent e.val
          (if c.to_ = 1 then 3 else 4) (oeDetail 0 0 c.to_)).wr F.OE_STATE_warn e.val 0 0).wr F.OE_STATE_fade e.val 0 0).ladder
            e.val)) ∧
  (∀ (s : State) (e : EngineId) (c : FeedChange), smFind s.dev.oe.change e.val = some c → c.switched = false →
    ∃ t, exec (.feedReadyTimeout e) s = .next t ∧ smFind t.dev.oe.change e.val = none ∧
      ((∀ f ∈ fibresOf e.val, smFind s.dev.oe.req f = none) → t.dev.oe = { s.dev.oe with
        change := smErase s.dev.oe.change e.val,
        cmd := if [3, 4].contains (smGet s.dev.oe.cmd e.val 0) then smErase s.dev.oe.cmd e.val else s.dev.oe.cmd }) ∧
      t.dev.rd (if c.to_ = 1 then F.OE_STATE_b_en else F.OE_STATE_a_en) e.val 0 = 0 ∧
      t.dev.rd F.OE_CMD_busy e.val 0 =
        (if [3, 4].contains (smGet s.dev.oe.cmd e.val 0) then 0 else s.dev.rd F.OE_CMD_busy e.val 0) ∧
      t.dev.rd F.OE_STATE_feed e.val 0 = s.dev.rd F.OE_STATE_feed e.val 0 ∧ Logged .OE e.val 2 s t ∧
      RegsKeptBut (.OE_STATE :: .OE_CMD :: .OE_SUB_STAT :: loggingRegs) s t ∧ KeepsBut [.regs, .oe, .ev, .quiesced] s t))

/-- HEATER_LOOP_UPDATE shows the loop's lock and the engine's temperature and slew, and in_service exactly while every loop is locked. HEATER_UNLOCK shows the loop unlocked and the engine not in service, counts the unlock and event 6 and logs OE code 4. The lanes concerned are those that the modulator of the loop carries or that its filter serves: every port of the configuration with one of them is neither up nor in training after, and every other port's state stays. Where none of those ports was up or in training, nothing else changes. CALIBRATION_COMMIT_DONE of a settled engine or a quad: on success flash holds the section with the working values, marked user and one commit on, and the status shows it; on failure flash is unchanged, the status shows 3 and OE code 6 or BYP code 5 is logged. It rests also on readings that are the model's own: log 12, 86. Under hypotheses on the state and operands alone it concludes that exec answers a next state, and what that holds, for heaterLoopUpdate, heaterUnlock, calibrationCommitDone. (09_optical_engines.md, R239, R240, 10_optical_bypass.md, R243) -/
def Obligations.EngineCalibration : Prop :=
  ((∀ (s : State) (e : EngineId) (i : LoopId) (locked : Bool) (temp slew : BitVec 16), s.dev.engineRuns e.val = true →
    ∃ t, exec (.heaterLoopUpdate e i locked temp slew) s = .next t ∧
      t.dev.rd F.OE_TUNE_locked e.val i.val = (if locked then 1 else 0) ∧ t.dev.rd F.OE_THERM_die e.val 0 = temp.toNat ∧
      t.dev.rd F.OE_THERM_slew e.val 0 = slew.toNat ∧ t.dev.rd F.OE_THERM_case e.val 0 = s.dev.rd F.OE_THERM_case e.val 0 ∧
      t.dev.rd F.OE_STATE_in_service e.val 0 = b2n ((List.range 144).all fun j => t.dev.on F.OE_TUNE_locked e.val j) ∧
      RegsKeptBut [.OE_TUNE, .OE_THERM, .OE_STATE] s t ∧ KeepsBut [.regs, .quiesced] s t) ∧
  (∀ (s : State) (e : EngineId) (i : LoopId), s.dev.engineRuns e.val = true →
    let fib := 8 * e.val + i.val % 72 / 9
    let concerned := fun (n : Nat) => n / 8 = fib ∧
      (if i.val < 72 then s.dev.carryOf n = i.val % 9 else smGet s.dev.ln.rxWl n (n % 8) = i.val % 9)
    ∃ t, exec (.heaterUnlock e i) s = .next t ∧ t.dev.rd F.OE_TUNE_locked e.val i.val = 0 ∧ t.dev.rd F.OE_STATE_in_service e.val 0 = 0 ∧
      Counted F.OE_THERM_unlocks e.val 0 s t ∧ Logged .OE e.val 4 s t ∧ Counted F.OE_EVT_CNT_events e.val 6 s t ∧
      (∀ n p, concerned n → s.dev.portOf n = some p → s.dev.isPort p = true → t.dev.linkUp p = false ∧ t.dev.portState p ≠ 1) ∧
      ((∀ n p, s.dev.portOf n = some p → p < 1024) → ∀ p < 1024, (∀ n, concerned n → s.dev.portOf n ≠ some p) →
        t.dev.portState p = s.dev.portState p) ∧
      ((∀ n p, concerned n → s.dev.portOf n = some p → s.dev.linkUp p = false ∧ s.dev.portState p ≠ 1) →
        RegsKeptBut (.OE_TUNE :: .OE_THERM :: .OE_STATE :: loggingRegs) s t ∧ KeepsBut [.regs, .ev, .quiesced] s t) ∧
      KeepsBut [.regs, .oe, .ln, .sw, .tm, .sy, .ev, .quiesced] s t)) ∧
  ((∀ (s : State) (e : EngineId), s.dev.on F.OE_CAL_STAT_busy e.val 0 = true → s.dev.oe.settling.contains e.val = false →
    s.dev.hubRuns = true →
    let n := Nat.min 65535 ((s.chip.section (2 + e.val)).commits + 1)
    (∃ t, exec (.calibrationCommitDone (.engine e) true) s = .next t ∧
      t.chip.flash = { s.chip.flash with cal := smInsert s.chip.flash.cal (2 + e.val) ⟨true, true, n, s.dev.oeSection e.val⟩ } ∧
      t.dev.rd F.OE_CAL_STAT_busy e.val 0 = 0 ∧ t.dev.rd F.OE_CAL_STAT_last e.val 0 = 1 ∧ t.dev.rd F.OE_CAL_STAT_user e.val 0 = 1 ∧
      t.dev.rd F.OE_CAL_STAT_commits e.val 0 = n ∧ RegsKeptBut [.OE_CAL_STAT] s t ∧ KeepsBut [.regs, .flash, .quiesced] s t) ∧
    (∃ t, exec (.calibrationCommitDone (.engine e) false) s = .next t ∧ t.dev.rd F.OE_CAL_STAT_busy e.val 0 = 0 ∧
      t.dev.rd F.OE_CAL_STAT_last e.val 0 = 3 ∧ Logged .OE e.val 6 s t ∧
      RegsKeptBut (.OE_CAL_STAT :: loggingRegs) s t ∧ KeepsBut [.regs, .ev, .quiesced] s t)) ∧
  (∀ (s : State) (q : QuadId), s.dev.on F.BYP_CAL_STAT_busy q.val 0 = true → s.dev.hubRuns = true →
    (∃ t, exec (.calibrationCommitDone (.quad q) true) s = .next t ∧
      t.chip.flash = { s.chip.flash with cal := smInsert s.chip.flash.cal (18 + q.val) ⟨true, true,
          Nat.min 65535 ((s.chip.section (18 + q.val)).commits + 1), s.dev.bypSection q.val⟩ } ∧
      t.dev.rd F.BYP_CAL_STAT_busy q.val 0 = 0 ∧ t.dev.rd F.BYP_CAL_STAT_last q.val 0 = 1 ∧ t.dev.rd F.BYP_CAL_STAT_user q.val 0 = 1 ∧
      RegsKeptBut [.BYP_CAL_STAT] s t ∧ KeepsBut [.regs, .flash, .quiesced] s t) ∧
    (∃ t, exec (.calibrationCommitDone (.quad q) false) s = .next t ∧ t.dev.rd F.BYP_CAL_STAT_last q.val 0 = 3 ∧ t.dev.rd F.BYP_CAL_STAT_busy q.val 0 = 0 ∧ Logged .BYP q.val 5 s t ∧
      RegsKeptBut (.BYP_CAL_STAT :: loggingRegs) s t ∧ KeepsBut [.regs, .ev, .quiesced] s t)))

/-- On the requesting end of a substitution on a transmit fibre of an engine that is not paused: ready and modulator lock, in either order, begin training; the mirror request begins copying; mirror good sends the switch message, 512 blocks ahead; done puts the lane on the new wavelength and the fibre on spare; a refusal or a timeout before the switch message abandons the fibre with OE code 1, and a timeout after it counts the fibre as moved. SUB_REQUEST_RECEIVE of a new request on an up link: a request the far end can serve, of a lane of the port onto a wavelength that no lane of the fibre is taken from, is kept and its filter tunes; any other is refused. Filter lock answers ready, adaptation, a second one after a resume included, sends the mirror request, verification answers mirror good, the switch message fixes the block, and at that block the lane is taken from the new wavelength and done is answered; an unanswered mirror request goes out again. It rests also on readings that are the model's own: log 17, 63, 174. Under hypotheses on the state and operands alone it concludes that exec answers a next state, and what that holds, for subRequestReceive, subFilterLocked, subReadyReceive, subModulatorLocked, subReceiverAdapted, subMirrorRequestReceive, subMirrorVerified, subMirrorGoodReceive, subSwitchReceive, subSwitchBlock, subDoneReceive, subRefuseReceive, subResend, subTimeout. (09_optical_engines.md, R231, R232, R230) -/
def Obligations.Substitution : Prop :=
  (∀ (s : State) (port : LaneId) (fib : FibreId) (r : SubReq) (seq : BitVec 8), fib.val = port.val / 8 →
    smFind s.dev.oe.req fib.val = some r → r.seq = seq.toNat → r.op = 0 → s.dev.paused (port.val / 64) = false →
    s.dev.rd F.OE_STATE_sub (fib.val / 8) 0 = 1 →
    let d := s.dev; let lane := 8 * fib.val + r.from_
    (r.phase = 1 → r.lock = true → ∃ t, exec (.subReadyReceive port seq) s = .next t ∧
      t.dev.oe = { d.oe with req := smInsert d.oe.req fib.val { r with ready := true, phase := 2 } } ∧ t.dev.fibState fib.val = 2 ∧
      RegsKeptBut [.OE_SUB_STAT] s t ∧ KeepsBut [.regs, .oe, .quiesced] s t) ∧
    (r.phase = 1 → r.lock = false → ∃ t, exec (.subReadyReceive port seq) s = .next t ∧
      t.dev.oe = { d.oe with req := smInsert d.oe.req fib.val { r with ready := true } } ∧ KeepsBut [.oe, .quiesced] s t) ∧
    (r.phase = 1 → r.ready = true → ∃ t, exec (.subModulatorLocked fib) s = .next t ∧
      t.dev.oe = { d.oe with req := smInsert d.oe.req fib.val { r with lock := true, phase := 2 } } ∧ t.dev.fibState fib.val = 2 ∧
      RegsKeptBut [.OE_SUB_STAT] s t ∧ KeepsBut [.regs, .oe, .quiesced] s t) ∧
    (r.phase = 2 → ∃ t, exec (.subMirrorRequestReceive port seq) s = .next t ∧
      t.dev.oe = { d.oe with req := smInsert d.oe.req fib.val { r with phase := 3 } } ∧ t.dev.fibState fib.val = 3 ∧
      RegsKeptBut [.OE_SUB_STAT] s t ∧ KeepsBut [.regs, .oe, .quiesced] s t) ∧
    (∀ p, r.phase = 3 → d.portOf lane = some p → d.linkUp p = true → ∃ t, exec (.subMirrorGoodReceive port seq) s = .next t ∧
      t.dev.oe = { d.oe with req := smInsert d.oe.req fib.val { r with phase := 4, block := (d.txLink port.val).blocks + 512 } } ∧
      t.dev.ln = { d.ln with ctl := d.ln.ctl ++
        [subCtl d p 0x24 r.seq r.op r.from_ r.to_ ((d.txLink port.val).blocks + 512)] } ∧
      t.dev.fibState fib.val = 4 ∧ RegsKeptBut [.OE_SUB_STAT] s t ∧ KeepsBut [.regs, .oe, .ln, .freeCtr, .quiesced] s t) ∧
    (r.phase = 4 ∨ r.block ≠ 0 → ∃ t, exec (.subDoneReceive port seq) s = .next t ∧ exec (.subTimeout fib) s = .next t ∧
      smFind t.dev.oe.req fib.val = none ∧ smGet t.dev.oe.carry lane (lane % 8) = r.to_ ∧ t.dev.fibState fib.val = 5 ∧
      KeepsBut [.regs, .oe, .ev, .quiesced] s t) ∧
    (r.phase < 4 → r.block = 0 → ∃ t, exec (.subTimeout fib) s = .next t ∧ exec (.subRefuseReceive port seq) s = .next t ∧
      t.dev.oe.req = smErase d.oe.req fib.val ∧ t.dev.oe.carry = d.oe.carry ∧ t.dev.fibState fib.val = 6 ∧
      Logged .OE (fib.val / 8) 1 s t ∧ KeepsBut [.regs, .oe, .ev, .quiesced] s t) ∧
    (∀ p, r.phase = 1 → r.ready = false → d.portOf lane = some p → d.linkUp p = true →
      ∃ t, exec (.subResend fib false) s = .next t ∧
      t.dev.ln = { d.ln with ctl := d.ln.ctl ++ [subCtl d p 0x20 r.seq r.op r.from_ r.to_ 0] } ∧
      KeepsBut [.ln, .freeCtr, .quiesced] s t)) ∧
  ((∀ (s : State) (port : LaneId) (seq : BitVec 8) (op src dst : BitVec 4), let d := s.dev; let fib := port.val / 8
    let lane := subLane fib op.toNat src.toNat dst.toNat
    d.linkUp port.val = true → (∀ r, smFind d.oe.far fib = some r → r.seq ≠ seq.toNat) →
    (op.toNat < 2 → src.toNat < 9 → dst.toNat < 9 → lane ∈ d.lanesOf port.val →
      (∀ w < 8, smGet d.ln.rxWl (8 * fib + w) w ≠ dst.toNat) →
      ∃ t, exec (.subRequestReceive port seq op src dst) s = .next t ∧ KeepsBut [.oe, .quiesced] s t ∧
        t.dev.oe = { d.oe with far := smInsert d.oe.far fib ⟨seq.toNat, op.toNat, src.toNat, dst.toNat, 1, 0⟩ }) ∧
    (2 ≤ op.toNat ∨ 9 ≤ src.toNat ∨ 9 ≤ dst.toNat ∨ lane ∉ d.lanesOf port.val ∨
        (∃ w < 8, smGet d.ln.rxWl (8 * fib + w) w = dst.toNat) →
      ∃ t, exec (.subRequestReceive port seq op src dst) s = .next t ∧
        t.dev.oe = { d.oe with far := smInsert d.oe.far fib ⟨seq.toNat, op.toNat, src.toNat, dst.toNat, 7, 0⟩ } ∧
        t.dev.ln = { d.ln with ctl := d.ln.ctl ++ [subCtl d port.val 0x26 seq.toNat op.toNat src.toNat dst.toNat 0] } ∧
        KeepsBut [.oe, .ln, .freeCtr, .quiesced] s t)) ∧
  (∀ (s : State) (port : LaneId) (fib : FibreId) (r : SubFar) (p : Nat) (seq : BitVec 8) (block : Word), fib.val = port.val / 8 →
    let d := s.dev; let lane := subLane fib.val r.op r.from_ r.to_
    let msg := fun (kind : Nat) => d.ln.ctl ++ [subCtl d p kind r.seq r.op r.from_ r.to_ 0]
    smFind d.oe.far fib.val = some r → r.seq = seq.toNat → d.portOf lane = some p → d.linkUp p = true →
    (∀ c k n, (c, k, n) ∈ [(Instr.subFilterLocked fib, 1, 0x21), (.subMirrorVerified fib, 3, 0x23)] →
      r.phase = k → ∃ t, exec c s = .next t ∧ t.dev.oe = { d.oe with far := smInsert d.oe.far fib.val { r with phase := k + 1 } } ∧
        t.dev.ln = { d.ln with ctl := msg n } ∧ KeepsBut [.oe, .ln, .freeCtr, .quiesced] s t) ∧
    (2 ≤ r.phase → r.phase ≤ 5 → ∃ t, exec (.subReceiverAdapted fib) s = .next t ∧
      t.dev.oe = { d.oe with far := smInsert d.oe.far fib.val { r with phase := 3, block := 0 } } ∧
      t.dev.ln = { d.ln with ctl := msg 0x22 } ∧ KeepsBut [.oe, .ln, .freeCtr, .quiesced] s t) ∧
    (r.phase = 4 → ∃ t, exec (.subSwitchReceive port seq block) s = .next t ∧
      t.dev.oe = { d.oe with far := smInsert d.oe.far fib.val { r with phase := 5, block := block.toNat } } ∧
      KeepsBut [.oe, .quiesced] s t) ∧
    (r.phase = 5 → ∃ t, exec (.subSwitchBlock fib) s = .next t ∧
      t.dev.oe = { d.oe with far := smInsert d.oe.far fib.val { r with phase := 6 } } ∧
      smGet t.dev.ln.rxWl lane (lane % 8) = r.to_ ∧ t.dev.ln.ctl = msg 0x25 ∧ KeepsBut [.oe, .ln, .freeCtr, .quiesced] s t) ∧
    (r.phase = 3 → ∃ t, exec (.subResend fib true) s = .next t ∧ t.dev.ln = { d.ln with ctl := msg 0x22 } ∧
      KeepsBut [.ln, .freeCtr, .quiesced] s t)))

/-- BYPASS_VERIFY_COMPLETE of a setup with no image circuit waiting: with light and every loss within the limit, the circuit is active in state 2 and the bias cells hold its record with the measured levels; with one loss above it, or bias cells that do not take the commit, the input is dark, the bias cells are unchanged and the status is 4 with BYP code 1 or 2 logged; with a dark input it is active in state 3. It rests also on readings that are the model's own: log 12, 87, 88, 89, 90. Under hypotheses on the state and operands alone it concludes that exec answers a next state, and what that holds, for bypassVerifyComplete. (10_optical_bypass.md, R249, R253, R254) -/
def Obligations.CircuitVerified : Prop :=
  ∀ (s : State) (q : QuadId) (inTap : List Int) (outTaps : List (List Int)) (i : Nat) (img : Bool), i < 32 →
    let d := s.dev; let outs := outsOf (d.outMask q.val i)
    let off := fun k => s16 (smGet d.by_.offs (q.val * 64 + k) 0)
    let loss8 := fun j => inTap.sum - (outTaps.getD j []).sum + 8 * (off i - off (32 + outs.getD j 0))
    smFind d.by_.op q.val = some ⟨1, i, img⟩ → (∀ x ∈ d.by_.todo, x.1 ≠ q.val) →
    (-16000 ≤ inTap.sum → (∀ j < outs.length, loss8 j ≤ 8 * lossLimit outs.length) →
      ∃ t r, exec (.bypassVerifyComplete q inTap outTaps true) s = .next t ∧ smFind t.dev.by_.op q.val = none ∧
        t.dev.rd F.BYP_IN_active q.val i = 1 ∧ t.dev.rd F.BYP_IN_state q.val i = 2 ∧
        t.dev.rd F.BYP_IN_outputs q.val i = d.rd F.BYP_IN_outputs q.val i ∧
        t.dev.rd F.BYP_CMD_busy q.val 0 = 0 ∧ t.dev.rd F.BYP_CMD_status q.val 0 = 0 ∧
        smFind t.dev.by_.rec_ (q.val * 32 + i) = some r ∧ r.outputs = d.outMask q.val i ∧ r.state = 2 ∧
        r.level = (List.range outs.length).map (fun j => (outs.getD j 0, (outTaps.getD j []).sum)) ∧
        KeepsBut [.regs, .by_, .ev, .freeCtr, .quiesced] s t) ∧
    (∀ b, (-16000 ≤ inTap.sum ∧ ∃ j < outs.length, 8 * lossLimit outs.length < loss8 j) ∨ b = false →
      ∃ t, exec (.bypassVerifyComplete q inTap outTaps b) s = .next t ∧ smFind t.dev.by_.op q.val = none ∧
        t.dev.rdw .BYP_IN q.val i = 0 ∧ (∀ o ∈ outs, t.dev.rdw .BYP_OUT q.val o = 0) ∧ t.dev.by_.rec_ = d.by_.rec_ ∧
        t.dev.rd F.BYP_CMD_status q.val 0 = 4 ∧
        ((-16000 ≤ inTap.sum ∧ ∃ j < outs.length, 8 * lossLimit outs.length < loss8 j) → Logged .BYP q.val 1 s t) ∧
        (¬ (-16000 ≤ inTap.sum ∧ ∃ j < outs.length, 8 * lossLimit outs.length < loss8 j) → Logged .BYP q.val 2 s t) ∧
        RegsKeptBut (.BYP_IN :: .BYP_OUT :: .BYP_CMD :: loggingRegs) s t ∧ KeepsBut [.regs, .by_, .ev, .quiesced] s t) ∧
    (inTap.sum < -16000 → ∃ t, exec (.bypassVerifyComplete q inTap outTaps true) s = .next t ∧
      smFind t.dev.by_.op q.val = none ∧ t.dev.rd F.BYP_IN_active q.val i = 1 ∧ t.dev.rd F.BYP_IN_state q.val i = 3 ∧
      t.dev.rd F.BYP_CMD_status q.val 0 = 0 ∧ KeepsBut [.regs, .by_, .ev, .freeCtr, .quiesced] s t)

/-- BYPASS_DARK_INPUT_CHECK of an unverified circuit whose input reads -20 dBm or more begins its verification. BYPASS_TAP_SAMPLE keeps the latest eight input samples of every established circuit and shows the temperature. BYPASS_TRIM counts one trim for each active output. BYPASS_RECORD_READ, where no image waits for the comparison of R259 and no image circuit for its setup, shows each circuit of the records, and darkens and forgets one whose record disagrees with its bias cells, under BYP code 6. It rests also on readings that are the model's own: log 91. Under hypotheses on the state and operands alone it concludes that exec answers a next state, and what that holds, for bypassDarkInputCheck, bypassTapSample, bypassTrim, bypassRecordRead. (10_optical_bypass.md, R254, R257, R258, R259) -/
def Obligations.BypassWatches : Prop :=
  ∀ (s : State) (q : QuadId), let d := s.dev
    (d.bypUp q.val = true → smFind d.by_.op q.val = none → ∀ (i : MeshIn) (level : Int), d.rd F.BYP_IN_state q.val i.val = 3 →
      -2000 ≤ level → ∃ t, exec (.bypassDarkInputCheck q i level) s = .next t ∧
        t.dev.by_ = { d.by_ with op := smInsert d.by_.op q.val ⟨4, i.val, false⟩ } ∧ KeepsBut [.by_, .quiesced] s t) ∧
    (d.bypUp q.val = true → ∀ (ins outs : List Int) (temp : BitVec 16), ins.length = 32 →
      ∃ t, exec (.bypassTapSample q ins outs temp) s = .next t ∧ t.dev.rd F.BYP_THERM_die q.val 0 = temp.toNat ∧
        (∀ i < 32, ∀ v, ins[i]? = some v → smGet t.dev.by_.inp (q.val * 32 + i) [] =
          (if d.on F.BYP_IN_active q.val i = true ∧ d.rd F.BYP_IN_state q.val i ≠ 1
           then (v :: smGet d.by_.inp (q.val * 32 + i) []).take 8 else smGet d.by_.inp (q.val * 32 + i) [])) ∧
        t.dev.by_.rec_ = d.by_.rec_ ∧ RegsKeptBut (.BYP_THERM :: .BYP_IN :: .BYP_OUT :: loggingRegs) s t ∧
        KeepsBut [.regs, .by_, .ev, .freeCtr, .quiesced] s t) ∧
    (d.bypUp q.val = true → d.on F.BYP_CFG_trim q.val 0 = true → ∃ t, exec (.bypassTrim q) s = .next t ∧
      t.dev.rd F.BYP_THERM_trims q.val 0 = Nat.min 65535 (d.rd F.BYP_THERM_trims q.val 0 +
        ((List.range 32).filter fun o => d.on F.BYP_OUT_active q.val o).length) ∧
      RegsKeptBut [.BYP_THERM, .CNT_VAL, .CNT_CTRL] s t ∧ KeepsBut [.regs, .quiesced] s t) ∧
    (d.dieState (18 + q.val) = 1 → q.val ∉ d.by_.read → smFind d.by_.await q.val = none → (∀ x ∈ d.by_.todo, x.1 ≠ q.val) → ∀ (bad : List MeshIn),
      ∃ t, exec (.bypassRecordRead q bad) s = .next t ∧ q.val ∈ t.dev.by_.read ∧
        (∀ (i : MeshIn) (r : BiasRec), smFind d.by_.rec_ (q.val * 32 + i.val) = some r → i ∉ bad →
          t.dev.rd F.BYP_IN_active q.val i.val = 1 ∧
          t.dev.rd F.BYP_IN_outputs q.val i.val = r.outputs.toNat % 4294967296 ∧
          t.dev.rd F.BYP_IN_state q.val i.val = (if d.cfg.active then r.state else 5) % 8 ∧
          smFind t.dev.by_.rec_ (q.val * 32 + i.val) = some r) ∧
        (∀ (i : MeshIn) (r : BiasRec), smFind d.by_.rec_ (q.val * 32 + i.val) = some r → i ∈ bad →
          t.dev.rdw .BYP_IN q.val i.val = 0 ∧ smFind t.dev.by_.rec_ (q.val * 32 + i.val) = none ∧ Latched .BYP q.val 6 t) ∧
        RegsKeptBut (.BYP_THERM :: .BYP_IN :: .BYP_OUT :: loggingRegs) s t ∧ KeepsBut [.regs, .by_, .ev, .quiesced] s t)

/-- FLIT_RECEIVE on an up bundle of a running die, of a flit that the sender has: an intact flit of the expected sequence is accepted and its two cells stand at their destination indices, another is discarded; one whose CRC fails is discarded, counted and asked for again, and a failure at the expected sequence counts towards the limit. What the sender has is a flit of its retry buffer, which counts as a resend, or, with room there, the next sequence, whose flit stays in the buffer until it is acknowledged: first the flits that a lost bundle left, then a new one. FLIT_RESEND_LIMIT after nine failures takes the bundle down under D2D code 1 and logs D2D code 4; while another data bundle of the direction is up, the down bundle is shown and counted, its unacknowledged flits wait for the others, and nothing is flushed. WIRE_REPAIR of a wire in use, on a bundle that carries flits, moves its data position to the first spare wire, shown in D2D_BND_STAT for a data bundle, and counts event 1; with no spare left the bundle goes down. PEER_DIE_LOST: a running die whose control bundle is silent, whose peer does not run or to or from which no data bundle is up treats its peer as lost, a silent one or one that does not run under D2D code 3; nothing that stands in its cells waits for or is on its way to the lost die, no acknowledgement is awaited from it, and a frame that it sends of which some cells but not all had come ends with a stomped trailer. It rests also on readings that are the model's own: log 71, 72, 73, 172, 177, 182, 185. Under hypotheses on the state and operands alone it concludes that exec answers a next state, and what that holds, for flitReceive, flitResendLimit, wireRepair, peerDieLost. (12_package_and_boot.md, R297, R298, R300, R301, R408, 03_switch_core.md, R84, R299) -/
def Obligations.RhizoidLinks : Prop :=
  ((∀ (s : State) (die : DieId) (b : FlitBundle) (seq : BitVec 10) (i0 i1 : Word) (c0 c1 : List Byte) (flips : List (Fin 4352))
      (d1 : Dev) (f : Flit), let d := s.dev; let k := bndKey die.val b.val
    let r := smGet d.d2.rx k ⟨0, false, 0⟩; let got := flipBits f.image (flips.map fun x => x.val)
    d.dieRuns die.val = true → d.on F.D2D_BND_STAT_up die.val b.val = true →
    d.flitSend die.val b.val seq.toNat ⟨seq.toNat, 0, i0.toNat, i1.toNat, c0, c1⟩ = some (d1, f) →
    (flips = [] → seq.toNat = r.expected → ∃ t, exec (.flitReceive die b seq ⟨i0, i1, c0, c1, flips⟩) s = .next t ∧
      smFind t.dev.d2.rx k = some ⟨(r.expected + 1) % 1024, false, 0⟩ ∧ smFind t.dev.d2.tx k = smFind d1.d2.tx k ∧
      (let at_ := fun (i : Nat) => die.val * 2 ^ 64 + i % 2 ^ 64; let cell := fun (c : List Byte) => (c ++ List.replicate 256 0).take 256
        smFind t.dev.d2.cells (at_ f.idx1) = some (cell f.cell1) ∧
        (f.idx0 % 2 ^ 64 ≠ f.idx1 % 2 ^ 64 → smFind t.dev.d2.cells (at_ f.idx0) = some (cell f.cell0)) ∧
        (∀ j, j ≠ at_ f.idx0 → j ≠ at_ f.idx1 → smFind t.dev.d2.cells j = smFind d.d2.cells j)) ∧
      RegsKeptBut [.D2D_BND_STAT, .CNT_VAL, .CNT_CTRL] s t ∧ KeepsBut [.regs, .d2, .quiesced] s t) ∧
    (flips = [] → seq.toNat ≠ r.expected → ∃ t, exec (.flitReceive die b seq ⟨i0, i1, c0, c1, flips⟩) s = .next t ∧ t.dev.d2 = d1.d2 ∧
      RegsKeptBut [.D2D_BND_STAT, .CNT_VAL, .CNT_CTRL] s t ∧ KeepsBut [.regs, .d2, .quiesced] s t) ∧
    (leNat (got.drop 540) ≠ crc32c (got.take 540) → ∃ t, exec (.flitReceive die b seq ⟨i0, i1, c0, c1, flips⟩) s = .next t ∧
      t.dev.d2 = { d1.d2 with rx := smInsert d.d2.rx k { r with
        waiting := true, fails := if seq.toNat = r.expected then r.fails + 1 else r.fails } } ∧
      t.dev.out = d.out ++ [.flitAsk die.val b.val r.expected] ∧ Counted F.D2D_EVT_CNT_events die.val 0 s t ∧
      RegsKeptBut [.D2D_BND_STAT, .D2D_EVT_CNT, .CNT_VAL, .CNT_CTRL] s t ∧ KeepsBut [.regs, .d2, .out, .quiesced] s t)) ∧
  (∀ (d : Dev) (die : DieId) (b : FlitBundle) (seq : BitVec 10) (new : Flit), let k := bndKey die.val b.val
    let x := smGet d.d2.tx k ⟨0, []⟩; let moved := smGet d.d2.moved die.val []
    (∀ f, x.retry.find? (fun f => f.seq == seq.toNat) = some f → ∃ d1, d.flitSend die.val b.val seq.toNat new = some (d1, f) ∧
      d1.d2 = d.d2 ∧ d1.rd F.D2D_BND_STAT_resends die.val b.val =
        Nat.min F.D2D_BND_STAT_resends.max (d.rd F.D2D_BND_STAT_resends die.val b.val + 1)) ∧
    (x.retry.find? (fun f => f.seq == seq.toNat) = none → seq.toNat = x.next → x.retry.length < 64 →
      ∃ d1 f, d.flitSend die.val b.val seq.toNat new = some (d1, f) ∧
        f = { moved.headD new with seq := seq.toNat, ack := f.ack } ∧
        smFind d1.d2.tx k = some ⟨(seq.toNat + 1) % 1024, x.retry ++ [f]⟩ ∧ smGet d1.d2.moved die.val [] = moved.tail)) ∧
  (∀ (s : State) (die : DieId) (b : FlitBundle), let d := s.dev; let k := bndKey die.val b.val
    d.on F.D2D_BND_STAT_up die.val b.val = true → 9 ≤ (smGet d.d2.rx k ⟨0, false, 0⟩).fails →
    (∃ c < 16, c ≠ b.val ∧ d.on F.D2D_BND_STAT_up die.val c = true) →
    ∃ t, exec (.flitResendLimit die b) s = .next t ∧
      t = s.after (fun d => (d.bundleDown die.val b.val).logErr .D2D die.val 4 (d2dDetail b.val)) ∧
      t.dev.on F.D2D_BND_STAT_up die.val b.val = false ∧ smFind t.dev.d2.rx k = none ∧ smFind t.dev.d2.tx k = none ∧
      smGet t.dev.d2.moved die.val [] = smGet d.d2.moved die.val [] ++ (smGet d.d2.tx k ⟨0, []⟩).retry ∧
      Counted F.D2D_EVT_CNT_events die.val 2 s t ∧ Latched .D2D die.val 1 t ∧ Latched .D2D die.val 4 t ∧
      RegsKeptBut (.D2D_BND_STAT :: .D2D_STAT :: .D2D_EVT_CNT :: loggingRegs) s t ∧ KeepsBut [.regs, .d2, .ev, .quiesced] s t)) ∧
  ((∀ (s : State) (die : DieId) (b : WireBundle) (w : WireId), let d := s.dev; let k := bndKey die.val b.val
    let used := smGet d.d2.wires k []
    d.dieRuns die.val = true → d.bundleUp die.val b.val = true → w.val ∈ used →
    (∀ spare rest, d.spareWires die.val b.val = spare :: rest → ∃ t, exec (.wireRepair die b w) s = .next t ∧
      t.dev.d2 = { d.d2 with wires := smInsert d.d2.wires k (used.map fun x => if x = w.val then spare else x),
                             bad := smInsert d.d2.bad k (smGet d.d2.bad k [] ++ [w.val]) } ∧
      (b.val < 16 → t.dev.rd F.D2D_BND_STAT_repaired die.val b.val = (d.rd F.D2D_BND_STAT_repaired die.val b.val + 1) % 16 ∧
        t.dev.rd F.D2D_BND_STAT_last_wire die.val b.val = w.val) ∧
      (b.val = 16 → RegsKeptBut [.D2D_EVT_CNT, .CNT_VAL, .CNT_CTRL] s t) ∧ Counted F.D2D_EVT_CNT_events die.val 1 s t ∧
      RegsKeptBut [.D2D_BND_STAT, .D2D_EVT_CNT, .CNT_VAL, .CNT_CTRL] s t ∧ KeepsBut [.regs, .d2, .ev, .quiesced] s t) ∧
    (d.spareWires die.val b.val = [] → exec (.wireRepair die b w) s = .next (s.after fun d => d.bundleDown die.val b.val))) ∧
  (∀ (s : State) (die : DieId), let d := s.dev
    d.dieRuns die.val = true → d.on F.D2D_STAT_peer die.val 0 = true → d.dieRuns (1 - die.val) = false ∨ d.d2.ctlDown ≠ [] ∨ d.bundlesUp 0 = 0 ∨ d.bundlesUp 1 = 0 →
    ∃ t, exec (.peerDieLost die) s = .next t ∧
      (∀ x ∈ t.dev.sw.queue, ¬ (x.die = die.val ∧ x.dest.die = 1 - die.val)) ∧
      (∀ p x, smFind t.dev.sw.tx p = some x → ¬ (x.desc.die = die.val ∧ laneDie p = 1 - die.val)) ∧
      (∀ x ∈ d.sw.tx, x.2.desc.die = 1 - die.val → laneDie x.1 = die.val → x.2.staged < x.2.desc.cells.length → x.2.staged ≠ 0 →
        ∃ f, Output.frame x.1 f true ∈ t.dev.out) ∧
      t.dev.on F.D2D_STAT_peer die.val 0 = false ∧
      (d.dieRuns (1 - die.val) = false ∨ d.d2.ctlDown ≠ [] → Latched .D2D die.val 3 t) ∧ (∀ a ∈ t.dev.sw.acks, a.die ≠ die.val) ∧
      KeepsBut [.regs, .ln, .sw, .tm, .sy, .ev, .out, .quiesced] s t))

/-- UCIE_MEASUREMENT_ANSWER while measuring: an answer of 56 bytes extends M4 and shows in HUB_UCIE_MEAS; a digest on the allow-list opens the image's streams, at most four, and any other holds the link with HUB code 7. A malformed answer and UCIE_MEASUREMENT_TIMEOUT hold it without an extension. UCIE_LINK_DOWN closes the streams, logs code 8 and, with the site enabled under an image, measures again. It rests also on readings that are the model's own: log 14, 148. Under hypotheses on the state and operands alone it concludes that exec answers a next state, and what that holds, for ucieMeasurementAnswer, ucieMeasurementTimeout, ucieLinkDown. (12_package_and_boot.md, 15_security.md, R303, R304, R377) -/
def Obligations.ChipletAdmission : Prop :=
  ∀ s : State, let d := s.dev
    d.hubRuns = true →
    (d.rd F.HUB_UCIE_STAT_state 0 0 = 2 →
      (∀ answer : List Byte, answer.length = 56 →
        ∃ t, exec (.ucieMeasurementAnswer answer) s = .next t ∧
          (∀ j < 6, t.dev.rdw .SEC_MEAS 0 (24 + j) = payWord (sha384 (d.meas 4 ++ answer)) j) ∧
          (∀ j < 7, t.dev.rdw .HUB_UCIE_MEAS 0 j = payWord answer j) ∧
          (answer.drop 8 ∈ d.cfg.allow → t.dev.rd F.HUB_UCIE_STAT_state 0 0 = 3 ∧
            t.dev.rd F.HUB_UCIE_STAT_streams 0 0 = Nat.min 4 d.cfg.streams ∧ KeepsBut [.regs, .quiesced] s t) ∧
          (answer.drop 8 ∉ d.cfg.allow → t.dev.rd F.HUB_UCIE_STAT_state 0 0 = 4 ∧ t.dev.rd F.HUB_UCIE_STAT_streams 0 0 = 0 ∧
            Logged .HUB 0 7 s t) ∧
          RegsKeptBut (.SEC_MEAS :: .HUB_UCIE_MEAS :: .HUB_UCIE_STAT :: loggingRegs) s t ∧ KeepsBut [.regs, .ev, .quiesced] s t) ∧
      (∀ c, c = .ucieMeasurementTimeout ∨ (∃ a : List Byte, a.length ≠ 56 ∧ c = .ucieMeasurementAnswer a) →
        ∃ t, exec c s = .next t ∧ t.dev.rd F.HUB_UCIE_STAT_state 0 0 = 4 ∧ t.dev.rd F.HUB_UCIE_STAT_streams 0 0 = 0 ∧
          Logged .HUB 0 7 s t ∧
          RegsKeptBut (.HUB_UCIE_STAT :: loggingRegs) s t ∧ KeepsBut [.regs, .ev, .quiesced] s t)) ∧
    (d.rd F.HUB_UCIE_STAT_state 0 0 = 2 ∨ d.rd F.HUB_UCIE_STAT_state 0 0 = 3 → d.on F.HUB_UCIE_CTRL_enable 0 0 = true → d.cfg.active = true →
      ∃ t, exec .ucieLinkDown s = .next t ∧ t.dev.rd F.HUB_UCIE_STAT_state 0 0 = 2 ∧ t.dev.rd F.HUB_UCIE_STAT_streams 0 0 = 0 ∧
        t.dev.out = d.out ++ [.ucieAsk] ∧ Logged .HUB 0 8 s t ∧
        RegsKeptBut (.HUB_UCIE_STAT :: loggingRegs) s t ∧ KeepsBut [.regs, .ev, .out, .freeCtr, .quiesced] s t)

/-- AVS_LOOP of a running die whose speed at 105 °C is below 10.5 times 100 plus the guard band: below 0.85 V in automatic mode the setpoint rises by 5 mV; at 0.85 V or more the setpoint stays, the loss of margin is counted once and held, and every port of the die has the bulk cap. A pass that finds the speed at the bound or above starts the 1 ms after which SPEED_MARGIN_RECOVER ends it and changes nothing but the cap; a pass below it starts over. It rests also on readings that are the model's own: log 12, 98. Under hypotheses on the state and operands alone it concludes that exec answers a next state, and what that holds, for avsLoop, speedMarginRecover. (13_timing_power_thermal.md, R321, R322, R331) -/
def Obligations.VoltageScaling : Prop :=
  ∀ (s : State) (die : DieId), let d := s.dev; let i := die.val
    let low := 21 * (100 + d.rd F.HUB_AVS_CTRL_guard 0 i); let v := d.rd F.HUB_AVS_STAT_setpoint 0 i
    (∀ (speed : Nat) (temp : BitVec 16), d.dieRuns i = true → speedBelow speed (coolBy temp.toNat) low 2 = true →
      (v < 850 → d.on F.HUB_AVS_CTRL_mode 0 i = false → ∃ t, exec (.avsLoop die speed temp) s = .next t ∧
        t.dev.rd F.HUB_AVS_STAT_setpoint 0 i = v + 5 ∧ t.dev.rd F.HUB_AVS_STAT_speed 0 i = speed % 65536 ∧
        t.dev.rd F.HUB_AVS_STAT_temp 0 i = temp.toNat ∧
        t.dev.pw = { d.pw with lastStep := smInsert d.pw.lastStep i d.tick, atLo := smErase d.pw.atLo i } ∧
        RegsKeptBut [.HUB_AVS_STAT] s t ∧ KeepsBut [.regs, .pw, .freeCtr, .quiesced] s t) ∧
      (850 ≤ v → i ∉ d.pw.margin → ∃ t, exec (.avsLoop die speed temp) s = .next t ∧
        t.dev.rd F.HUB_AVS_STAT_setpoint 0 i = v ∧ t.dev.pw = { d.pw with margin := d.pw.margin ++ [i], atLo := smErase d.pw.atLo i } ∧
        (∀ p ∈ d.cfg.ports, laneDie p.1 = i → (smFind t.dev.tm.bulkTokens p.1).isSome = true) ∧
        Counted F.HUB_PWR_EVT_CNT_events 0 5 s t ∧ RegsKeptBut [.HUB_AVS_STAT, .HUB_PWR_EVT_CNT, .CNT_VAL, .CNT_CTRL] s t ∧
        KeepsBut [.regs, .pw, .tm, .ev, .freeCtr, .quiesced] s t)) ∧
    (∀ t0, i ∈ d.pw.margin → smFind d.pw.atLo i = some t0 → t0 + 156250 ≤ d.tick → ∃ t, exec (.speedMarginRecover die) s = .next t ∧
      t.dev.pw = { d.pw with margin := d.pw.margin.filter (· != i) } ∧
      (∀ p ∈ d.cfg.ports, t.dev.capHolds p.1 = false → smFind t.dev.tm.bulkTokens p.1 = none) ∧ KeepsBut [.pw, .tm, .quiesced] s t) ∧
    (∀ (speed : Nat) (temp : BitVec 16), d.dieRuns i = true → speedBelow speed (coolBy temp.toNat) low 2 = false →
      smFind d.pw.atLo i = none → ∃ t, exec (.avsLoop die speed temp) s = .next t ∧ smFind t.dev.pw.atLo i = some d.tick ∧
        RegsKeptBut [.HUB_AVS_STAT] s t ∧ KeepsBut [.regs, .pw, .freeCtr, .quiesced] s t)

/-- SHEDDING_STEP_ENTER with no spilled chunk and no open transfer: the step becomes the deeper of the present one and the one the rail calls for, the steps entered are counted and the deepest is kept. Crossing step 2 leaves no open transfer. SHEDDING_STEP_EXIT with the rail more than 10 mV above the step's threshold leaves one step, and with a lower rail none. GDDR7_CASE_TRIP holds the channel hot: no backing entry on it is read, no chunk stays spilled to it and no transfer stays open; with no such chunk and no transfer nothing else changes, the other channels included. It rests also on readings that are the model's own: log 93, 94, 97. Under hypotheses on the state and operands alone it concludes that exec answers a next state, and what that holds, for sheddingStepEnter, sheddingStepExit, gddr7CaseTrip. (13_timing_power_thermal.md, R325, R326, R329) -/
def Obligations.Shedding : Prop :=
  ∀ (s : State), let d := s.dev; let unspilled := fun (p : ChunkKey → Prop) => ∀ x ∈ d.sy.recs, p x.key → x.state ≠ .spilled ∧ (x.state = .held → x.spillUnits = 0)
    (∀ rail : BitVec 16,
      (unspilled (fun _ => True) → d.mg.xfer = none → ∃ t, exec (.sheddingStepEnter rail) s = .next t ∧
        t.dev.shed = Nat.max d.shed (stepOf rail.toNat) ∧ t.dev.rd F.HUB_PWR_STAT_rail 0 0 = rail.toNat % 16384 ∧
        t.dev.rd F.HUB_PWR_EVT_CNT_events 0 0 = Nat.min F.HUB_PWR_EVT_CNT_events.max
          (d.rd F.HUB_PWR_EVT_CNT_events 0 0 + (stepOf rail.toNat - d.shed)) ∧
        t.dev.rd F.HUB_PWR_STAT_deepest 0 0 = (if d.shed < stepOf rail.toNat
          then Nat.max (d.rd F.HUB_PWR_STAT_deepest 0 0) (stepOf rail.toNat) else d.rd F.HUB_PWR_STAT_deepest 0 0) ∧
        t.dev.pw = { d.pw with railAt := some d.tick } ∧
        RegsKeptBut [.HUB_PWR_STAT, .HUB_PWR_EVT_CNT, .CNT_VAL, .CNT_CTRL] s t ∧ KeepsBut [.regs, .tm, .ev, .pw, .quiesced] s t) ∧
      (d.shed < 2 → 2 ≤ stepOf rail.toNat → ∃ t, exec (.sheddingStepEnter rail) s = .next t ∧
        t = s.after (fun d => d.shedEnter rail.toNat) ∧ t.dev.mg.xfer = none) ∧
      (d.shed ≠ 0 → 1000 - 20 * d.shed < rail.toNat → d.shed ≤ 5 → ∃ t, exec (.sheddingStepExit rail) s = .next t ∧
        t.dev.shed + 1 = d.shed ∧ RegsKeptBut [.HUB_PWR_STAT] s t ∧ KeepsBut [.regs, .tm, .ev, .pw, .quiesced] s t) ∧
      (rail.toNat ≤ 1000 - 20 * d.shed → d.shed ≤ 5 → ∃ t, exec (.sheddingStepExit rail) s = .next t ∧
        t.dev.shed = d.shed ∧ RegsKeptBut [.HUB_PWR_STAT] s t ∧ KeepsBut [.regs, .pw, .quiesced] s t)) ∧
    (∀ ch : GddrCh, ch.val ∉ d.pw.hot → ∃ t, exec (.gddr7CaseTrip ch) s = .next t ∧
      t.dev.pw = { d.pw with hot := d.pw.hot ++ [ch.val] } ∧ t.dev.mg.xfer = none ∧
      (∀ pos, (Config.backChannel pos).val = ch.val → t.dev.backUp pos = false) ∧
      (∀ x ∈ t.dev.sy.recs, x.key.channel = ch.val → x.key.die < 2 → x.state ≠ .spilled) ∧
      (unspilled (fun k => k.channel = ch.val) → d.mg.xfer = none → KeepsBut [.pw, .quiesced] s t))

/-- THERMAL_STATE_CHANGE shows the temperature and brings the part to the state that its thresholds give, counting entries to throttle and trip from below and raising a record for an entry alone; no other part changes state. A state is entered at its threshold and left 3 °C below it: warn from 100 °C and throttle from 103 °C at a core die, 72 °C and 75 °C at an engine, so that between 97 °C and 100 °C a core die in warn stays there and one in normal stays in normal; the change never enters tripped, which holds above 107 °C or 77 °C. THERMAL_TRIP of a running engine shows it tripped, counts the trip, takes its optical lanes down and the engine out of service, logs HUB code 9, and keeps it so until a calibration command; of a core die, outside a handling window and while the other one is not parked, it counts the trip and is fatal cause 5, under HUB code 4; of the hub it is fatal cause 5; of a bypass die it does nothing. It rests also on readings that are the model's own: log 95. Under hypotheses on the state and operands alone it concludes that exec answers a next state, and what that holds, for thermalStateChange, thermalTrip. (13_timing_power_thermal.md, R329, R330, Table 13.6) -/
def Obligations.ThermalStates : Prop :=
  (∀ (s : State) (part : ThermPart) (temp : BitVec 16), let d := s.dev; let i := part.val
    let now := thermNext i (d.therm i) (s16 temp.toNat)
    ∃ t, exec (.thermalStateChange part temp) s = .next t ∧ (d.therm i ≤ 3 → t.dev.therm i = now) ∧
      (∀ j < 18, j ≠ i → t.dev.therm j = d.therm j) ∧
      (if i < 2 then t.dev.rd F.HUB_AVS_STAT_temp 0 i else t.dev.rd F.OE_THERM_case (i - 2) 0) = temp.toNat ∧
      (now = 2 → d.therm i < 2 → Counted F.HUB_PWR_EVT_CNT_events 0 (if i < 2 then 2 else 3) s t) ∧
      (d.therm i ≠ 3 → now ≤ 2) ∧
      (now = d.therm i → KeepsBut [.regs, .quiesced] s t) ∧ (now < d.therm i → KeepsBut [.regs, .tm, .quiesced] s t) ∧
      RegsKeptBut [.HUB_THERM_STAT, .HUB_AVS_STAT, .OE_THERM, .HUB_PWR_EVT_CNT, .CNT_VAL, .CNT_CTRL] s t ∧
      KeepsBut [.regs, .tm, .ev, .quiesced] s t) ∧
  (∀ (i st : Nat) (t : Int), st ≤ 3 →
    let warn : Int := if i < 2 then 16 * 100 else 16 * 72
    let throttle : Int := if i < 2 then 16 * 103 else 16 * 75
    let trip : Int := if i < 2 then 16 * 110 else 16 * 80
    (st = 3 → trip - 48 < t → thermNext i st t = 3) ∧
    (st ≠ 3 ∨ t ≤ trip - 48 →
      (throttle ≤ t → thermNext i st t = 2) ∧
      (warn ≤ t → t < throttle → thermNext i st t = (if 2 ≤ st ∧ throttle - 48 < t then 2 else 1)) ∧
      (t < warn → thermNext i st t = (if 2 ≤ st ∧ throttle - 48 < t then 2 else if 1 ≤ st ∧ warn - 48 < t then 1 else 0)))) ∧
  (∀ (s : State) (i : StrapId), let d := s.dev; d.alive i.val = true →
    (2 ≤ i.val → i.val < 18 → ∃ t, exec (.thermalTrip i) s = .next t ∧ t.dev.dieState i.val = 3 ∧
      t.dev.rd F.OE_STATE_in_service (i.val - 2) 0 = 0 ∧ t.dev.therm i.val = 3 ∧ Logged .HUB 0 9 s t ∧
      (d.therm i.val < 3 → Counted F.HUB_PWR_EVT_CNT_events 0 4 s t) ∧
      (∀ n p, n / 64 = i.val - 2 → d.carryOf n ≠ 15 → d.portOf n = some p → d.isPort p = true →
        t.dev.linkUp p = false ∧ t.dev.portState p ≠ 1) ∧
      t.dev.pw = { d.pw with tripped := d.pw.tripped.filter (· != i.val - 2) ++ [i.val - 2] } ∧
      KeepsBut [.regs, .pw, .oe, .ln, .sw, .sy, .tm, .ev, .quiesced] s t) ∧
    (i.val = 22 → exec (.thermalTrip i) s = exec (.fatalError i 5) s) ∧
    (i.val < 2 → exec (.thermalTrip i) s =
      exec (.fatalError i 5) { s with chip := s.chip.on fun d => d.thermEnter i.val 3 }) ∧
    (i.val < 2 → d.pw.window = [] → d.dieState (1 - i.val) ≠ 2 → ∃ t, exec (.thermalTrip i) s = .next t ∧
      t.dev.dieState i.val = 2 ∧ t.dev.therm i.val = 3 ∧ Latched .HUB 0 4 t ∧ t.dev.pw.window = [i.val] ∧
      (d.on F.HUB_FATAL_STAT_valid1 0 0 = false → t.dev.rd F.HUB_FATAL_STAT_cause1 0 0 = 5 ∧
        t.dev.rd F.HUB_FATAL_STAT_die1 0 0 = i.val) ∧
      (d.therm i.val < 3 → Counted F.HUB_PWR_EVT_CNT_events 0 4 s t)) ∧
    (18 ≤ i.val → i.val < 22 → ∃ t, exec (.thermalTrip i) s = .next t ∧ KeepsBut [.quiesced] s t))

/-- For each of the nine request commands: on a port that is down it does nothing; a datagram that is not the network's own by R335 (its MAC and IPv4 address, its VLAN, UDP port 47404, without options, unfragmented) is dropped under reason 0; one that fails a check of Table 14.3 is dropped and counted under that reason alone; one whose sequence is stale is counted under 8, a duplicate without a cached answer under 9, and a duplicate with one gets the cached answer again and performs nothing. It rests also on readings that are the model's own: log 118, 119, 120, 123, 132, 133. Under hypotheses on the state and operands alone it concludes that exec answers a next state, and what that holds, for registerReadRequest, registerWriteRequest, hello, eventRetransmission, fileBegin, fileData, fileCommit, fileAbort, crozierIssue. (14_management_and_image.md, R335, R339, R340, Table 14.3) -/
def Obligations.RequestChecks : Prop :=
  ∀ (s : State) (who : Sender) (m : KxxMsg) (full fuseOk : Bool) (c : Instr) (k : Nat), let d := s.dev; let r := m.requester
    let dropped := fun (j : Nat) => ∃ t, exec c s = .next t ∧ Counted F.MGT_DROP_CNT_frames 0 j s t ∧
      RegsKeptBut [.MGT_DROP_CNT, .CNT_VAL, .CNT_CTRL] s t ∧ KeepsBut [.regs, .quiesced] s t
    (c, k) ∈ ([(.registerReadRequest who m full, 1), (.registerWriteRequest who m full fuseOk, 2), (.hello who m full, 3),
      (.eventRetransmission who m full, 4), (.fileBegin who m full, 0x10), (.fileData who m full, 0x11), (.fileCommit who m full, 0x12),
      (.fileAbort who m full, 0x13), (.crozierIssue who m full, 0x20)] : List (Instr × Nat)) →
    (d.mgmtUp who.port.val = false → ∃ t, exec c s = .next t ∧ KeepsBut [.quiesced] s t) ∧
    (d.mgmtUp who.port.val = true → d.takesWire who.port.val who.to_ = false → dropped 0) ∧
    (d.mgmtUp who.port.val = true → d.takesWire who.port.val who.to_ = true →
      (∀ j, s.chip.failedCheck m k = some j → dropped j) ∧
      (s.chip.failedCheck m k = none →
        (d.seqClass r m.seq = .stale → dropped 8) ∧
        (d.seqClass r m.seq = .seen → ((d.requester r).cache.find? fun x => x.1 == m.seq) = none → dropped 9) ∧
        (∀ x, d.seqClass r m.seq = .seen → ((d.requester r).cache.find? fun x => x.1 == m.seq) = some x →
          ∃ t, exec c s = .next t ∧ t.dev.out = d.out ++ (match d.nextHop (netOf who.port.val) who.addr.toNat with
              | some via => [.dgram who.port.val (d.netId (netOf who.port.val)) who.addr.toNat who.udp.toNat via x.2]
              | none => []) ∧
            RegsKeptBut [.CNT_VAL, .CNT_CTRL] s t ∧ KeepsBut [.regs, .out, .quiesced] s t)))

/-- A sequence above the highest one is new and, once noted, is the highest; one that is noted is from then on a duplicate; noting a new sequence leaves what stood in the record of 64 seen or not as it was; a sequence more than 63 below the highest is stale. A request command whose sequence is a duplicate performs nothing and is answered from the cache on the network it came by, or dropped under reason 9; the cache holds the last 16 answers of the requester. It rests also on readings that are the model's own: log 123, 132. Under hypotheses on the state and operands alone it concludes that exec answers a next state, and what that holds, for registerReadRequest, registerWriteRequest, hello, eventRetransmission, fileBegin, fileData, fileCommit, fileAbort, crozierIssue. (14_management_and_image.md, R340) -/
def Obligations.SequenceRecord : Prop :=
  (∀ (d : Dev) (r q : Nat), r < 16 → q < 2 ^ 32 → d.on F.MGT_REQ_STAT_valid 0 r = true →
    let h := d.rd F.MGT_REQ_STAT_high 0 r; let up := (q + 2 ^ 32 - h) % 2 ^ 32; let back := (h + 2 ^ 32 - q) % 2 ^ 32
    let e := d.noteSeq r q
    (0 < up → up < 2 ^ 31 → d.seqClass r q = .new ∧ e.rd F.MGT_REQ_STAT_high 0 r = q) ∧
    (back < 64 → d.seqClass r q = (if back = 0 ∨ (d.requester r).seen.getLsbD back = true then .seen else .new)) ∧
    (2 ^ 31 ≤ up → 64 ≤ back → d.seqClass r q = .stale) ∧
    (d.seqClass r q = .new → e.seqClass r q = .seen ∧ ∀ p < 2 ^ 32, p ≠ q →
      let h' := e.rd F.MGT_REQ_STAT_high 0 r
      (h' + 2 ^ 32 - p) % 2 ^ 32 < 64 → (h + 2 ^ 32 - p) % 2 ^ 32 < 64 → (p = h → (d.requester r).seen.getLsbD 0 = true) →
      e.seqClass r p = d.seqClass r p)) ∧
  (∀ (s : State) (who : Sender) (m : KxxMsg) (full fuseOk : Bool) (c : Instr) (k : Nat), let d := s.dev; let r := m.requester
    (c, k) ∈ ([(.registerReadRequest who m full, 1), (.registerWriteRequest who m full fuseOk, 2), (.hello who m full, 3),
      (.eventRetransmission who m full, 4), (.fileBegin who m full, 0x10), (.fileData who m full, 0x11), (.fileCommit who m full, 0x12),
      (.fileAbort who m full, 0x13), (.crozierIssue who m full, 0x20)] : List (Instr × Nat)) →
    d.mgmtUp who.port.val = true → d.takesWire who.port.val who.to_ = true → s.chip.failedCheck m k = none →
    (d.seqClass r m.seq = .seen → ∃ t, exec c s = .next t ∧ t.dev.mg.reqs = d.mg.reqs ∧
      (((d.requester r).cache.find? fun x => x.1 == m.seq) = none → Counted F.MGT_DROP_CNT_frames 0 9 s t) ∧
      t.dev.out = d.out ++ (match (d.requester r).cache.find? fun x => x.1 == m.seq with
        | some x => (match d.nextHop (netOf who.port.val) who.addr.toNat with
          | some via => [.dgram who.port.val (d.netId (netOf who.port.val)) who.addr.toNat who.udp.toNat via x.2]
          | none => [])
        | none => [])) ∧
    (d.seqClass r m.seq = .stale → ∃ t, exec c s = .next t ∧ t.dev.out = d.out ∧ t.dev.mg.reqs = d.mg.reqs)) ∧
  (∀ (d : Dev) (r q : Nat) (bytes : List Byte), ((d.cacheAnswer r q bytes).requester r).cache =
    ((q, bytes) :: (d.requester r).cache).take 16)

/-- HELLO with a new sequence that passes every check: one answer of kind 0x83, tagged under key_cur, leaves from the network's MAC and IPv4 address with its VLAN to the sender and is cached; the sequence is noted; its status is 1 with 32 requests waiting, else 0, or 2 with a payload. Only the requester's state and counters change. A new register read, register write, event retransmission or crozier issue that passes every check and finds no full queue is performed on the device that has noted its sequence, and its answer carries the status and payload of Table 14.1: a malformed operation list has status 2, an operation list its statuses and data in order, a retransmission the recorded events asked for, a crozier issue its one status word. In recovery mode a retransmission is refused with header status 4 and a crozier issue with status word 4. Every request of the nine kinds that finds 32 waiting is answered with status 1 and the busy status words of its kind, and nothing of it is performed. It rests also on readings that are the model's own: log 118, 120, 121, 123, 131, 184. Under hypotheses on the state and operands alone it concludes that exec answers a next state, and what that holds, for registerReadRequest, registerWriteRequest, hello, eventRetransmission, fileBegin, fileData, fileCommit, fileAbort, crozierIssue. (14_management_and_image.md, R338, R341, R344, R337, R342, R348, R358) -/
def Obligations.RequestsServed : Prop :=
  (∀ (s : State) (who : Sender) (m : KxxMsg) (full : Bool), let d := s.dev; let r := m.requester
    let st := if full then 1 else if m.payload.isEmpty then 0 else 2
    let bytes := s.chip.message 131 r m.seq st []
    d.mgmtUp who.port.val = true → d.takesWire who.port.val who.to_ = true → s.chip.failedCheck m 3 = none → d.seqClass r m.seq = .new → d.pw.restart = false →
    ∃ t, exec (.hello who m full) s = .next t ∧ t.dev.out = d.out ++ (match d.nextHop (netOf who.port.val) who.addr.toNat with
        | some via => [.dgram who.port.val (d.netId (netOf who.port.val)) who.addr.toNat who.udp.toNat via bytes]
        | none => []) ∧
      (t.dev.requester r).cache = ((m.seq, bytes) :: (d.requester r).cache).take 16 ∧ t.dev.seqClass r m.seq = .seen ∧
      (st = 0 → Counted F.MGT_REQ_STAT_accepted 0 r s t) ∧ t.dev.mg.xfer = d.mg.xfer ∧
      RegsKeptBut [.MGT_REQ_STAT, .CNT_VAL, .CNT_CTRL] s t ∧ KeepsBut [.regs, .out, .mgmt, .quiesced] s t) ∧
  (∀ (s : State) (who : Sender) (m : KxxMsg) (fuseOk : Bool), let r := m.requester
    let c := s.chip.on fun d => ((d.cnt ⟨2, 2⟩ 1).noteSeq r m.seq).cnt ⟨2, 1⟩ 1
    let ans := fun (k : Nat) (e : Chip) (st : Nat) (pay : List Byte) =>
      (Host.Outcome.next { s with chip := (e.answer c who m k st pay).settled } : Host.Outcome State Fault Refusal)
    let w := payWord m.payload 0
    s.dev.mgmtUp who.port.val = true → s.dev.takesWire who.port.val who.to_ = true → s.dev.seqClass r m.seq = .new →
    (∀ i k, (i, k) ∈ ([(.registerReadRequest who m true, 1), (.registerWriteRequest who m true fuseOk, 2), (.hello who m true, 3),
      (.eventRetransmission who m true, 4), (.fileBegin who m true, 0x10), (.fileData who m true, 0x11), (.fileCommit who m true, 0x12),
      (.fileAbort who m true, 0x13), (.crozierIssue who m true, 0x20)] : List (Instr × Nat)) → s.chip.failedCheck m k = none →
      exec i s = ans k c 1 (overload k m.payload)) ∧
    (s.chip.failedCheck m 1 = none →
      exec (.registerReadRequest who m false) s = (if opsOk 8 m.payload
        then ans 1 (readAll m.stop (payWords m.payload) false c).1 0 (wordsPay (readAll m.stop (payWords m.payload) false c).2)
        else ans 1 c 2 [])) ∧
    (s.chip.failedCheck m 2 = none →
      exec (.registerWriteRequest who m false fuseOk) s = (if opsOk 16 m.payload
        then let q := writeAll m.stop (m.slot == s.dev.keyCur) fuseOk (pairUp (payWords m.payload)) false c
          ans 2 q.1 0 (wordsPay q.2)
        else ans 2 c 2 [])) ∧
    (s.chip.failedCheck m 4 = none → s.dev.on F.SEC_STAT_recovery 0 0 = false → m.payload.length = 8 →
      1 ≤ fget w 5 0 → fget w 5 0 ≤ 32 → exec (.eventRetransmission who m false) s =
        ans 4 c 0 ((s.dev.recordsFrom (fget w 63 32) (fget w 5 0)).flatMap EvRec.bytes)) ∧
    (s.chip.failedCheck m 4 = none → (m.payload.length ≠ 8 ∨ fget w 5 0 = 0 ∨ 32 < fget w 5 0) →
      exec (.eventRetransmission who m false) s = ans 4 c 2 []) ∧
    (s.dev.on F.SEC_STAT_recovery 0 0 = true →
      (s.chip.failedCheck m 4 = none → m.payload.length = 8 → 1 ≤ fget w 5 0 → fget w 5 0 ≤ 32 →
        exec (.eventRetransmission who m false) s = ans 4 c 4 []) ∧
      (s.chip.failedCheck m 0x20 = none → exec (.crozierIssue who m false) s = ans 0x20 c 0 (wordBytes (wmk [(63, 56, 4)])))) ∧
    (s.chip.failedCheck m 0x20 = none → s.dev.on F.SEC_STAT_recovery 0 0 = false → 8 ≤ m.payload.length → m.payload.length ≤ 1400 →
      ∀ die, s.dev.issuer = some die →
      exec (.crozierIssue who m false) s = (if (s.dev.crzPorts die (fget w 63 58) (fget w 57 56)).isEmpty
        then ans 0x20 c 0 (wordBytes (wmk [(63, 56, 3)]))
        else ans 0x20 (c.on fun d => d.crzIssue die (fget w 63 58) (fget w 57 56) (fget w 55 24) (m.payload.drop 8)) 0
          (wordBytes (wmk [(63, 56, 0)])))))

/-- Reads and writes of a list are performed in order, each on the device the one before it left. With stop set, the first operation that returns status 1 to 5 makes every later one return status 6 without being performed, data 0 with a read; with stop clear none is left out while the hub runs. That nothing more is performed once a write has stopped the hub is the model's choice. An access outside every register returns status 4 and one of a die that does not run status 5, data 0, and nothing but the operation count changes; so does in recovery mode, with status 4, a write, and a read of a block that mode does not serve. A read of a register that the selector reaches returns status 0 and the shown word without its write-only bits, one that it does not reach 0 with status 0; either advances the selector of a data window. A write that a check turns down returns its status, and only the field that shows a refusal may change. The recal of an engine that tripped reaches its register (log 86). In a merged write every RW and RWS field takes the written value, every RW1C bit written 1 clears, and every RO field stays. It rests also on readings that are the model's own: log 36, 55, 86, 117, 135, 180. (14_management_and_image.md, R342, R345, 00_scope.md, 18_counters_and_telemetry.md, R9, R343, R430, R431) -/
def Obligations.RegisterOperations : Prop :=
  ((∀ (stop : Bool) (a : Word) (as : List Word) (c : Chip), let r := c.regRead a
    let stopped := stop = true ∧ 1 ≤ r.2.1 ∧ r.2.1 ≤ 5
    (stopped → readAll stop (a :: as) false c = (r.1, statusWord r.2.1 a :: r.2.2 :: as.flatMap fun b => [statusWord 6 b, 0])) ∧
    (¬ stopped → readAll stop (a :: as) false c =
      ((readAll stop as false r.1).1, statusWord r.2.1 a :: r.2.2 :: (readAll stop as false r.1).2))) ∧
  (∀ (stop cur fuseOk : Bool) (a w : Word) (as : List (Word × Word)) (c : Chip), c.dev.hubRuns = true →
    let r := c.regWrite a w cur fuseOk; let stopped := stop = true ∧ 1 ≤ r.2 ∧ r.2 ≤ 5
    (stopped → writeAll stop cur fuseOk ((a, w) :: as) false c = (r.1, statusWord r.2 a :: as.map fun b => statusWord 6 b.1)) ∧
    (¬ stopped → writeAll stop cur fuseOk ((a, w) :: as) false c =
      ((writeAll stop cur fuseOk as false r.1).1, statusWord r.2 a :: (writeAll stop cur fuseOk as false r.1).2)))) ∧
  ((∀ (c : Chip) (a w : Word) (cur fuseOk : Bool), let e := c.on Dev.countOp
    (decodeAddr a.toNat = none → c.regRead a = (e, 4, 0) ∧ c.regWrite a w cur fuseOk = (e, 4)) ∧
    (∀ x, decodeAddr a.toNat = some x →
      (c.dev.on F.SEC_STAT_recovery 0 0 = true → c.regWrite a w cur fuseOk = (e, 4) ∧
        (x.inRecovery = false → c.regRead a = (e, 4, 0))) ∧
      (c.dev.on F.SEC_STAT_recovery 0 0 = false ∨ x.inRecovery = true →
        (c.dev.available x = false → c.regRead a = (e, 5, 0)) ∧
        (c.dev.available x = true → c.regRead a = (e.on fun d => d.readAdvance x, 0,
          if e.dev.selects x = true then e.showReg x (e.dev.selIdx x) &&& x.reg.readMask else 0))) ∧
      (c.dev.on F.SEC_STAT_recovery 0 0 = false →
        (c.dev.writeReaches x w = false → c.regWrite a w cur fuseOk = (e, 5)) ∧
        (c.dev.writeReaches x w = true →
          let st := e.dev.writeStatus x (e.dev.rdw x.reg x.unit (e.dev.selIdx x)) w
          st ≠ 0 → c.regWrite a w cur fuseOk = (e.on fun d => d.refuse x w st, st))))) ∧
  (∀ (r : Reg) (f : FieldSpec) (old new : Word), f ∈ r.layout →
    fget (mergeWord old new r.layout) f.hi f.lo = (match f.acc with
      | .RW | .RWS => fget new f.hi f.lo
      | .RW1C => fget (old &&& ~~~new) f.hi f.lo
      | _ => fget old f.hi f.lo)))

/-- Each file message that passes every check is answered with one status word, and its answer leaves, is cached and counts as an accepted request. FILE_BEGIN within its limits with no transfer open opens one, status 0; otherwise it is refused with the status of beginStatus, which is 1 while a transfer is open and 4 in recovery mode but for firmware; a malformed one with 3. FILE_DATA that fits stores the block at its place, status 0, with the injected errors that meet its words (log 181); with no transfer it has status 3, while the file is verified 1, and a block that does not fit 3. FILE_COMMIT with every byte present starts the verification, status 0; with no transfer or a byte missing it has status 3, while verifying 1. FILE_ABORT ends the transfer with result 10, status 0; with none open it has status 3. FILE_TRANSFER_TIMEOUT ends one with result 9. Each end is recorded and raised. It rests also on readings that are the model's own: log 123, 125, 126, 127, 181. Under hypotheses on the state and operands alone it concludes that exec answers a next state, and what that holds, for fileBegin, fileData, fileCommit, fileAbort, fileTransferTimeout. (14_management_and_image.md, R351, R352) -/
def Obligations.FileTransfers : Prop :=
  ∀ (s : State) (who : Sender) (m : KxxMsg), let d := s.dev; let r := m.requester
    let kept := fun (t : State) => t.dev.seqClass r m.seq = .seen ∧
      RegsKeptBut [.MGT_FILE_STAT, .MGT_REQ_STAT, .CNT_VAL, .CNT_CTRL, .HUB_INJ_CTRL, .HUB_INJ_STAT] s t ∧
      KeepsBut [.regs, .out, .ev, .mgmt, .freeCtr, .quiesced] s t
    let answers := fun (i : Instr) (kind status : Nat) (t : State) =>
      let bytes := s.chip.message (128 + kind) r m.seq 0 (wordBytes (wmk [(63, 56, status)]))
      exec i s = .next t ∧ kept t ∧
      t.dev.out = d.out ++ (match d.nextHop (netOf who.port.val) who.addr.toNat with
        | some via => [.dgram who.port.val (d.netId (netOf who.port.val)) who.addr.toNat who.udp.toNat via bytes]
        | none => []) ∧
      (t.dev.requester r).cache = ((m.seq, bytes) :: (d.requester r).cache).take 16 ∧ Counted F.MGT_REQ_STAT_accepted 0 r s t
    let refused := fun (i : Instr) (kind status : Nat) => ∃ t, answers i kind status t ∧ t.dev.mg.xfer = d.mg.xfer ∧
      t.dev.rdw .MGT_FILE_STAT 0 0 = d.rdw .MGT_FILE_STAT 0 0 ∧ t.dev.ev = d.ev
    let f0 := payWord m.payload 0
    (d.mgmtUp who.port.val = true → d.takesWire who.port.val who.to_ = true → d.seqClass r m.seq = .new → d.pw.restart = false →
      (s.chip.failedCheck m 0x10 = none →
        (m.payload.length ≠ 16 → refused (.fileBegin who m false) 0x10 3) ∧
        (m.payload.length = 16 →
          let total := (payWord m.payload 1).toNat; let st := d.beginStatus (fget f0 63 56) (fget f0 55 48) total
          (d.mg.xfer.isSome = true → d.on F.SEC_STAT_recovery 0 0 = false → st = 1) ∧
          (d.on F.SEC_STAT_recovery 0 0 = true → fget f0 63 56 ≠ 1 → st = 4) ∧
          (st = 0 → ∃ t, answers (.fileBegin who m false) 0x10 0 t ∧ t.dev.ev = d.ev ∧
            t.dev.mg.xfer = some ⟨fget f0 63 56, fget f0 55 48, total, [], [], false⟩ ∧ t.dev.rd F.MGT_FILE_STAT_state 0 0 = 1) ∧
          (st ≠ 0 → refused (.fileBegin who m false) 0x10 st))) ∧
      (s.chip.failedCheck m 0x11 = none →
        (d.mg.xfer = none → refused (.fileData who m false) 0x11 3) ∧
        (∀ x, d.mg.xfer = some x →
          (x.verifying = true → refused (.fileData who m false) 0x11 1) ∧
          (x.verifying = false → (m.payload.length < 8 ∨ x.fits f0.toNat (m.payload.length - 8) = false) →
            refused (.fileData who m false) 0x11 3) ∧
          (x.verifying = false → 8 ≤ m.payload.length → x.fits f0.toNat (m.payload.length - 8) = true →
            let bs := m.payload.drop 8; let hit := (d.injectHit 8 0 ((bs.length + 63) / 64)).2
            ∃ t y, answers (.fileData who m false) 0x11 0 t ∧ t.dev.mg.xfer = some y ∧ t.dev.ev = d.ev ∧
              y = { x with
                data := smInsert x.data (f0.toNat / 1408) (if hit.1 = 2 then (List.range bs.length).map (fun i =>
                  if i < 64 * hit.2 then bs.getD i 0 ^^^ Config.stagedError d.freeCtr i else bs.getD i 0) else bs),
                flips := if hit.1 = 1 then smInsert x.flips (f0.toNat / 1408) hit.2 else smErase x.flips (f0.toNat / 1408) } ∧
              t.dev.rd F.MGT_FILE_STAT_bytes 0 0 = y.bytes % 4294967296))) ∧
      (s.chip.failedCheck m 0x12 = none →
        (d.mg.xfer = none → refused (.fileCommit who m false) 0x12 3) ∧
        (∀ x, d.mg.xfer = some x →
          (x.verifying = true → refused (.fileCommit who m false) 0x12 1) ∧
          (x.verifying = false → m.payload ≠ [] ∨ x.bytes ≠ x.total → refused (.fileCommit who m false) 0x12 3) ∧
          (x.verifying = false → m.payload = [] → x.bytes = x.total → ∃ t, answers (.fileCommit who m false) 0x12 0 t ∧
            t.dev.mg.xfer = some { x with verifying := true } ∧ t.dev.ev = d.ev ∧ t.dev.rd F.MGT_FILE_STAT_state 0 0 = 2))) ∧
      (s.chip.failedCheck m 0x13 = none →
        (d.mg.xfer = none ∨ m.payload ≠ [] → refused (.fileAbort who m false) 0x13 3) ∧
        (m.payload = [] → d.mg.xfer.isSome = true → ∃ t, answers (.fileAbort who m false) 0x13 0 t ∧ t.dev.mg.xfer = none ∧
          t.dev.rd F.MGT_FILE_STAT_state 0 0 = 0 ∧ t.dev.rd F.MGT_FILE_STAT_last 0 0 = 10 ∧
          t.dev.ev.seq = (d.ev.seq + 1) % 4294967296))) ∧
    (∀ x, d.mg.xfer = some x →
      (x.verifying = false → ∃ t, exec .fileTransferTimeout s = .next t ∧ t.dev.mg.xfer = none ∧
        t.dev.rd F.MGT_FILE_STAT_state 0 0 = 0 ∧ t.dev.rd F.MGT_FILE_STAT_last 0 0 = 9 ∧
        RegsKeptBut [.MGT_FILE_STAT] s t ∧ KeepsBut [.regs, .ev, .mgmt, .quiesced] s t) ∧
      (x.verifying = true → ∃ t, exec .fileTransferTimeout s = .next t ∧ KeepsBut [.quiesced] s t))

/-- FILE_VERIFY_DONE: a file that fails a check of R368 (its block, the fused digests of its keys, its body's digest, its RSA and SLH-DSA signatures, all computed from its bytes) is refused with result 2, SEC code 1, 2 or 3 by its type and MGT code 1 logged, its transfer left open, and flash and fuses unchanged; flash that fails has result 8 and MGT code 2. Accepted firmware at or above the rollback value stands staged in the inactive slot; below it, result 3, SEC code 4 and no write. A calibration file for this device rewrites all 22 sections with factory values; for another, result 11 and SEC code 3. A full image that breaks a rule has result 4; an accepted one is staged in the inactive slot and, without an activation, changes nothing else of the configuration; one whose sections lack their digests has result 4. A region image that a rule of R356 refuses has that result, with MGT code 7 where a block is not quiesced, else 1; an accepted one is appended to the region log and the configuration digest follows it. It rests also on readings that are the model's own: log 16, 20, 21, 128, 130, 173, 200. Under hypotheses on the state and operands alone it concludes that exec answers a next state, and what that holds, for fileVerifyDone. (14_management_and_image.md, 15_security.md, R244, R353, R354, R355, R356, R357, R367, R368, R370) -/
def Obligations.VerificationResults : Prop :=
  ∀ (s : State) (x : Xfer) (v : VerifyIn), let c := s.chip; let f := c.flash
    c.dev.mg.xfer = some x → x.verifying = true → c.dev.hubRuns = true →
    let good := (c.fuses.check x.kind x.file).ok = true
    let ver := sigVersion (sigBlock x.file)
    let refusedBy := fun (sec err n : Nat) => ∃ t, exec (.fileVerifyDone v) s = .next t ∧ t.dev.mg.xfer = some { x with verifying := false } ∧
      t.dev.rd F.MGT_FILE_STAT_last 0 0 = n ∧ t.dev.rd F.MGT_FILE_STAT_state 0 0 = 1 ∧ Logged .MGT 0 err s t ∧
      (sec ≠ 0 → Logged .SEC 0 sec s t) ∧ RegsKeptBut (.MGT_FILE_STAT :: loggingRegs) s t ∧ KeepsBut [.regs, .ev, .mgmt, .quiesced] s t
    let refused := refusedBy 0 1
    let accepted := fun (t : State) => exec (.fileVerifyDone v) s = .next t ∧ t.dev.mg.xfer = none ∧
      t.dev.rd F.MGT_FILE_STAT_last 0 0 = 1 ∧ t.dev.rd F.MGT_FILE_STAT_state 0 0 = 0 ∧
      RegsKeptBut (.MGT_FILE_STAT :: .MGT_IMG_STAT :: loggingRegs) s t ∧ KeepsBut [.flash, .regs, .ev, .mgmt, .quiesced] s t
    (¬ good → refusedBy (if x.kind = 1 then 1 else if x.kind = 4 then 3 else 2) 1 2) ∧
    (good → x.kind = 1 →
      (ver < c.fuses.rollback → refusedBy 4 1 3) ∧ (c.fuses.rollback ≤ ver → v.flashOk = false → refusedBy 0 2 8) ∧
      (c.fuses.rollback ≤ ver → v.flashOk = true → c.dev.on F.SEC_STAT_recovery 0 0 = false → ∃ t, accepted t ∧
        t.chip.flash = { f with fw := smInsert f.fw (1 - f.fwActive) ⟨x.file⟩, fwStaged := true })) ∧
    (good → x.kind = 2 ∨ x.kind = 3 → ∀ img, v.body = .image img → img.digestsOk (fileBody x.file) = false → refused 4) ∧
    (good → x.kind = 3 → ∀ img, v.body = .image img → img.digestsOk (fileBody x.file) = true →
      let c2 := c.on fun d => d.cnt ⟨2, 2⟩ 2
      (c2.regionResult img ≠ 0 → refusedBy 0 (if c2.regionResult img = 6 then 7 else 1) (c2.regionResult img)) ∧
      (c2.regionResult img = 0 → v.flashOk = false → refusedBy 0 2 8) ∧
      (c2.regionResult img = 0 → v.flashOk = true → ∃ t e, exec (.fileVerifyDone v) s = .next t ∧ c2.dev.applyRegion img = some e ∧
        t.chip.flash = { f with log := f.log ++ [⟨img, x.file⟩] } ∧
        t.dev.cfg.digest = sha384 (e.cfg.digest ++ sha384 x.file) ∧ t.dev.rd F.MGT_IMG_STAT_regions 0 0 = f.log.length + 1 ∧
        t.dev.rd F.MGT_FILE_STAT_last 0 0 = 1)) ∧
    (good → x.kind = 2 → ∀ img, v.body = .image img → img.digestsOk (fileBody x.file) = true →
      ((Dev.fresh0.loadImage img (sha384 x.file) c.fuses.steppings).isNone = true → refused 4) ∧
      ((Dev.fresh0.loadImage img (sha384 x.file) c.fuses.steppings).isSome = true → v.flashOk = false → refusedBy 0 2 8) ∧
      ((Dev.fresh0.loadImage img (sha384 x.file) c.fuses.steppings).isSome = true → v.flashOk = true → x.activate = 0 → ∃ t, accepted t ∧
        t.chip.flash = { f with img := smInsert f.img (1 - f.imgActive) ⟨img, x.file⟩, imgStaged := true } ∧
        t.dev.on F.MGT_IMG_STAT_staged 0 0 = true)) ∧
    (good → x.kind = 4 → ∀ secs, v.body = .calibration secs →
      (sigSerial (sigBlock x.file) ≠ c.fuses.serial → refusedBy 3 1 11) ∧
      (sigSerial (sigBlock x.file) = c.fuses.serial → v.flashOk = false → refusedBy 0 2 8) ∧
      (sigSerial (sigBlock x.file) = c.fuses.serial → v.flashOk = true → ∃ t, accepted t ∧
        ∀ i < 22, smFind t.chip.flash.cal i = some ⟨true, false, 0, secs.getD i []⟩))

/-- MANAGEMENT_PORT_LINK sets the port's bit alone. ARP_REQUEST for the network's address is answered on its port with the network's MAC and IPv4 address, any other not; one of another VLAN is dropped under reason 0. MANAGEMENT_FRAME_DISCARD counts the frame under its reason. EVENT_MESSAGE_SEND takes up to 32 waiting records, oldest first, and sends them in one message to every enabled destination that its network reaches. BLOCK_QUIESCED makes a block with quiesce set and nothing left report quiesced, and no other. QUOTE_DONE while a quote is running: the identity keys' signatures over the SHA-384 of its bytes 0 to 351 stand with it and it is ready with status 0 (log 200); a failure leaves nothing of it, status 2 and SEC code 6. With none running it does nothing, which is the model's choice (log 152). DEBUG_ACCESS_ATTEMPT counts one attempt and logs SEC code 5; while the hub is in reset the count waits. It rests also on readings that are the model's own: log 122, 123, 133, 149, 152, 200. Under hypotheses on the state and operands alone it concludes that exec answers a next state, and what that holds, for arpRequest, managementFrameDiscard, eventMessageSend, blockQuiesced, quoteDone, debugAccessAttempt, managementPortLink. (14_management_and_image.md, R334, R335, R336, R347, R349, 15_security.md, R374, R378, Table 15.6) -/
def Obligations.ManagementEvents : Prop :=
  (∀ (s : State), let d := s.dev
    (∀ (p : MgmtPort) (up : Bool), d.hubRuns = true → d.on F.SEC_STAT_recovery 0 0 = false ∨ p.val = 0 ∨ p.val = 4 →
      ∃ t, exec (.managementPortLink p up) s = .next t ∧ (∀ q : MgmtPort, t.dev.mgmtUp q.val = if q = p then up else d.mgmtUp q.val) ∧
        RegsKeptBut [.MGT_PORT_STAT] s t ∧ KeepsBut [.regs, .quiesced] s t) ∧
    (∀ (p : MgmtPort) (addr : BitVec 32) (vid : BitVec 12), let own := d.netId (netOf p.val)
      (d.mgmtUp p.val = true → own.vid ≠ vid.toNat → ∃ t, exec (.arpRequest p ⟨addr, vid⟩) s = .next t ∧
        Counted F.MGT_DROP_CNT_frames 0 0 s t ∧ RegsKeptBut [.MGT_DROP_CNT, .CNT_VAL, .CNT_CTRL] s t ∧
        KeepsBut [.regs, .quiesced] s t) ∧
      (d.mgmtUp p.val = false ∨ own.vid = vid.toNat → ∃ t, exec (.arpRequest p ⟨addr, vid⟩) s = .next t ∧
        t.dev.out = d.out ++ (if d.mgmtUp p.val = true ∧ own.addr = addr.toNat then [.arp p.val own] else []) ∧
        KeepsBut [.out, .quiesced] s t)) ∧
    (∀ (p : MgmtPort) (f : MgmtFrame) (k : Nat), d.mgmtUp p.val = true → d.mgmtReason p.val f = some k →
      ∃ t, exec (.managementFrameDiscard p f) s = .next t ∧ Counted F.MGT_DROP_CNT_frames 0 k s t ∧
        RegsKeptBut [.MGT_DROP_CNT, .CNT_VAL, .CNT_CTRL] s t ∧ KeepsBut [.regs, .quiesced] s t) ∧
    (d.hubRuns = true → d.ev.waiting ≠ [] → ∃ t, exec .eventMessageSend s = .next t ∧
      t.dev.ev = { d.ev with waiting := d.ev.waiting.drop 32 } ∧
      (let bytes := s.chip.message 5 0 (fget (d.ev.waiting.headD ⟨0, 0, 0, 0⟩).e0 63 32) 0 ((d.ev.waiting.take 32).flatMap EvRec.bytes)
      t.dev.out = d.out ++ ((List.range 8).filter fun i => d.on F.MGT_EVT_DEST_enable 0 i).flatMap fun i =>
        match d.lowestUp (i / 4) with
        | none => []
        | some p => match d.nextHop (i / 4) (d.rd F.MGT_EVT_DEST_addr 0 i) with
          | some via => [.dgram p (d.netId (i / 4)) (d.rd F.MGT_EVT_DEST_addr 0 i) (d.rd F.MGT_EVT_DEST_port 0 i) via bytes]
          | none => []) ∧
      RegsKeptBut [.CNT_VAL, .CNT_CTRL] s t ∧ KeepsBut [.regs, .ev, .out, .quiesced] s t) ∧
    (∀ b : JobBlock, d.hubRuns = true → d.mg.quiesced = d.stillQuiesced → ∃ t, exec (.blockQuiesced b) s = .next t ∧
      (∀ a < 64, t.dev.mg.quiesced.getLsbD a = (d.mg.quiesced.getLsbD a ||
        (decide (a = b.val) && d.on F.MGT_BLK_CTRL_quiesce 0 a && d.blockEmpty a))) ∧ KeepsBut [.quiesced] s t)) ∧
  (∀ (s : State), let d := s.dev
    (∀ (ok : Bool) (rand : List Byte),
      (d.on F.SEC_QUOTE_CMD_busy 0 0 = true → ∃ t, exec (.quoteDone ok rand) s = .next t ∧ t.dev.on F.SEC_QUOTE_CMD_busy 0 0 = false ∧
        t.dev.rd F.SEC_QUOTE_CMD_status 0 0 = (if ok then 0 else 2) ∧
        t.dev.se = { d.se with quote := if ok then d.se.quote else [], sigs := if ok then s.chip.fuses.identity.quoteSigs d.se.quote rand else [] } ∧
        (ok = true → RegsKeptBut [.SEC_QUOTE_CMD] s t ∧ KeepsBut [.regs, .se, .quiesced] s t) ∧
        (ok = false → Logged .SEC 0 6 s t) ∧
        RegsKeptBut (.SEC_QUOTE_CMD :: loggingRegs) s t ∧ KeepsBut [.regs, .ev, .se, .quiesced] s t) ∧
      (d.on F.SEC_QUOTE_CMD_busy 0 0 = false → ∃ t, exec (.quoteDone ok rand) s = .next t ∧ KeepsBut [.quiesced] s t)) ∧
    (d.hubRuns = true → ∃ t, exec .debugAccessAttempt s = .next t ∧ Counted F.SEC_STAT_debug_tries 0 0 s t ∧
      Logged .SEC 0 5 s t ∧ t.dev.out = d.out ∧
      RegsKeptBut (.SEC_STAT :: loggingRegs) s t ∧ KeepsBut [.regs, .ev, .quiesced] s t) ∧
    (d.hubRuns = false → ∃ t, exec .debugAccessAttempt s = .next t ∧ t.dev.se = { d.se with waiting := d.se.waiting + 1 } ∧
      KeepsBut [.se, .quiesced] s t))

/-- In a stage: STAGE_BEACON_TIMEOUT makes a device that is not controller and has a priority claim with the next epoch, flooded on every link; STAGE_CLAIM_WON makes the claimer controller and raises the change; STAGE_BEACON_SEND floods the controller's beacon. A claim or beacon not seen before is relayed to the other links; one with a higher key makes the device a follower of its origin, any other leaves its role. A message seen before changes nothing. A controller that a higher beacon deposes logs MGT code 4. That a controller, which hears no beacon of its own, ignores STAGE_BEACON_TIMEOUT, and a device of priority 0 with it, is the model's guard (log 152). It rests also on readings that are the model's own: log 142, 152. Under hypotheses on the state and operands alone it concludes that exec answers a next state, and what that holds, for stageClaimReceive, stageBeaconReceive, stageBeaconTimeout, stageClaimWon, stageBeaconSend. (14_management_and_image.md, R359, R360) -/
def Obligations.StageElection : Prop :=
  ∀ (s : State), let d := s.dev; let me := d.stagePos; let p := d.cfg.stage.prio
    let sent := fun (l : Nat) (b : StageBody) => Output.side l ⟨me, d.st.nextSeq, b⟩
    d.inStage = true →
    (d.role ≠ 2 → p ≠ 0 → ∃ t, exec .stageBeaconTimeout s = .next t ∧ t.dev.role = 3 ∧ t.dev.st.epochSeen = d.st.epochSeen + 1 ∧
      t.dev.st.key = (d.st.epochSeen + 1, p, 15 - me) ∧
      t.dev.out = d.out ++ d.sideLinks.map (fun l => sent l (.claim (d.st.epochSeen + 1) p)) ∧
      RegsKeptBut [.MGT_STAGE_STAT] s t ∧ KeepsBut [.regs, .out, .st, .quiesced] s t) ∧
    (d.role = 2 ∨ p = 0 → ∃ t, exec .stageBeaconTimeout s = .next t ∧ KeepsBut [.quiesced] s t) ∧
    (d.role = 3 → ∃ t, exec .stageClaimWon s = .next t ∧ t.dev.role = 2 ∧ t.dev.rd F.MGT_STAGE_STAT_controller 0 0 = me % 16 ∧
      t.dev.rd F.MGT_STAGE_STAT_epoch 0 0 = d.st.key.1 % 65536 ∧ t.dev.ev.seq = (d.ev.seq + 1) % 4294967296 ∧
      RegsKeptBut [.MGT_STAGE_STAT] s t ∧ KeepsBut [.regs, .ev, .quiesced] s t) ∧
    (d.role = 2 → ∃ t, exec .stageBeaconSend s = .next t ∧
      t.dev.out = d.out ++ d.sideLinks.map (fun l => sent l (.beacon d.st.key.1 d.st.key.2.1)) ∧
      t.dev.st.nextSeq = d.st.nextSeq + 1 ∧ KeepsBut [.out, .st, .quiesced] s t) ∧
    (∀ (link : SideLink) (origin : StagePos) (seq : BitVec 32) (epoch : BitVec 16) (prio : BitVec 8) (beacon : Bool),
      let m : StageMsg := ⟨origin.val, seq.toNat, if beacon then .beacon epoch.toNat prio.toNat else .claim epoch.toNat prio.toNat⟩
      let c : Instr := if beacon then .stageBeaconReceive link origin seq epoch prio else .stageClaimReceive link origin seq epoch prio
      let key := (epoch.toNat, prio.toNat, 15 - origin.val)
      (origin.val = me ∨ d.msgSeen m = true → ∃ t, exec c s = .next t ∧ KeepsBut [.quiesced] s t) ∧
      (origin.val ≠ me → d.msgSeen m = false → ∃ t, exec c s = .next t ∧ t.dev.msgSeen m = true ∧
        t.dev.out = d.out ++ (d.sideLinks.filter (· != link.val)).map (fun l => Output.side l m) ∧
        t.dev.st.epochSeen = Nat.max d.st.epochSeen epoch.toNat ∧ t.dev.st.key = d.st.key ∧
        (keyAbove key d.st.key = true → t.dev.role = 1 ∧ t.dev.rd F.MGT_STAGE_STAT_controller 0 0 = origin.val ∧
          t.dev.rd F.MGT_STAGE_STAT_epoch 0 0 = epoch.toNat ∧
          (d.role = 2 → beacon = true → Logged .MGT 0 4 s t) ∧
          (d.role = 2 → t.dev.ev.history.head?.map EvRec.e2 = some (t.dev.rdw .MGT_STAGE_STAT 0 0))) ∧
        (keyAbove key d.st.key = false → t.dev.role = d.role ∧ KeepsBut [.out, .st, .quiesced] s t) ∧
        RegsKeptBut (.MGT_STAGE_STAT :: loggingRegs) s t ∧ KeepsBut [.regs, .ev, .out, .st, .quiesced] s t))

/-- STAGE_STATUS_SEND floods the status. STAGE_STATUS_RECEIVE of a message not seen before stores the peer's status, shows its bit and relays it; a device that is no controller does nothing more than end the wait for the sites it commanded; a controller logs MGT code 8 once for a peer whose section 12 differs. STAGE_PEER_LOST forgets a peer and clears its bit; a controller raises a record. SIDEBAND_SILENT logs MGT code 9. It rests also on readings that are the model's own: log 142. Under hypotheses on the state and operands alone it concludes that exec answers a next state, and what that holds, for stageStatusSend, stageStatusReceive, stagePeerLost, sidebandSilent. (14_management_and_image.md, R359, R364, Table 14.13) -/
def Obligations.StagePeers : Prop :=
  ∀ (s : State), let d := s.dev; let me := d.stagePos
    d.inStage = true →
    (∃ t st, exec .stageStatusSend s = .next t ∧
      t.dev.out = d.out ++ d.sideLinks.map (fun l => Output.side l ⟨me, d.st.nextSeq, .status st⟩) ∧
      st.digest = d.cfg.stage.digest ∧ st.therm = d.rdw .HUB_THERM_STAT 0 0 ∧ st.serial = d.rd F.HUB_ID_serial 0 0 ∧
      KeepsBut [.out, .st, .quiesced] s t) ∧
    (∀ (link : SideLink) (origin : StagePos) (seq : BitVec 32) (st : StageStat),
      let m : StageMsg := ⟨origin.val, seq.toNat, .status st⟩
      origin.val ≠ me → d.msgSeen m = false → ∃ t, exec (.stageStatusReceive link origin seq st) s = .next t ∧
        smFind t.dev.st.peers origin.val = some st ∧ t.dev.msgSeen m = true ∧
        (∀ i < 16, wbit (t.dev.rdw .MGT_STAGE_STAT 0 0) i = (wbit (d.rdw .MGT_STAGE_STAT 0 0) i || decide (i = origin.val))) ∧
        t.dev.out = d.out ++ (d.sideLinks.filter (· != link.val)).map (fun l => Output.side l m) ∧ t.dev.role = d.role ∧
        (d.role ≠ 2 → RegsKeptBut [.MGT_STAGE_STAT] s t ∧ KeepsBut [.regs, .out, .st, .quiesced] s t) ∧
        (d.role = 2 → st.digest ≠ d.cfg.stage.digest → origin.val ∈ t.dev.st.mismatched ∧
          (origin.val ∉ d.st.mismatched → Logged .MGT 0 8 s t)) ∧
        (d.role = 2 → st.digest = d.cfg.stage.digest → origin.val ∉ t.dev.st.mismatched) ∧
        RegsKeptBut (.MGT_STAGE_STAT :: loggingRegs) s t ∧ KeepsBut [.regs, .ev, .out, .st, .quiesced] s t) ∧
    (∀ (pos : StagePos) (st : StageStat), smFind d.st.peers pos.val = some st →
      ∃ t, exec (.stagePeerLost pos) s = .next t ∧ smFind t.dev.st.peers pos.val = none ∧
        (∀ i < 16, wbit (t.dev.rdw .MGT_STAGE_STAT 0 0) i = (wbit (d.rdw .MGT_STAGE_STAT 0 0) i && decide (i ≠ pos.val))) ∧
        (d.role = 2 → t.dev.ev.seq = (d.ev.seq + 1) % 4294967296) ∧ (d.role ≠ 2 → t.dev.ev = d.ev) ∧
        RegsKeptBut [.MGT_STAGE_STAT] s t ∧ KeepsBut [.regs, .ev, .st, .quiesced] s t) ∧
    (∀ link : SideLink, ∃ t, exec (.sidebandSilent link) s = .next t ∧ Logged .MGT 0 9 s t ∧
      RegsKeptBut loggingRegs s t ∧ KeepsBut [.regs, .ev, .quiesced] s t)

/-- In a stage: CARTRIDGE_BRING_UP of an own site that shows no cartridge shows one, present and unpowered; of one that waits it drives the enable, on a controller 50 ms after the last and in the order of position and site, on a follower as the controller commands; a controller whose turn a peer's site is floods that enable. CARTRIDGE_IDENTITY_READ assigns the I3C address, reads bytes 0 to 127 and keeps them, and shows the part code and whether the CRC-32C holds. CARTRIDGE_CHECK ends in service, refused or without an answer as the record fits the image, and a site that is not in service loses its enable; the controller alone logs codes 5 and 6, and floods the result of a site of a peer that it manages, while the peer's status shows the site powering; that result is reported with the site's status as E3. CARTRIDGE_REMOVAL clears the site's status. CARTRIDGE_TEMPERATURE_POLL reads and shows the temperature of a site that has its address and reports it once while it is over the limit, 70 °C where the image gives none; of a peer's site it reports the same while the peer's status shows it powered and its section 12 agrees. It rests also on readings that are the model's own: log 143, 144, 145, 197. Under hypotheses on the state and operands alone it concludes that exec answers a next state, and what that holds, for cartridgeBringUp, cartridgeIdentityRead, cartridgeCheck, cartridgeRemoval, cartridgeTemperaturePoll. (14_management_and_image.md, R361, R362, R363, R364) -/
def Obligations.Cartridges : Prop :=
  ∀ (s : State) (site : SiteId), let d := s.dev; let i := site.val; let me := d.stagePos
    let flooded := fun (n : Nat) (b : StageBody) => d.sideLinks.map fun l => Output.side l ⟨me, n, b⟩
    d.inStage = true →
    (∀ (pos : StagePos) (sc : SiteCfg), pos.val = me → d.siteCfg me i = some sc →
      (d.on F.MGT_CART_STAT_present 0 i = false → ∃ t, exec (.cartridgeBringUp pos site) s = .next t ∧
        t.dev.on F.MGT_CART_STAT_present 0 i = true ∧ t.dev.rd F.MGT_CART_STAT_state 0 i = 1 ∧
        t.dev.on F.MGT_CART_STAT_enable 0 i = d.on F.MGT_CART_STAT_enable 0 i ∧
        RegsKeptBut [.MGT_CART_STAT] s t ∧ KeepsBut [.regs, .quiesced] s t) ∧
      (d.on F.MGT_CART_STAT_present 0 i = true →
        let turn := (∀ u, d.st.lastStart = some u → u + 7812500 ≤ d.tick) ∧ d.nextSite = some (me * 8 + i)
        ((d.role = 2 ∧ turn) ∨ (d.role = 1 ∧ d.rd F.MGT_CART_STAT_state 0 i = 1) →
          ∃ t, exec (.cartridgeBringUp pos site) s = .next t ∧ t.dev.on F.MGT_CART_STAT_enable 0 i = true ∧
            t.dev.on F.MGT_CART_STAT_present 0 i = true ∧ t.dev.rd F.MGT_CART_STAT_state 0 i = 2 ∧
            t.dev.st.lastStart = (if d.role = 2 then some d.tick else d.st.lastStart) ∧
            smFind t.dev.st.ident i = none ∧ i ∉ t.dev.st.dynamic ∧
            RegsKeptBut [.MGT_CART_STAT] s t ∧ KeepsBut [.regs, .st, .quiesced] s t) ∧
        (d.role = 2 → ¬ turn → ∃ t, exec (.cartridgeBringUp pos site) s = .next t ∧ KeepsBut [.quiesced] s t)) ∧
      (∀ answer : List Byte, d.role ≠ 3 → d.rd F.MGT_CART_STAT_state 0 i = 2 → sc.ports = [] →
        let found := smFind d.st.ident i
        let fits := fun (bs : List Byte) => identCrc bs = true ∧ identPart bs = sc.part ∧ identLoss bs ≤ sc.maxLoss
        ∃ t, exec (.cartridgeCheck pos site answer) s = .next t ∧
          (∀ bs, found = some bs → fits bs → t.dev.rd F.MGT_CART_STAT_state 0 i = 3 ∧
            t.dev.on F.MGT_CART_STAT_enable 0 i = d.on F.MGT_CART_STAT_enable 0 i) ∧
          (∀ bs, found = some bs → ¬ fits bs → t.dev.rd F.MGT_CART_STAT_state 0 i = 4 ∧ t.dev.on F.MGT_CART_STAT_enable 0 i = false ∧
            i ∉ t.dev.st.dynamic ∧ (d.role = 2 → Logged .MGT 0 5 s t)) ∧
          (found = none → t.dev.rd F.MGT_CART_STAT_state 0 i = 5 ∧ t.dev.on F.MGT_CART_STAT_enable 0 i = false ∧
            i ∉ t.dev.st.dynamic ∧ (d.role = 2 → Logged .MGT 0 6 s t)) ∧
          (d.role ≠ 2 → RegsKeptBut [.MGT_CART_STAT] s t ∧ KeepsBut [.regs, .st, .quiesced] s t) ∧
          RegsKeptBut (.MGT_CART_STAT :: loggingRegs) s t ∧ KeepsBut [.regs, .ev, .st, .quiesced] s t) ∧
      (∀ (answer bs : List Byte), d.role ≠ 3 → d.rd F.MGT_CART_STAT_state 0 i = 2 → (∀ p ∈ sc.ports, p < 1024 ∧ d.portWidth p ≤ 8) →
        smFind d.st.ident i = some bs → identCrc bs = true → identPart bs = sc.part → identLoss bs ≤ sc.maxLoss →
        ∃ t, exec (.cartridgeCheck pos site answer) s = .next t ∧ t.dev.rd F.MGT_CART_STAT_state 0 i = 3 ∧
          ∀ p ∈ sc.ports, d.isPort p = true → t.dev.prd F.LANE_PORT_CTRL_hold p = 0)) ∧
    (∀ (pos : StagePos) (sc : SiteCfg), pos.val ≠ me → d.role = 2 → d.siteCfg pos.val i = some sc →
      ((∀ u, d.st.lastStart = some u → u + 7812500 ≤ d.tick) → d.nextSite = some (pos.val * 8 + i) →
        ∃ t, exec (.cartridgeBringUp pos site) s = .next t ∧ t.dev.out = d.out ++ flooded d.st.nextSeq (.enable pos.val i true) ∧
          t.dev.st.started = d.st.started ++ [pos.val * 8 + i] ∧ t.dev.st.lastStart = some d.tick ∧
          KeepsBut [.out, .st, .quiesced] s t) ∧
      (∀ answer : List Byte, d.manages pos.val = true → (d.peerSite pos.val i).state = 2 →
        let n := checkState sc (if answer.isEmpty then none else some answer); let q := d.st.nextSeq
        ∃ t, exec (.cartridgeCheck pos site answer) s = .next t ∧
          t.dev.out = d.out ++ (if n = 3 then flooded q (.result pos.val i 3)
            else flooded q (.enable pos.val i false) ++ flooded (q + 1) (.result pos.val i n)) ∧
          (n ≠ 3 → Logged .MGT 0 (n + 1) s t) ∧ (n = 3 → t.dev.ev.seq = (d.ev.seq + 1) % 4294967296) ∧
          (∃ w, smFind t.dev.st.checked (pos.val * 8 + i) = some w ∧ t.dev.ev.history.head?.map EvRec.e3 = some w ∧
            wbit w 63 = (d.peerSite pos.val i).present ∧ wbit w 62 = decide (n = 3) ∧ wbit w 61 = identCrc answer ∧ fget w 60 58 = n ∧
            fget w 39 24 = identPart answer ∧ (identLoss answer % 20 = 0 → fget w 23 16 = Nat.min 255 (identLoss answer / 20))) ∧
          RegsKeptBut loggingRegs s t ∧ KeepsBut [.regs, .ev, .out, .st, .freeCtr, .quiesced] s t) ∧
      (∀ answer : List Byte, d.manages pos.val = false ∨ (d.peerSite pos.val i).state ≠ 2 →
        ∃ t, exec (.cartridgeCheck pos site answer) s = .next t ∧ KeepsBut [.quiesced] s t)) ∧
    (∀ bytes : List Byte, d.rd F.MGT_CART_STAT_state 0 i = 2 → ∃ t, exec (.cartridgeIdentityRead site bytes) s = .next t ∧
      smFind t.dev.st.ident i = some bytes ∧ t.dev.on F.MGT_CART_STAT_valid 0 i = identCrc bytes ∧
      t.dev.rd F.MGT_CART_STAT_part 0 i = identPart bytes ∧
      (identLoss bytes % 20 = 0 → t.dev.rd F.MGT_CART_STAT_loss 0 i = Nat.min 255 (identLoss bytes / 20)) ∧
      t.dev.rd F.MGT_CART_STAT_state 0 i = 2 ∧ i ∈ t.dev.st.dynamic ∧
      t.dev.out = d.out ++ [.i3c i .rstdaa, .i3c i (.setdasa 0x50 0x08), .i3c i (.read 0x08 0 128)] ∧
      RegsKeptBut [.MGT_CART_STAT] s t ∧ KeepsBut [.regs, .out, .st, .freeCtr, .quiesced] s t) ∧
    (d.on F.MGT_CART_STAT_present 0 i = true → ∃ t, exec (.cartridgeRemoval site) s = .next t ∧ smFind t.dev.st.ident i = none ∧
      i ∉ t.dev.st.dynamic ∧ ((∀ sc, d.siteCfg me i = some sc → sc.ports = []) →
        t.dev.rdw .MGT_CART_STAT 0 i = 0 ∧ RegsKeptBut [.MGT_CART_STAT] s t) ∧
      KeepsBut [.regs, .oe, .ln, .sw, .tm, .sy, .ev, .st, .quiesced] s t) ∧
    (∀ (pos : StagePos) (temp : BitVec 16) (sc : SiteCfg), pos.val = me → d.role = 2 → d.siteCfg me i = some sc →
      i ∈ d.st.dynamic → let tooHot := (d.cfg.stage.limit : Int) ≤ s16 temp.toNat; let k := me * 8 + i
      ∃ t, exec (.cartridgeTemperaturePoll pos site temp) s = .next t ∧ t.dev.rd F.MGT_CART_STAT_temp 0 i = temp.toNat ∧
        t.dev.out = d.out ++ [.i3c i (.read 0x08 0x80 2)] ∧
        (d.cfg.stage.tempLimit = none → (tooHot ↔ 70 * 16 ≤ s16 temp.toNat)) ∧ (k ∈ t.dev.st.hot ↔ tooHot) ∧ t.dev.ev.seq = (if tooHot ∧ k ∉ d.st.hot then (d.ev.seq + 1) % 4294967296 else d.ev.seq) ∧
        RegsKeptBut [.MGT_CART_STAT] s t ∧ KeepsBut [.regs, .ev, .out, .st, .quiesced] s t) ∧
    (∀ (pos : StagePos) (temp : BitVec 16) (sc : SiteCfg), pos.val ≠ me → d.role = 2 → d.siteCfg pos.val i = some sc →
      let x := d.peerSite pos.val i; let tooHot := (d.cfg.stage.limit : Int) ≤ s16 temp.toNat; let k := pos.val * 8 + i
      (d.manages pos.val = true ∧ x.present = true ∧ x.enable = true → ∃ t, exec (.cartridgeTemperaturePoll pos site temp) s = .next t ∧
        (k ∈ t.dev.st.hot ↔ tooHot) ∧ t.dev.ev.seq = (if tooHot ∧ k ∉ d.st.hot then (d.ev.seq + 1) % 4294967296 else d.ev.seq) ∧
        (tooHot → k ∉ d.st.hot → ∀ w, smFind d.st.checked k = some w → ∃ e3, t.dev.ev.history.head?.map EvRec.e3 = some e3 ∧
          wbit e3 63 = true ∧ wbit e3 62 = true ∧ wbit e3 61 = wbit w 61 ∧ fget e3 60 58 = x.state % 8 ∧
          fget e3 39 24 = fget w 39 24 ∧ fget e3 23 16 = fget w 23 16 ∧ fget e3 15 0 = temp.toNat) ∧
        KeepsBut [.ev, .st, .quiesced] s t) ∧
      (¬ (d.manages pos.val = true ∧ x.present = true ∧ x.enable = true) →
        ∃ t, exec (.cartridgeTemperaturePoll pos site temp) s = .next t ∧ KeepsBut [.quiesced] s t))

/-- SUPPLY_FAULT_RESET, RAIL_FAULT of a rail other than VDD_AUX and POWER_GOOD_LOSS with PWRGOOD high, and HEADLESS_TIMEOUT of a headless die with the hub in reset: every die is in reset, no configuration, frame, table entry, chunk or transfer is left, the device waits for its start, fuses, flash and the bias cells stay, and HUB_BOOT_STAT shows the cause; the first three keep every RWS field and the error ring. The loss of VDD_AUX, and any of the three while VDD_AUX is out of range, is a power-on reset: every register stands at its reset value and the cause is 0. With PWRGOOD low the fault of another rail is only noted. It rests also on readings that are the model's own: log 101, 151. Under hypotheses on the state and operands alone it concludes that exec answers a next state, and what that holds, for headlessTimeout, supplyFaultReset, railFault, powerGoodLoss. (00_scope.md, 12_package_and_boot.md, R11, R258, R315, R328, R439, R441) -/
def Obligations.PackageResets : Prop :=
  ∀ (s : State), let d := s.dev
    let wiped := fun (t : State) (cause : Nat) => (∀ i < 23, t.dev.dieState i = 0) ∧ t.chip.pend = none ∧ t.dev.cfg = Cfg.none ∧
      t.dev.sw = SwState.fresh ∧ t.dev.tm = TmState.fresh ∧ t.dev.fw = FwdState.fresh ∧ t.dev.sy = SyncState.fresh ∧
      t.dev.ln = LinkState.fresh ∧ t.dev.oe = OeState.fresh ∧ t.dev.st = StageState.fresh ∧ t.dev.mg = ⟨[], none, 0⟩ ∧
      t.dev.pw.restart = true ∧ t.dev.by_.rec_ = d.by_.rec_ ∧ t.dev.rd F.HUB_BOOT_STAT_cause 0 0 = cause ∧
      t.chip.fuses = s.chip.fuses ∧ t.chip.flash = s.chip.flash ∧ KeepsBut [.pend, .regs, .release, .cfg, .time, .ev, .sw, .tm, .fw,
        .sy, .ln, .oe, .by_, .d2, .pw, .quiesced, .mgmt, .se, .st, .parserDrops] s t
    let retained := fun (t : State) => t.dev.ev.ring = d.ev.ring ∧ t.dev.rdw .HUB_ERING_STAT 0 0 = d.rdw .HUB_ERING_STAT 0 0 ∧
      (smRising 0 d.regs = true → ∀ r u i, u < 32 → i < 2097152 → r ≠ .HUB_BOOT_STAT → r ≠ .HUB_ERING_STAT →
        t.dev.rdw r u i = resetWord r.ctorIdx (d.rdw r u i))
    let powerOn := fun (t : State) => wiped t 0 ∧ t.dev.regs = [] ∧ t.dev.ev = EvState.fresh
    let warm := fun (t : State) (cause : Nat) => (7 ∉ d.pw.rails → wiped t cause ∧ retained t) ∧ (7 ∈ d.pw.rails → powerOn t)
    (d.pw.good = true → ∃ t, exec .supplyFaultReset s = .next t ∧ warm t 5 ∧ 0 ∈ t.dev.pw.rails) ∧
    (∀ rail : RailId, rail.val ≠ 7 → d.pw.good = true → ∃ t, exec (.railFault rail) s = .next t ∧ warm t 5 ∧ rail.val ∈ t.dev.pw.rails) ∧
    (∀ rail : RailId, rail.val = 7 → ∃ t, exec (.railFault rail) s = .next t ∧ powerOn t) ∧
    (∀ rail : RailId, rail.val ≠ 7 → d.pw.good = false → ∃ t, exec (.railFault rail) s = .next t ∧
      t.dev.pw = { d.pw with rails := d.pw.rails.filter (· != rail.val) ++ [rail.val] } ∧ KeepsBut [.pw, .quiesced] s t) ∧
    (d.pw.good = true → ∃ t, exec .powerGoodLoss s = .next t ∧ warm t 0 ∧ t.dev.pw.good = false) ∧
    (∀ die : DieId, d.dieState die.val = 4 → d.hubRuns = false → ∃ t, exec (.headlessTimeout die) s = .next t ∧ wiped t 3 ∧
      t.dev.ev.ring = d.ev.ring) ∧
    (d.pw.good = false → ∃ t, exec .supplyFaultReset s = .next t ∧ t.dev.pw = { d.pw with rails := d.pw.rails.filter (· != 0) ++ [0] } ∧
      KeepsBut [.pw, .quiesced] s t)

/-- A start by PACKAGE_RESET, by POWER_GOOD or by SUPPLY_RAIL_RETURN of the last rail counts a boot and starts the hub. The hub shows its own strap word. With no firmware it enters recovery. With firmware whose bytes pass the checks of R368, good straps and no owner enrolled, each die whose strap word is good runs, a core die without one or without its clock is parked and an engine or bypass die without one is out of service, and the boot waits for an image at stage 15. Without power good, a rail or the hub's clock nothing starts. It rests also on readings that are the model's own: log 2, 20, 103, 105, 106, 108. Under hypotheses on the state and operands alone it concludes that exec answers a next state, and what that holds, for powerGood, packageReset, supplyRailReturn. (12_package_and_boot.md, 15_security.md, R296, R307, R308, R341, R369, R371, R372) -/
def Obligations.StartOfThePackage : Prop :=
  ∀ (s : State) (b : BootIn) (c : Instr) (e : Dev), let d := s.dev; let f := s.chip.flash
    (c = .packageReset b ∧ e = d) ∨ (c = .powerGood b ∧ d.pw.good = false ∧ e = { d with pw := { d.pw with good := true } }) ∨
      (∃ rail : RailId, c = .supplyRailReturn rail b ∧ e = { d with pw := { d.pw with rails := d.pw.rails.filter (· != rail.val) } }) →
    (e.canStart = false → ∃ t, exec c s = .next t ∧ t.dev.pw = e.pw ∧ KeepsBut [.pw, .quiesced] s t) ∧
    (e.canStart = true → f.fw = [] → ∃ t, exec c s = .next t ∧ t.dev.hubRuns = true ∧ t.dev.on F.SEC_STAT_recovery 0 0 = true ∧
      t.chip.flash = { f with boots := (f.boots + 1) % 2 ^ 32 } ∧ t.dev.pw.restart = false ∧
      t.dev.rd F.MGT_BOOT_CNT_count 0 0 = (f.boots + 1) % 2 ^ 32 ∧ (∀ r, b.straps.find? (fun r => r.die.val == 22) = some r → t.dev.rd F.HUB_STRAP_word 0 22 = r.word.toNat) ∧
      KeepsBut [.flash, .regs, .release, .ev, .pw, .se, .quiesced] s t) ∧
    (∀ w, e.canStart = true → smFind f.fw f.fwActive = some w → f.fwActive ≤ 1 → f.fwStaged = false →
      let w' : FwSlot := ⟨(if f.fwActive = 0 then b.fw0 else b.fw1).of w.file⟩
      (s.chip.fuses.check 1 w'.file).ok = true → s.chip.fuses.rollback ≤ w'.version → (∀ i < 23, d.on F.HUB_STRAP_bad 0 i = false) → s.chip.fuses.owner = none → strapOk b.straps 22 = true →
      strapOk b.straps 0 = true ∨ strapOk b.straps 1 = true → (∀ q < 4, smFind d.by_.await q = none) →
      ∃ t, exec c s = .next t ∧ t.dev.hubRuns = true ∧ t.dev.rd F.HUB_BOOT_STAT_stage 0 0 = 15 ∧
        (∀ die < 2, t.dev.dieState die = if strapOk b.straps die = true ∧ die ∉ d.pw.clocks then 1 else 2) ∧
        (∀ k, 2 ≤ k → k < 22 → t.dev.dieState k = if strapOk b.straps k then 1 else 3) ∧
        t.chip.flash = { f with boots := (f.boots + 1) % 2 ^ 32 } ∧ t.dev.rd F.SEC_STAT_fw_version 0 0 = w'.version % 64 ∧
        KeepsBut [.flash, .regs, .release, .time, .ev, .by_, .d2, .pw, .se, .quiesced] s t)

/-- IMAGE_ACTIVATION with an image waiting whose rules hold: its slot is active, the region log empty, its configuration in force and nothing waits any more; one that breaks a rule is dropped with HUB code 3, and with none waiting, in recovery mode or after a start that ended at a bad strap word nothing happens, which for want of an image is the model's guard (log 152). What the activation does in order is log 112. TRAFFIC_READY, on a hub that is attached and in neither of those states, once no engine settles and every port has finished its first training, shows ready and stage 14 and raises one record, once. It rests also on readings that are the model's own: log 107, 109, 110, 112, 152, 175. Under hypotheses on the state and operands alone it concludes that exec answers a next state, and what that holds, for imageActivation, trafficReady. (01_architecture.md, 12_package_and_boot.md, R36, R307, R308, R354) -/
def Obligations.ImageActivates : Prop :=
  ∀ (s : State), let d := s.dev; let f := s.chip.flash
    (s.chip.pend = none ∨ d.bootStops = true ∨ d.on F.SEC_STAT_recovery 0 0 = true → ∃ t, exec .imageActivation s = .next t ∧ KeepsBut [.quiesced] s t) ∧
    (∀ p, s.chip.pend = some p → d.bootStops = false → d.on F.SEC_STAT_recovery 0 0 = false →
      (∀ e, d.loadImage p.content.image p.content.digest s.chip.fuses.steppings = some e →
        ∃ t, exec .imageActivation s = .next t ∧ t.chip.pend = none ∧ t.dev.cfg = e.cfg ∧ t.dev.cfg.active = true ∧
          t.chip.flash = { f with imgActive := p.slot, imgStaged := f.imgStaged && p.slot == f.imgActive, log := [] } ∧
          t.chip.fuses = s.chip.fuses ∧ t.dev.tick = d.tick) ∧
      (d.loadImage p.content.image p.content.digest s.chip.fuses.steppings = none →
        ∃ t, exec .imageActivation s = .next t ∧ t.chip.pend = none ∧ t.dev.rd F.HUB_BOOT_STAT_stage 0 0 = 10 ∧
          Logged .HUB 0 3 s t ∧ RegsKeptBut (.HUB_BOOT_STAT :: loggingRegs) s t ∧
          KeepsBut [.pend, .regs, .ev, .quiesced] s t)) ∧
    (let go := d.attached = true ∧ d.on F.SEC_STAT_recovery 0 0 = false ∧ d.bootStops = false ∧ d.cfg.active = true ∧ d.on F.HUB_BOOT_STAT_ready 0 0 = false ∧ d.oe.settling = [] ∧
        (∀ p ∈ d.cfg.ports, d.firstTrained p.1 = true);
      (go → ∃ t, exec .trafficReady s = .next t ∧ t.dev.on F.HUB_BOOT_STAT_ready 0 0 = true ∧ t.dev.rd F.HUB_BOOT_STAT_stage 0 0 = 14 ∧
        (F.HUB_BOOT_STAT_degraded.isSet t.dev.bootStat = true ↔ d.dieRuns 0 = false ∨ d.dieRuns 1 = false ∨ ∃ i < 20, d.dieState (2 + i) = 3) ∧
        t.dev.ev.seq = (d.ev.seq + 1) % 4294967296 ∧ RegsKeptBut [.HUB_BOOT_STAT] s t ∧ KeepsBut [.regs, .ev, .quiesced] s t) ∧
      (¬ go → ∃ t, exec .trafficReady s = .next t ∧ KeepsBut [.quiesced] s t))

/-- A fatal error of a running die: FATAL_ERROR, HANDSHAKE_STALL of a core die with cause 4, HUB_WATCHDOG_EXPIRY of the hub with cause 6 while a core die runs. With an earlier one still open, or on a core die whose peer is parked, the package resets with cause 2 and the second fields show it. An injected one (cause 9) escalates so even where its die no longer runs (log 115). Otherwise the die is the one in the window and the first fields show it: a core die is reset and parked, HUB code 4, while its peer, running or not, keeps its state, tables and ports (CoreParked); the hub alone is reset; an engine loses its links and substitutions and, with a hub and an image, recalibrates from its section, HUB code 9, every other die as it was; a bypass die stops its command and its trimming, HUB code 9, while the bias cells keep every committed path. With no core die running the watchdog resets the package. FATAL_WINDOW_CLOSE ends the window of a die at rest. It rests also on readings that are the model's own: log 96, 99, 115. Under hypotheses on the state and operands alone it concludes that exec answers a next state, and what that holds, for hubWatchdogExpiry, fatalError, handshakeStall, fatalWindowClose. (12_package_and_boot.md, 17_faults_and_errors.md, R312, R413, R414, Table 17.12) -/
def Obligations.FatalErrors : Prop :=
  ∀ (s : State), let d := s.dev
    (∀ (i : StrapId) (cause : BitVec 4) (c : Instr), d.canFail i.val cause.toNat = true →
      c = .fatalError i cause ∨ (∃ die : DieId, c = .handshakeStall die ∧ i.val = die.val ∧ cause = 4) ∨
        (c = .hubWatchdogExpiry ∧ i.val = 22 ∧ cause = 6 ∧ (d.dieRuns 0 = true ∨ d.dieRuns 1 = true) ∧ d.hubRuns = true) →
      (d.pw.window ≠ [] ∨ (i.val < 2 ∧ d.dieState (1 - i.val) = 2) → ∃ t, exec c s = .next t ∧
        (∀ k < 23, t.dev.dieState k = 0) ∧ t.dev.cfg = Cfg.none ∧ t.chip.pend = none ∧ t.dev.pw.restart = true ∧
        t.dev.pw.window = [] ∧ t.dev.rd F.HUB_BOOT_STAT_cause 0 0 = 2 ∧ t.dev.rd F.HUB_FATAL_STAT_valid2 0 0 = 1 ∧
        t.dev.rd F.HUB_FATAL_STAT_cause2 0 0 = cause.toNat ∧ t.dev.rd F.HUB_FATAL_STAT_die2 0 0 = i.val ∧
        Counted F.HUB_FATAL_STAT_count 0 0 s t ∧ t.chip.flash = s.chip.flash ∧ t.chip.fuses = s.chip.fuses) ∧
      (d.pw.window = [] → ¬ (i.val < 2 ∧ d.dieState (1 - i.val) = 2) → ∃ t, exec c s = .next t ∧ t.dev.pw.window = [i.val] ∧
        t.chip.fuses = s.chip.fuses ∧ t.chip.flash = s.chip.flash ∧ t.dev.cfg = d.cfg ∧ t.dev.tick = d.tick ∧ t.chip.pend = s.chip.pend ∧
        (d.on F.HUB_FATAL_STAT_valid1 0 0 = false → t.dev.rd F.HUB_FATAL_STAT_valid1 0 0 = 1 ∧
          t.dev.rd F.HUB_FATAL_STAT_cause1 0 0 = cause.toNat ∧ t.dev.rd F.HUB_FATAL_STAT_die1 0 0 = i.val) ∧
        Counted F.HUB_FATAL_STAT_count 0 0 s t ∧
        (i.val < 2 → CoreParked i.val s t ∧ (d.hubRuns = true → Logged .HUB 0 4 s t)) ∧
        (2 ≤ i.val → i.val < 18 → let e := i.val - 2
          t.dev.dieState i.val = (if d.cfg.active = false then 1 else if d.hubRuns = false then 0 else if (s.chip.section i.val).ok then 1 else 3) ∧
          (∀ k < 23, k ≠ i.val → t.dev.dieState k = d.dieState k) ∧
          (∀ n p, n / 64 = e → n < 1024 → d.carryOf n ≠ 15 → d.portOf n = some p → d.isPort p = true → t.dev.linkUp p = false) ∧
          (d.hubRuns = true → Logged .HUB 0 9 s t) ∧ smFind t.dev.oe.cmd e = none ∧
          KeepsBut [.regs, .oe, .ln, .sw, .tm, .sy, .ev, .pw, .quiesced] s t) ∧
        (18 ≤ i.val → i.val < 22 → let q := i.val - 18
          q ∉ t.dev.by_.read ∧ smFind t.dev.by_.op q = none ∧
          ((∀ x, smFind d.by_.op q = some x → x.op ≠ 1) → t.dev.by_.rec_ = d.by_.rec_) ∧ t.dev.by_.phases = d.by_.phases ∧
          (∀ k < 23, t.dev.dieState k = d.dieState k) ∧ (d.hubRuns = true → Logged .HUB 0 9 s t) ∧
          (∀ r u j, r.block ≠ .BYP → r ∉ Reg.HUB_FATAL_STAT :: loggingRegs → t.dev.rdw r u j = d.rdw r u j) ∧
          (∀ r u j, r.block = .BYP → u ≠ q → r ∉ loggingRegs → u < 32 → t.dev.rdw r u j = d.rdw r u j) ∧
          KeepsBut [.regs, .by_, .ev, .pw, .quiesced] s t) ∧
        (i.val = 22 → (∀ x ∈ d.sy.recs, x.state ≠ .spilled ∧ (x.state = .held → x.spillUnits = 0)) → t.dev.dieState 22 = 0 ∧ t.dev.sw = d.sw ∧ t.dev.sy = d.sy ∧
          t.dev.fw = { d.fw with backing := [] } ∧ t.dev.mg.xfer = none ∧ t.dev.mg.reqs = [] ∧
          t.dev.st = { StageState.fresh with dynamic := d.st.dynamic }))) ∧
    (d.hubRuns = true → d.dieRuns 0 = false → d.dieRuns 1 = false → ∃ t, exec .hubWatchdogExpiry s = .next t ∧
      (∀ k < 23, t.dev.dieState k = 0) ∧ t.dev.pw.restart = true ∧
      t.dev.rd F.HUB_BOOT_STAT_cause 0 0 = (if d.pw.window = [] then 4 else 2)) ∧
    (∀ i : StrapId, let rest := if i.val < 2 then d.dieState i.val = 2 else if i.val < 18 then d.dieState i.val = 1 ∨ d.dieState i.val = 3
        else if i.val < 22 then i.val - 18 ∈ d.by_.read else d.hubRuns = true
      (rest → ∃ t, exec (.fatalWindowClose i) s = .next t ∧ t.dev.pw = { d.pw with window := d.pw.window.filter (· != i.val) } ∧
        KeepsBut [.pw, .quiesced] s t) ∧
      (¬ rest → ∃ t, exec (.fatalWindowClose i) s = .next t ∧ KeepsBut [.quiesced] s t))

/-- REFERENCE_CLOCK_LOSS of a running core die logs HUB code 5, resets and parks the die, whose frames, chunks and tables are gone and whose blocks are no longer admitted, while the other die, running or not, keeps its state, its tables and banks and the state of its ports (CoreParked); of a parked one it logs the code and changes nothing else; REFERENCE_CLOCK_RETURN alone changes nothing but the clock. HUB_RESET, and the loss of the hub's clock, end transfers, requests and the stage, empty what GDDR7 held and reset the hub's registers, while no frame and no register of a core die changes and the core dies admit the blocks they admitted. It rests also on readings that are the model's own: log 94, 100, 104. Under hypotheses on the state and operands alone it concludes that exec answers a next state, and what that holds, for referenceClockLoss, hubReset, referenceClockReturn. (12_package_and_boot.md, R309, R310, R312, R313) -/
def Obligations.ClocksAndHubReset : Prop :=
  ∀ (s : State), let d := s.dev
    (∀ k : ClockId, ∃ t, exec (.referenceClockReturn k) s = .next t ∧
      t.dev.pw = { d.pw with clocks := d.pw.clocks.filter (· != k.val) } ∧ KeepsBut [.pw, .quiesced] s t) ∧
    (∀ k : ClockId, k.val < 2 → k.val ∉ d.pw.clocks →
      (d.dieRuns k.val = false → ∃ t, exec (.referenceClockLoss k) s = .next t ∧
        t.dev.pw = { d.pw with clocks := d.pw.clocks ++ [k.val] } ∧
        (d.dieState k.val ≠ 2 ∨ d.hubRuns = false → KeepsBut [.pw, .quiesced] s t) ∧
        (d.dieState k.val = 2 → d.hubRuns = true → Logged .HUB 0 5 s t) ∧
        RegsKeptBut loggingRegs s t ∧ KeepsBut [.regs, .ev, .pw, .quiesced] s t) ∧
      (d.dieRuns k.val = true → ∃ t, exec (.referenceClockLoss k) s = .next t ∧
        t = s.after (fun d => ({ d with pw := { d.pw with clocks := d.pw.clocks ++ [k.val] } } : Dev).coreLost 5 k.val) ∧
        k.val ∈ t.dev.pw.clocks ∧ CoreParked k.val s t ∧ t.dev.pw.window = d.pw.window ∧
        (d.hubRuns = true → Logged .HUB 0 5 s t))) ∧
    (∀ c, c = .hubReset ∨ (c = .referenceClockLoss 2 ∧ 2 ∉ d.pw.clocks) → d.hubRuns = true →
      (∀ x ∈ d.sy.recs, x.state ≠ .spilled ∧ (x.state = .held → x.spillUnits = 0)) →
      ∃ t, exec c s = .next t ∧ t.dev.hubRuns = false ∧ t.dev.mg.xfer = none ∧ t.dev.mg.reqs = [] ∧
        t.dev.st = { StageState.fresh with dynamic := d.st.dynamic } ∧ t.dev.fw = { d.fw with backing := [] } ∧ t.dev.ev.waiting = [] ∧ t.dev.ev.history = [] ∧ t.dev.ev.ring = d.ev.ring ∧ t.dev.ev.held = d.ev.held ∧
        (∀ u < 2, t.dev.dieState u = d.dieState u ∧ t.dev.rdw .HUB_ADMIT 0 u = 0 ∧ ∀ j < 64, t.dev.admitted u j = d.admitted u j) ∧
        (∀ r u i, u < 32 → i < 2097152 → hubKey (regKey r u i) = false → t.dev.rdw r u i = d.rdw r u i) ∧
        KeepsBut [.regs, .time, .ev, .fw, .pw, .quiesced, .mgmt, .se, .st] s t)

/-- HEADLESS_ENTRY of a running core die while the hub is not attached: the die is headless for 30,000 ms, counted, with D2D code 5 logged. HUB_ATTACH, while the hub is in reset and can start, the slot's bytes as read: without firmware it only enters recovery; once a headless die's 30 s have run out nothing but the boot count changes; with an active configuration whose digest differs from flash nothing but the boot count changes; with one of the same digest the configuration stays and the backing table is the image's again; without an active configuration the hub runs, headless dies run attached, HUB_ADMIT stands and is in force again, nothing is held any more, and the hall counter is die 0's copy if it runs, else die 1's, else 0. Where the hub runs or cannot start the command does nothing, which is the model's guard (log 152). It rests also on readings that are the model's own: log 102, 103, 104, 139, 149, 152. Under hypotheses on the state and operands alone it concludes that exec answers a next state, and what that holds, for headlessEntry, hubAttach. (12_package_and_boot.md, 16_fabric_time.md, R312, R314, R315, R389) -/
def Obligations.Headless : Prop :=
  ∀ (s : State), let d := s.dev; let f := s.chip.flash
    (∀ die : DieId, d.attached = false → d.dieState die.val = 1 → ∃ t, exec (.headlessEntry die) s = .next t ∧ t.dev.dieState die.val = 4 ∧
      t.dev.on F.D2D_STAT_headless die.val 0 = true ∧ t.dev.rd F.D2D_STAT_timer die.val 0 = 30000 ∧
      t.dev.pw = { d.pw with entered := smInsert d.pw.entered die.val d.tick } ∧ Counted F.D2D_EVT_CNT_events die.val 3 s t ∧
      Logged .D2D die.val 5 s t ∧ RegsKeptBut (.HUB_STRAP :: .D2D_STAT :: .D2D_EVT_CNT :: loggingRegs) s t ∧
      KeepsBut [.regs, .ev, .pw, .quiesced] s t) ∧
    (∀ fw0 fw1 : SlotRead, d.hubRuns = true ∨ d.pw.good = false ∨ d.pw.restart = true ∨ 2 ∈ d.pw.clocks ∨ d.pw.rails ≠ [] →
      ∃ t, exec (.hubAttach fw0 fw1) s = .next t ∧ KeepsBut [.quiesced] s t) ∧
    (∀ fw0 fw1 : SlotRead, d.hubRuns = false → d.pw.good = true → d.pw.restart = false → 2 ∉ d.pw.clocks → d.pw.rails = [] →
      (f.fw = [] → ∃ t, exec (.hubAttach fw0 fw1) s = .next t ∧ t.dev.on F.SEC_STAT_recovery 0 0 = true ∧ t.dev.hubRuns = true ∧
        t.chip.flash = { f with boots := (f.boots + 1) % 2 ^ 32 }) ∧
      (∀ w, smFind f.fw f.fwActive = some w → f.fwActive ≤ 1 → f.fwStaged = false →
        let w' : FwSlot := ⟨(if f.fwActive = 0 then fw0 else fw1).of w.file⟩
        (s.chip.fuses.check 1 w'.file).ok = true → s.chip.fuses.rollback ≤ w'.version →
        (d.timedOut = true → ∃ t, exec (.hubAttach fw0 fw1) s = .next t ∧ t.chip.flash = { f with boots := (f.boots + 1) % 2 ^ 32 } ∧
          KeepsBut [.flash, .quiesced] s t) ∧
        (d.cfg.active = true → (∀ e g, s.chip.flashConfig = some (e, g) → g ≠ d.cfg.digest) →
          ∃ t, exec (.hubAttach fw0 fw1) s = .next t ∧ t.chip.flash = { f with boots := (f.boots + 1) % 2 ^ 32 } ∧
            KeepsBut [.flash, .quiesced] s t) ∧
        (d.cfg.active = true → d.timedOut = false → ∀ e, s.chip.flashConfig = some (e, d.cfg.digest) → ∃ t, exec (.hubAttach fw0 fw1) s = .next t ∧
          t.dev.cfg = d.cfg ∧ t.dev.fw.backing = e.fw.backing ∧ t.dev.fw.written = [] ∧ t.dev.pw.admits = [] ∧
          t.chip.flash = { f with boots := (f.boots + 1) % 2 ^ 32 }) ∧
        (d.cfg.active = false → d.timedOut = false → ∃ t, exec (.hubAttach fw0 fw1) s = .next t ∧ t.dev.hubRuns = true ∧
          t.dev.rd F.HUB_BOOT_STAT_stage 0 0 = 9 ∧ (∀ die < 2, t.dev.dieState die = if d.dieState die = 4 then 1 else d.dieState die) ∧
          t.dev.pw.admits = [] ∧ t.dev.attached = true ∧ (∀ die < 2, t.dev.rdw .HUB_ADMIT 0 die = d.rdw .HUB_ADMIT 0 die) ∧
          t.dev.ev.held = [] ∧ t.dev.ev.heldFlights = [] ∧ t.dev.se.waiting = 0 ∧
          t.dev.time.hall = (if d.dieRuns 0 then smGet d.time.copies 0 0 else if d.dieRuns 1 then smGet d.time.copies 1 0 else 0) ∧
          KeepsBut [.flash, .regs, .release, .time, .ev, .tm, .pw, .se, .quiesced] s t)))

/-- No command but a register write changes the rollback fuses, and of its operations only a commit of SEC_ROLLBACK does, to the security version of the running firmware. A commit raises the value to that version, never lowers it, and SEC_STAT shows it. A firmware file below the rollback value is refused with MGT_FILE_STAT last 3. Under hypotheses on the state and operands alone it concludes that exec answers a next state, and what that holds, for fileVerifyDone. (R373) -/
def Obligations.RollbackRule : Prop :=
  (∀ (c : Instr) (s t : State), exec c s = .next t → t.chip.fuses.rollback ≠ s.chip.fuses.rollback →
    s.chip.fuses.rollback < t.chip.fuses.rollback ∧ ∃ who m full ok, c = .registerWriteRequest who m full ok) ∧
  (∀ (c : Chip) (a w : Word) (cur ok : Bool), (c.regWrite a w cur ok).1.fuses.rollback ≠ c.fuses.rollback →
    ∃ x, decodeAddr a.toNat = some x ∧ x.reg = .SEC_ROLLBACK ∧ F.SEC_ROLLBACK_commit.isSet w = true ∧
      (c.regWrite a w cur ok).1.fuses.rollback = c.dev.rd F.SEC_STAT_fw_version 0 0) ∧
  (∀ c : Chip, (c.commitRollback true).fuses.rollback = Nat.max c.fuses.rollback (c.dev.rd F.SEC_STAT_fw_version 0 0) ∧
    (c.fuses.rollback ≤ 63 → (c.commitRollback true).fuses.rollback ≤ 63) ∧
    (c.fuses.rollback < c.dev.rd F.SEC_STAT_fw_version 0 0 →
      (c.commitRollback true).dev.rd F.SEC_STAT_rollback 0 0 = (c.commitRollback true).fuses.rollback)) ∧
  (∀ (s : State) (x : Xfer) (v : VerifyIn), s.dev.mg.xfer = some x → x.verifying = true → s.dev.hubRuns = true → x.kind = 1 →
    (s.chip.fuses.check 1 x.file).ok = true → sigVersion (sigBlock x.file) < s.chip.fuses.rollback →
    ∃ t, exec (.fileVerifyDone v) s = .next t ∧ t.dev.rd F.MGT_FILE_STAT_last 0 0 = 3 ∧ t.chip.flash = s.chip.flash)

/-- Whatever the next step runs, the factory fuses, the device-unique key and the identity keys stay as they are, the rollback value never falls, a disabled factory key slot stays disabled, and owner digests once enrolled stay the same. (15_security.md, R366, R369, R373, R375, Table 15.1) -/
def Obligations.FusesBlowOnce : Prop :=
  ∀ s t : State, step s = .next t → FusesOnlyBlow s.chip.fuses t.chip.fuses

/-- From every state in which each job block that reports quiesced has its quiesce bit set and no frame, chunk or barrier left, a step of any kind leaves a state in which the same holds. (14_management_and_image.md, R349) -/
def Obligations.QuiescedBlocksAreEmpty : Prop :=
  ∀ s t : State, QuiescedHeld s → step s = .next t → QuiescedHeld t

/-- At reset no command waits, PWRGOOD is low, every register reads as the reset table gives it, no frame, entry, chunk, transfer, output or event is held, the hall counter stands at 0 with the nominal increment, the register store is canonical, and no block reports quiesced. The contents of fuses and flash at reset are the model's choice (log 2). It rests also on readings that are the model's own: log 2, 151. (00_scope.md, 12_package_and_boot.md, 16_fabric_time.md, R11, R12, R380) -/
def Obligations.ResetState : Prop :=
  State.reset.pending = [] ∧ State.reset.dev.pw.good = false ∧ (∀ r u i, State.reset.dev.rdw r u i = smGet resetTable r.ctorIdx 0) ∧
  State.reset.dev.sw = SwState.fresh ∧ State.reset.dev.fw = FwdState.fresh ∧ State.reset.dev.sy = SyncState.fresh ∧
  State.reset.dev.ln = LinkState.fresh ∧ State.reset.dev.mg.xfer = none ∧ State.reset.dev.out = [] ∧ State.reset.dev.ev.waiting = [] ∧
  State.reset.dev.time.hall = 0 ∧ State.reset.dev.time.inc = 0x666666666 ∧ (∀ i < 23, State.reset.dev.dieState i = 0) ∧
  RegsCanonical State.reset.dev.regs ∧ QuiescedHeld State.reset

/-- A word written to a register is read back and no other register changes. Every operation that writes the store, a word, a field, a count, a reset of a die or the load of another store's registers, keeps its canonical form, and a reset leaves exactly the RWS fields. (00_scope.md, R9, R11, R429) -/
def Obligations.RegisterStore : Prop :=
  ∀ m : RegFile,
    (∀ r u i w, rget (rset m r u i w) r u i = w) ∧
    (∀ r u i r' u' i' w, u < 32 → u' < 32 → i < 2097152 → i' < 2097152 → (r, u, i) ≠ (r', u', i') →
      rget (rset m r u i w) r' u' i' = rget m r' u' i') ∧
    (RegsCanonical m →
      (∀ r u i w, u < 32 → i < 2097152 → RegsCanonical (rset m r u i w)) ∧
      (∀ f u i v, u < 32 → i < 2097152 → RegsCanonical (fldPut m f u i v) ∧ RegsCanonical (fldInc m f u i v)) ∧
      (∀ (c : CntSet) ev port cls n, c.unit < 32 → c.set < 1024 → RegsCanonical (cntRegs m c ev port cls n)) ∧
      (∀ pick, RegsCanonical (resetRegs m pick) ∧ ∀ r u i, u < 32 → i < 2097152 →
        rget (resetRegs m pick) r u i = if pick (regKey r u i) then resetWord r.ctorIdx (rget m r u i) else rget m r u i) ∧
      (∀ from_ pick, RegsCanonical (takeRegs m from_ pick)))

/-- What one write operation does at the registers whose write is a command, where no check turns it down (the device after the operation is counted). FWD_CMD: the die's command runs, FWD_CMD shows it busy, and the table has changed: an insert of a resident entry of scope one stands in the table, status 3 where it replaces one, or finds no room, status 2; a delete takes the entry away, status 0, or finds none, status 1; a flush by block removes the block's entries but the static ones, if these are not named, and has their number as its count; a swap asks for it on every die of its scope, or is refused with status 4 while one drains or waits. OE_CMD: a changeover raises the other feed's enable and runs, is invalid where that feed is the one selected, busy while a command or changeover runs. BYP_CMD: a setup takes the affected links down and runs; it is invalid where the circuit does not fit, and status 3 where a link is up and take is 0; a teardown darkens the circuit's outputs and empties its record, or logs BYP code 2; of a circuit that is not there it is invalid; while a command runs any is busy. SEC_KEY_CMD: an install puts the unwrapped key into an empty slot and clears SEC_KEY_DATA; a revocation empties a slot other than key_cur's, disables slot 0 by fuse, takes key_next with it; any other is refused with status 2, flash as it was. SEC_OWNER_CMD: enrolment fuses the owner's digests, once. HUB_DIE_CTRL: a core die that runs is reset and parked (CoreParked); a parked one rejoins, with no block admitted and, where the other runs, its bank and epoch; op 5 asks for a package reset. HUB_INJ_CTRL: an arm for a memory shows busy with its count; target 9 is a fatal error of the die with cause 9. It rests also on readings that are the model's own: log 39, 82, 92, 100, 115, 116, 146, 163, 167, 187. (14_management_and_image.md, R136, R140, R238, R251, R256, R310, R373, R375, R415, R416, Table 5.3) -/
def Obligations.CommandRegisters : Prop :=
  ∀ (c : Chip) (a w : Word) (cur ok : Bool), let D := (c.on Dev.countOp).dev; let r := c.regWrite a w cur ok; let e := r.1.dev
    let reached := fun (x : RegAt) => decodeAddr a.toNat = some x ∧ c.dev.on F.SEC_STAT_recovery 0 0 = false ∧ D.writeReaches x w = true ∧
      D.writeStatus x (D.rdw x.reg x.unit (D.selIdx x)) w = 0
    (∀ u, reached ⟨.FWD_CMD, u, 0⟩ → let op := F.FWD_CMD_op.of w; let tbl := F.FWD_CMD_table.of w; let scope := F.FWD_CMD_scope.of w
      let key := D.logArg u; let kind := D.rd F.FWD_RES_kind u 0
      let runs := fun (status : Nat) => r.2 = 0 ∧ e.on F.FWD_CMD_busy u 0 = true ∧ ∃ n, smFind e.fw.cmd u = some ⟨status, n⟩
      (op = 3 → tbl = 2 → scope = 0 → kind = 0 ∨ kind = 2 → D.rd F.FWD_RES_tgt_kind u 0 = 1 ∨ D.rd F.FWD_RES_tgt_kind u 0 = 2 → KeyClean D u key →
        (D.roomLog u key = true → runs (if (D.findLog u key).isSome then 3 else 0) ∧ ∃ p y, e.findLog u key = some (p, y) ∧
          { y with flip := 0 } = D.argEntry u kind (D.ageTick u)) ∧
        (D.roomLog u key = false → runs 2 ∧ e.fw.logical = D.fw.logical)) ∧
      (op = 4 → tbl = 2 → scope = 0 → KeyClean D u key →
        (∀ p y, D.findLog u key = some (p, y) → runs 0 ∧ smFind e.fw.logical (lgBase u + p) = none ∧
          ∀ k, k ≠ lgBase u + p → smFind e.fw.logical k = smFind D.fw.logical k) ∧
        (D.findLog u key = none → runs 1 ∧ e.fw.logical = D.fw.logical)) ∧
      (op = 6 → tbl = 2 → scope = 0 → (∀ y ∈ D.fw.logical, y.1 / 262144 = u → y.2.flip = 0) →
        let gone := fun (y : Nat × LogEntry) => decide (y.1 / 262144 = u) && y.2.block == D.rd F.FWD_KEY_block u 0 &&
          (D.on F.FWD_KEY_static u 0 || y.2.kind != 0)
        r.2 = 0 ∧ e.on F.FWD_CMD_busy u 0 = true ∧ e.fw.logical = D.fw.logical.filter (fun y => !gone y) ∧
        smFind e.fw.cmd u = some ⟨0, (D.fw.logical.filter gone).length⟩) ∧
      (op = 7 → ¬ (scope = 1 ∧ D.on F.FWD_CMD_busy (1 - u) 0 = true) →
        let waits := ∃ y ∈ D.scopeDies u scope, D.on F.FWD_EPOCH_draining y 0 = true ∨ smGet D.fw.swapPend y false = true
        (¬ waits → runs 0 ∧ (∀ y ∈ D.scopeDies u scope, smGet e.fw.swapPend y false = true) ∧ e.fw.active = D.fw.active) ∧
        (waits → runs 4 ∧ e.fw.swapPend = D.fw.swapPend ∧ e.fw.active = D.fw.active))) ∧
    (∀ u, reached ⟨.OE_CMD, u, 0⟩ → let op := F.OE_CMD_op.of w; let to_ := if op = 3 then 1 else 0
      let clash := D.on F.OE_CMD_busy u 0 = true ∨ (smFind D.oe.change u).isSome = true
      op = 3 ∨ op = 4 →
      (D.rd F.OE_STATE_feed u 0 = to_ → r.2 = 3 ∧ e.rd F.OE_CMD_status u 0 = 2 ∧ e.oe = D.oe) ∧
      (D.rd F.OE_STATE_feed u 0 ≠ to_ → clash → r.2 = 1 ∧ e.rd F.OE_CMD_status u 0 = 1 ∧ e.oe = D.oe) ∧
      (D.rd F.OE_STATE_feed u 0 ≠ to_ → ¬ clash → r.2 = 0 ∧ e.rd F.OE_CMD_status u 0 = 0 ∧ e.on F.OE_CMD_busy u 0 = true ∧
        smFind e.oe.cmd u = some op ∧ e.rd (if op = 3 then F.OE_STATE_b_en else F.OE_STATE_a_en) u 0 = 1 ∧
        ∃ done, smFind e.oe.change u = some ⟨to_, done⟩ ∧ e.rd F.OE_STATE_feed u 0 = if done then to_ else D.rd F.OE_STATE_feed u 0)) ∧
    (∀ q, reached ⟨.BYP_CMD, q, 0⟩ → let op := F.BYP_CMD_op.of w; let i := F.BYP_CMD_input.of w; let take := F.BYP_CMD_take.isSet w
      let mask := BitVec.ofNat 64 (D.rd F.BYP_CMD_OUT_outputs q 0); let ps := D.circuitPorts q i (outsOf mask)
      let up := ∃ p ∈ ps, D.linkUp p = true ∨ D.portState p = 1
      let idle := smFind D.by_.op q = none ∧ D.bypUp q = true
      (op ≠ 0 → ¬ idle → r.2 = 1 ∧ e.rd F.BYP_CMD_status q 0 = 1 ∧ e.by_ = D.by_) ∧
      (op = 1 → idle →
        (D.circuitOk q i (outsOf mask) = false → r.2 = 3 ∧ e.rd F.BYP_CMD_status q 0 = 2 ∧ e.by_ = D.by_) ∧
        (D.circuitOk q i (outsOf mask) = true → take = false ∧ up → r.2 = 0 ∧ e.rd F.BYP_CMD_status q 0 = 3 ∧ e.by_ = D.by_) ∧
        (D.circuitOk q i (outsOf mask) = true → ¬ (take = false ∧ up) → r.2 = 0 ∧ e.rd F.BYP_CMD_status q 0 = 0 ∧
          e.on F.BYP_CMD_busy q 0 = true ∧ smFind e.by_.op q = some ⟨1, i, false⟩ ∧ e.on F.BYP_IN_active q i = true ∧ e.outMask q i = mask ∧
          ∀ p ∈ ps, D.isPort p = true → e.linkUp p = false)) ∧
      (op = 2 → idle →
        (D.on F.BYP_IN_active q i = false → r.2 = 3 ∧ e.rd F.BYP_CMD_status q 0 = 2 ∧ e.by_ = D.by_) ∧
        (D.on F.BYP_IN_active q i = true → r.2 = 0 ∧ e.rd F.BYP_CMD_status q 0 = 0 ∧ e.rdw .BYP_IN q i = 0 ∧
          (∀ o ∈ outsOf (D.outMask q i), e.rdw .BYP_OUT q o = 0) ∧
          (smFind e.by_.rec_ (q * 32 + i) = none ∨ Latched .BYP q 2 ⟨[], r.1⟩)))) ∧
    (reached ⟨.SEC_KEY_CMD, 0, 0⟩ → let op := F.SEC_KEY_CMD_op.of w; let slot := F.SEC_KEY_CMD_slot.of w
      let unwrapped := c.wrapKey.bind fun k => keyUnwrap k D.wrapped
      let refused := r.2 = 3 ∧ e.rd F.SEC_KEY_CMD_status 0 0 = 2 ∧ r.1.flash = c.flash ∧ r.1.fuses = c.fuses
      (op = 1 → (cur = false ∨ c.slotState slot ≠ 0 ∨ unwrapped = none → refused) ∧
        (∀ key, cur = true → c.slotState slot = 0 → unwrapped = some key → r.2 = 0 ∧ e.rd F.SEC_KEY_CMD_status 0 0 = 0 ∧
          r.1.keyOf slot = some key ∧ (∀ k, k ≠ slot → smFind r.1.flash.keys k = smFind c.flash.keys k) ∧ r.1.fuses = c.fuses ∧
          ∀ j < 7, e.rdw .SEC_KEY_DATA 0 j = 0)) ∧
      (op = 2 → (cur = false ∨ slot = D.keyCur → refused) ∧
        (cur = true → slot ≠ D.keyCur → r.2 = 0 ∧ e.rd F.SEC_KEY_CMD_status 0 0 = 0 ∧ r.1.keyOf slot = none ∧
          (∀ k, k ≠ slot → smFind r.1.flash.keys k = smFind c.flash.keys k) ∧
          (slot = 0 → ok = true → r.1.fuses = { c.fuses with slot0Disabled := true }) ∧ (slot ≠ 0 → r.1.fuses = c.fuses) ∧
          (slot = 0 → ok = false → r.1.fuses = c.fuses ∧ Latched .SEC 0 7 ⟨[], r.1⟩) ∧ (slot = D.keyNext → e.keyNext = 15)))) ∧
    (reached ⟨.SEC_OWNER_CMD, 0, 0⟩ → F.SEC_OWNER_CMD_enrol.isSet w = true →
      (c.fuses.owner.isSome = true → r.2 = 3 ∧ e.rd F.SEC_OWNER_CMD_status 0 0 = 2 ∧ r.1.fuses = c.fuses) ∧
      (c.fuses.owner = none → ok = true → r.2 = 0 ∧ e.rd F.SEC_OWNER_CMD_status 0 0 = 0 ∧ e.rd F.SEC_STAT_owner 0 0 = 1 ∧
        r.1.fuses = { c.fuses with owner := some D.ownerData }) ∧
      (c.fuses.owner = none → ok = false → r.2 = 0 ∧ e.rd F.SEC_OWNER_CMD_status 0 0 = 3 ∧ r.1.fuses = c.fuses ∧ Latched .SEC 0 7 ⟨[], r.1⟩)) ∧
    (reached ⟨.HUB_DIE_CTRL, 0, 0⟩ → let op := F.HUB_DIE_CTRL_op.of w; let i := F.HUB_DIE_CTRL_target.of w
      let good := dieOpOk op i (F.HUB_DIE_CTRL_confirm.of w) = true ∧ D.dieOpFits op i = true
      (op ≠ 0 → ¬ good → r.2 = 3 ∧ e.rd F.HUB_DIE_CTRL_status 0 0 = 2 ∧ e.pw = D.pw) ∧
      (op = 1 → good → D.dieRuns i = true → r.2 = 0 ∧ e.rd F.HUB_DIE_CTRL_status 0 0 = 0 ∧ CoreParked i ⟨[], c⟩ ⟨[], r.1⟩) ∧
      (op = 2 → good → r.2 = 0 ∧ e.rd F.HUB_DIE_CTRL_status 0 0 = 0 ∧ e.dieState i = 1 ∧ e.rdw .HUB_ADMIT 0 i = 0 ∧
        (D.dieRuns (1 - i) = true → smGet e.fw.active i 0 = smGet D.fw.active (1 - i) 0 ∧
          e.rd F.FWD_EPOCH_epoch i 0 = D.rd F.FWD_EPOCH_epoch (1 - i) 0)) ∧
      (op = 5 → good → r.2 = 0 ∧ e.pw = { D.pw with restart := true })) ∧
    (reached ⟨.HUB_INJ_CTRL, 0, 0⟩ → F.HUB_INJ_CTRL_arm.isSet w = true → let t := F.HUB_INJ_CTRL_target.of w
      let i := F.HUB_INJ_CTRL_die.of w
      (1 ≤ t → t ≤ 8 → r.2 = 0 ∧ e.on F.HUB_INJ_CTRL_busy 0 0 = true ∧ e.rd F.HUB_INJ_CTRL_target 0 0 = t ∧
        e.rd F.HUB_INJ_STAT_remaining 0 0 = F.HUB_INJ_CTRL_count.of w ∧ e.rd F.HUB_INJ_CTRL_bits 0 0 = F.HUB_INJ_CTRL_bits.of w) ∧
      (t = 9 → D.dieRuns i = true → D.pw.window = [] → D.dieState (1 - i) ≠ 2 → r.2 = 0 ∧ e.pw.window = [i] ∧
        CoreParked i ⟨[], c⟩ ⟨[], r.1⟩ ∧ e.rd F.HUB_FATAL_STAT_count 0 0 =
          Nat.min F.HUB_FATAL_STAT_count.max (D.rd F.HUB_FATAL_STAT_count 0 0 + 1)))
end

