-- ==== Sys2Proof/Laws/Sparse.lean ====
section
/-! SUPPORT. Laws of the sparse tables: reading after writing, and that every operation keeps the canonical form. -/

namespace Sys2Proof.Machine

variable {α : Type}

theorem smFind_smInsert_same (m : SMap α) (k : Nat) (v : α) : smFind (smInsert m k v) k = some v := by
  induction m with
  | nil => simp [smInsert, smFind]
  | cons e t ih =>
    obtain ⟨k', v'⟩ := e
    by_cases h : k' = k
    · simp [smInsert, smFind, h]
    · by_cases h2 : k < k' <;> simp [smInsert, smFind, h, h2, ih]

theorem smFind_smInsert_ne (m : SMap α) {k j : Nat} (v : α) (h : j ≠ k) : smFind (smInsert m k v) j = smFind m j := by
  induction m with
  | nil => simp [smInsert, smFind, Ne.symm h]
  | cons e t ih =>
    obtain ⟨k', v'⟩ := e
    by_cases h1 : k' = k
    · subst h1; simp [smInsert, smFind, Ne.symm h]
    · by_cases h2 : k < k'
      · simp [smInsert, smFind, h1, h2, Ne.symm h]
      · simp only [smInsert, h1, h2, if_false, smFind, ih]

theorem smFind_smErase_same (m : SMap α) (k : Nat) : smFind (smErase m k) k = none := by
  induction m with
  | nil => simp [smErase, smFind]
  | cons e t ih =>
    obtain ⟨k', v'⟩ := e
    by_cases h : k' = k
    · simpa [smErase, h] using ih
    · simpa [smErase, smFind, h] using ih

theorem smFind_smErase_ne (m : SMap α) {k j : Nat} (h : j ≠ k) : smFind (smErase m k) j = smFind m j := by
  induction m with
  | nil => simp [smErase, smFind]
  | cons e t ih =>
    obtain ⟨k', v'⟩ := e
    by_cases h1 : k' = k
    · subst h1; simpa [smErase, smFind, Ne.symm h] using ih
    · by_cases h2 : k' = j
      · subst h2; simp [smErase, smFind, h1]
      · simpa [smErase, smFind, h1, h2] using ih

@[simp] theorem smGet_smInsert_same (m : SMap α) (k : Nat) (v d : α) : smGet (smInsert m k v) k d = v := by
  simp [smGet, smFind_smInsert_same]

theorem smGet_smInsert_ne (m : SMap α) {k j : Nat} (v d : α) (h : j ≠ k) : smGet (smInsert m k v) j d = smGet m j d := by
  simp [smGet, smFind_smInsert_ne m v h]

@[simp] theorem smGet_smSet_same [DecidableEq α] (m : SMap α) (k : Nat) (v d : α) : smGet (smSet m k v d) k d = v := by
  by_cases h : v = d
  · simp [smSet, h, smGet, smFind_smErase_same]
  · simp [smSet, h]

theorem smGet_smSet_ne [DecidableEq α] (m : SMap α) {k j : Nat} (v d e : α) (h : j ≠ k) :
    smGet (smSet m k v d) j e = smGet m j e := by
  by_cases hv : v = d
  · simp [smSet, hv, smGet, smFind_smErase_ne m h]
  · simp [smSet, hv, smGet_smInsert_ne m v e h]

-- The canonical form ------------------------------------------------------------------------------------------------------------

theorem smRising_mono {m : SMap α} {a b : Nat} (h : smRising b m = true) (hab : a ≤ b) : smRising a m = true := by
  cases m with
  | nil => rfl
  | cons e t => simp only [smRising, Bool.and_eq_true, decide_eq_true_eq] at *; exact ⟨by omega, h.2⟩

theorem smRising_smInsert (m : SMap α) (k : Nat) (v : α) :
    ∀ lo, smRising lo m = true → lo ≤ k → smRising lo (smInsert m k v) = true := by
  induction m with
  | nil => intro lo _ h; simp [smInsert, smRising, h]
  | cons e t ih =>
    obtain ⟨k', v'⟩ := e
    intro lo h hk
    simp only [smRising, Bool.and_eq_true, decide_eq_true_eq] at h
    by_cases h1 : k' = k
    · subst h1; simp [smInsert, smRising, h]
    · by_cases h2 : k < k'
      · simp only [smInsert, h1, h2, if_true, if_false, smRising, Bool.and_eq_true, decide_eq_true_eq]
        exact ⟨hk, by omega, h.2⟩
      · simp only [smInsert, h1, h2, if_false, smRising, Bool.and_eq_true, decide_eq_true_eq]
        exact ⟨h.1, ih _ h.2 (by omega)⟩

theorem smRising_filter (m : SMap α) (p : Nat × α → Bool) : ∀ lo, smRising lo m = true → smRising lo (m.filter p) = true := by
  induction m with
  | nil => intro lo h; exact h
  | cons e t ih =>
    obtain ⟨k', v'⟩ := e
    intro lo h
    simp only [smRising, Bool.and_eq_true, decide_eq_true_eq] at h
    by_cases hp : p (k', v') = true
    · simp only [List.filter, hp, smRising, Bool.and_eq_true, decide_eq_true_eq]
      exact ⟨h.1, ih _ h.2⟩
    · simp only [List.filter, hp]
      exact ih _ (smRising_mono h.2 (by omega))

theorem all_smInsert (m : SMap α) (k : Nat) (v : α) (p : Nat × α → Bool) (hm : m.all p = true) (hv : p (k, v) = true) :
    (smInsert m k v).all p = true := by
  induction m with
  | nil => simp [smInsert, hv]
  | cons e t ih =>
    obtain ⟨k', v'⟩ := e
    simp only [List.all_cons, Bool.and_eq_true] at hm
    by_cases h1 : k' = k
    · simp [smInsert, h1, hv]; simpa using hm.2
    · by_cases h2 : k < k'
      · simp [smInsert, h1, h2, hv, hm.1]; simpa using hm.2
      · simp [smInsert, h1, h2, hm.1]; simpa using ih hm.2

/-- Listing a value that is not the default keeps the canonical form. -/
theorem smWf_smInsert [DecidableEq α] {m : SMap α} {d : Nat → α} (k : Nat) (v : α) (h : smWf m d = true) (hv : v ≠ d k) :
    smWf (smInsert m k v) d = true := by
  simp only [smWf, Bool.and_eq_true] at *
  exact ⟨smRising_smInsert m k v 0 h.1 (Nat.zero_le _), all_smInsert m k v _ h.2 (by simpa using hv)⟩

/-- Removing entries keeps the canonical form. -/
theorem smWf_filter [DecidableEq α] {m : SMap α} {d : Nat → α} (p : Nat × α → Bool) (h : smWf m d = true) :
    smWf (m.filter p) d = true := by
  simp only [smWf, Bool.and_eq_true] at *
  refine ⟨smRising_filter m p 0 h.1, ?_⟩
  simp only [List.all_eq_true, List.mem_filter] at *
  exact fun x hx => h.2 x hx.1

theorem smWf_smErase [DecidableEq α] {m : SMap α} {d : Nat → α} (k : Nat) (h : smWf m d = true) : smWf (smErase m k) d = true :=
  smWf_filter _ h

/-- Every write keeps the canonical form. -/
theorem smWf_smSet [DecidableEq α] {m : SMap α} {d : Nat → α} (k : Nat) (v : α) (h : smWf m d = true) :
    smWf (smSet m k v (d k)) d = true := by
  by_cases hv : v = d k
  · simp [smSet, hv, smWf_smErase k h]
  · simp [smSet, hv, smWf_smInsert k v h hv]

end Sys2Proof.Machine
end

