-- ==== Sys2Proof/Laws/Bits.lean ====
section
/-! SUPPORT. Laws of bit fields and of the register store: a read of what was written, and that other fields and other registers
stay. -/

namespace Sys2Proof.Machine

theorem getLsbD_fmask (hi lo i : Nat) : (fmask hi lo).getLsbD i = (decide (i < 64) && decide (lo ≤ i) && decide (i ≤ hi)) := by
  simp only [fmask, BitVec.getLsbD_shiftLeft, BitVec.getLsbD_setWidth, BitVec.getLsbD_allOnes]
  by_cases h1 : i < 64 <;> by_cases h2 : lo ≤ i <;> by_cases h3 : i ≤ hi <;> simp [h1, h2, h3] <;> omega

theorem getLsbD_fput (w : Word) (hi lo v i : Nat) (h : i < 64) :
    (fput w hi lo v).getLsbD i = if lo ≤ i ∧ i ≤ hi then v.testBit (i - lo) else w.getLsbD i := by
  simp only [fput, BitVec.getLsbD_or, BitVec.getLsbD_and, BitVec.getLsbD_not, getLsbD_fmask, BitVec.getLsbD_shiftLeft,
    BitVec.getLsbD_setWidth, BitVec.getLsbD_ofNat]
  by_cases h2 : lo ≤ i <;> by_cases h3 : i ≤ hi
  · have : i - lo < hi + 1 - lo := by omega
    have h64 : i - lo < 64 := by omega
    simp [h, h2, h3, this, h64]
  · have : ¬ i - lo < hi + 1 - lo := by omega
    simp [h, h3, this]
  · simp [h, h2, show i < lo by omega]
  · simp [h, h2, show i < lo by omega]

/-- A field reads what was written to it. -/
theorem fget_fput_same (w : Word) {hi lo : Nat} (v : Nat) (h : hi < 64) :
    fget (fput w hi lo v) hi lo = v % 2 ^ (hi + 1 - lo) := by
  have : (fput w hi lo v).extractLsb' lo (hi + 1 - lo) = BitVec.ofNat (hi + 1 - lo) v := by
    apply BitVec.eq_of_getLsbD_eq
    intro i hi'
    rw [BitVec.getLsbD_extractLsb', getLsbD_fput _ _ _ _ _ (by omega), BitVec.getLsbD_ofNat]
    simp [hi', show lo + i ≤ hi by omega, show lo ≤ lo + i by omega]
  rw [fget, this, BitVec.toNat_ofNat]

/-- A field that shares no bit with the one written stays. -/
theorem fget_fput_disj (w : Word) {hi lo h' l' : Nat} (v : Nat) (h : h' < 64) (hd : h' < lo ∨ hi < l') :
    fget (fput w hi lo v) h' l' = fget w h' l' := by
  unfold fget
  congr 1
  apply BitVec.eq_of_getLsbD_eq
  intro i hi'
  rw [BitVec.getLsbD_extractLsb', BitVec.getLsbD_extractLsb', getLsbD_fput _ _ _ _ _ (by omega)]
  have : ¬ (lo ≤ l' + i ∧ l' + i ≤ hi) := by omega
  simp [this]

theorem fget_lt (w : Word) (hi lo : Nat) : fget w hi lo < 2 ^ (hi + 1 - lo) := (w.extractLsb' lo (hi + 1 - lo)).isLt

-- The register store ------------------------------------------------------------------------------------------------------------

theorem regCtor_inj {r r' : Reg} (h : r.ctorIdx = r'.ctorIdx) : r = r' := by
  rw [← Reg.ofNat_ctorIdx r, ← Reg.ofNat_ctorIdx r', h]

/-- Two different places of the register store have different keys. -/
theorem regKey_ne {r r' : Reg} {u u' i i' : Nat} (hu : u < 32) (hu' : u' < 32) (hi : i < 2097152) (hi' : i' < 2097152)
    (h : r ≠ r' ∨ u ≠ u' ∨ i ≠ i') : regKey r u i ≠ regKey r' u' i' := by
  intro e
  simp only [regKey] at e
  rw [Nat.mod_eq_of_lt hu, Nat.mod_eq_of_lt hu', Nat.mod_eq_of_lt hi, Nat.mod_eq_of_lt hi'] at e
  have h1 : i = i' := by omega
  have h2 : u = u' := by omega
  have h3 : r.ctorIdx = r'.ctorIdx := by omega
  rcases h with h | h | h
  · exact h (regCtor_inj h3)
  · exact h h2
  · exact h h1

/-- Two registers share no key, at whatever unit and index. -/
theorem regKey_ne_reg {r r' : Reg} (u u' i i' : Nat) (h : r ≠ r') : regKey r u i ≠ regKey r' u' i' := by
  intro e
  simp only [regKey] at e
  exact h (regCtor_inj (by omega))

theorem rget_rset_ne_reg (m : RegFile) {r r' : Reg} (u u' i i' : Nat) (w : Word) (h : r' ≠ r) :
    rget (rset m r u i w) r' u' i' = rget m r' u' i' := by
  simp only [rget, rset]
  exact smGet_smSet_ne m _ _ _ (regKey_ne_reg u' u i' i h)

theorem rget_rset_same (m : RegFile) (r : Reg) (u i : Nat) (w : Word) : rget (rset m r u i w) r u i = w := by
  simp [rget, rset, smGet_smSet_same]

theorem rget_rset_ne (m : RegFile) {r r' : Reg} {u u' i i' : Nat} (w : Word) (hu : u < 32) (hu' : u' < 32) (hi : i < 2097152)
    (hi' : i' < 2097152) (h : r' ≠ r ∨ u' ≠ u ∨ i' ≠ i) : rget (rset m r u i w) r' u' i' = rget m r' u' i' := by
  simp only [rget, rset]
  exact smGet_smSet_ne m _ _ _ (regKey_ne hu' hu hi' hi h)

end Sys2Proof.Machine
end

