-- ==== Sys2Proof/Laws/Registers.lean ====
section
/-! SUPPORT. Laws of the register operations on the device: a field reads what was written to it, and every other field stays. -/

namespace Sys2Proof.Machine

@[simp] theorem Dev.rdw_wrw_same (d : Dev) (r : Reg) (u i : Nat) (w : Word) : (d.wrw r u i w).rdw r u i = w :=
  rget_rset_same _ _ _ _ _

theorem Dev.rdw_wrw_ne (d : Dev) {r r' : Reg} {u u' i i' : Nat} (w : Word) (hu : u < 32) (hu' : u' < 32) (hi : i < 2097152)
    (hi' : i' < 2097152) (h : r' ≠ r ∨ u' ≠ u ∨ i' ≠ i) : (d.wrw r u i w).rdw r' u' i' = d.rdw r' u' i' :=
  rget_rset_ne _ _ hu hu' hi hi' h

/-- A register write leaves every other register, at whatever unit and index. -/
theorem Dev.rdw_wrw_ne_reg (d : Dev) {r r' : Reg} (u u' i i' : Nat) (w : Word) (h : r' ≠ r) :
    (d.wrw r u i w).rdw r' u' i' = d.rdw r' u' i' := rget_rset_ne_reg _ _ _ _ _ _ h

theorem fldGet_fldPut_ne_reg (m : RegFile) {f g : Fld} (u u' i i' v : Nat) (h : g.reg ≠ f.reg) :
    fldGet (fldPut m f u i v) g u' i' = fldGet m g u' i' := by
  simp only [fldGet, fldPut]
  rw [rget_rset_ne_reg _ _ _ _ _ _ h]

theorem Dev.rd_wr_ne_reg (d : Dev) {f g : Fld} (u u' i i' v : Nat) (h : g.reg ≠ f.reg) :
    (d.wr f u i v).rd g u' i' = d.rd g u' i' := fldGet_fldPut_ne_reg _ _ _ _ _ _ h

theorem fldGet_fldPut_same (m : RegFile) (f : Fld) (u i v : Nat) (h : f.hi < 64) :
    fldGet (fldPut m f u i v) f u i = v % 2 ^ (f.hi + 1 - f.lo) := by
  simp [fldGet, fldPut, rget_rset_same, fget_fput_same _ _ h]

theorem fldGet_fldPut_ne (m : RegFile) {f g : Fld} {u u' i i' : Nat} (v : Nat) (hu : u < 32) (hu' : u' < 32)
    (hi : i < 2097152) (hi' : i' < 2097152) (h : g.reg ≠ f.reg ∨ u' ≠ u ∨ i' ≠ i) :
    fldGet (fldPut m f u i v) g u' i' = fldGet m g u' i' := by
  simp only [fldGet, fldPut]
  rw [rget_rset_ne _ _ hu hu' hi hi' h]

/-- Another field of the same register stays, at every place. -/
theorem fldGet_fldPut_disj (m : RegFile) {f g : Fld} {u u' i i' : Nat} (v : Nat) (hu : u < 32) (hu' : u' < 32)
    (hi : i < 2097152) (hi' : i' < 2097152) (hg : g.hi < 64) (h : g.hi < f.lo ∨ f.hi < g.lo) :
    fldGet (fldPut m f u i v) g u' i' = fldGet m g u' i' := by
  by_cases hp : g.reg ≠ f.reg ∨ u' ≠ u ∨ i' ≠ i
  · exact fldGet_fldPut_ne m v hu hu' hi hi' hp
  · have h1 : g.reg = f.reg := Classical.byContradiction fun e => hp (Or.inl e)
    have h2 : u' = u := Classical.byContradiction fun e => hp (Or.inr (Or.inl e))
    have h3 : i' = i := Classical.byContradiction fun e => hp (Or.inr (Or.inr e))
    subst h2 h3
    simp only [fldGet, fldPut, h1, rget_rset_same]
    exact fget_fput_disj _ v hg h

theorem Dev.rd_wr_same (d : Dev) (f : Fld) (u i v : Nat) (h : f.hi < 64) :
    (d.wr f u i v).rd f u i = v % 2 ^ (f.hi + 1 - f.lo) := fldGet_fldPut_same _ _ _ _ _ h

theorem Dev.rd_wr_ne (d : Dev) {f g : Fld} {u u' i i' : Nat} (v : Nat) (hu : u < 32) (hu' : u' < 32) (hi : i < 2097152)
    (hi' : i' < 2097152) (h : g.reg ≠ f.reg ∨ u' ≠ u ∨ i' ≠ i) : (d.wr f u i v).rd g u' i' = d.rd g u' i' :=
  fldGet_fldPut_ne _ v hu hu' hi hi' h

theorem Dev.rd_wr_disj (d : Dev) {f g : Fld} {u u' i i' : Nat} (v : Nat) (hu : u < 32) (hu' : u' < 32) (hi : i < 2097152)
    (hi' : i' < 2097152) (hg : g.hi < 64) (h : g.hi < f.lo ∨ f.hi < g.lo) : (d.wr f u i v).rd g u' i' = d.rd g u' i' :=
  fldGet_fldPut_disj _ v hu hu' hi hi' hg h

/-- A register write keeps the register store canonical. -/
theorem Dev.wrw_wf (d : Dev) (r : Reg) (u i : Nat) (w : Word) (dflt : Nat → Word)
    (hd : dflt (regKey r u i) = resetVal r) (h : smWf d.regs dflt = true) : smWf (d.wrw r u i w).regs dflt = true := by
  have := smWf_smSet (regKey r u i) w h
  rw [hd] at this
  exact this

end Sys2Proof.Machine
end

