-- ==== Sys2Proof/Laws/Counting.lean ====
section
/-! SUPPORT. What counting, raising records and logging errors do to the register store: every register outside the counters and
the error registers concerned reads as before. -/

namespace Sys2Proof.Machine

/-- Two register stores agree outside the listed registers. -/
def SameRegs (l : List Reg) (a b : RegFile) : Prop := ∀ r u i, r ∉ l → rget b r u i = rget a r u i

theorem SameRegs.rfl' (l : List Reg) (a : RegFile) : SameRegs l a a := fun _ _ _ _ => rfl

theorem SameRegs.trans {l : List Reg} {a b c : RegFile} (h : SameRegs l a b) (k : SameRegs l b c) : SameRegs l a c :=
  fun r u i hr => (k r u i hr).trans (h r u i hr)

theorem SameRegs.weaken {l l' : List Reg} {a b : RegFile} (h : SameRegs l a b) (hl : ∀ r ∈ l, r ∈ l') : SameRegs l' a b :=
  fun r u i hr => h r u i fun h => hr (hl r h)

/-- A fold of steps that each keep the registers outside a list keeps them. -/
theorem SameRegs.foldl {α : Type} {l : List Reg} {f : RegFile → α → RegFile} (h : ∀ m x, SameRegs l m (f m x)) :
    ∀ (xs : List α) (m : RegFile), SameRegs l m (xs.foldl f m)
  | [], m => SameRegs.rfl' l m
  | x :: xs, m => (h m x).trans (SameRegs.foldl h xs (f m x))

theorem sameRegs_rset (m : RegFile) (r : Reg) (u i : Nat) (w : Word) : SameRegs [r] m (rset m r u i w) := by
  intro r' u' i' hr
  exact rget_rset_ne_reg m u u' i i' w fun e => hr (by simp [e])

theorem sameRegs_fldPut (m : RegFile) (f : Fld) (u i v : Nat) : SameRegs [f.reg] m (fldPut m f u i v) :=
  sameRegs_rset m f.reg u i _

theorem sameRegs_cntOne (m : RegFile) (c : CntSet) (ev : Nat) (port cls : Option Nat) (n i : Nat) :
    SameRegs [.CNT_VAL, .CNT_CTRL] m (cntOne m c ev port cls n i) := by
  unfold cntOne
  dsimp only
  split
  · have h1 := (sameRegs_fldPut m F.CNT_VAL_count c.unit (32 * c.set + i)
      (Nat.min (fldGet m F.CNT_VAL_count c.unit (32 * c.set + i) + n) (2 ^ 48 - 1))).weaken
      (l' := [.CNT_VAL, .CNT_CTRL]) (by simp)
    split
    · exact h1.trans ((sameRegs_fldPut _ F.CNT_CTRL_sat c.unit (32 * c.set) _).weaken (by simp))
    · exact h1
  · exact SameRegs.rfl' _ _

/-- Counting touches CNT_VAL and CNT_CTRL alone. -/
theorem sameRegs_cntRegs (m : RegFile) (c : CntSet) (ev : Nat) (port cls : Option Nat) (n : Nat) :
    SameRegs [.CNT_VAL, .CNT_CTRL] m (cntRegs m c ev port cls n) :=
  SameRegs.foldl (fun m i => sameRegs_cntOne m c ev port cls n i) _ m

/-- So does an occurrence with its port and class. -/
theorem sameRegs_cntPC (d : Dev) (c : CntSet) (ev : Nat) (port cls : Option Nat) (n : Nat) :
    SameRegs [.CNT_VAL, .CNT_CTRL] d.regs (d.cntPC c ev port cls n).regs := by
  unfold Dev.cntPC
  cases d.cntRuns c with
  | false => rewrite [if_neg Bool.false_ne_true]; exact SameRegs.rfl' _ d.regs
  | true => rewrite [if_pos rfl]; dsimp only; exact sameRegs_cntRegs d.regs c ev port cls n

/-- Counting events touches the counters alone. -/
theorem sameRegs_evtAt (d : Dev) (b : ErrBlk) (u k : Nat) (port cls : Option Nat) (n : Nat) :
    SameRegs [.FWD_EVT_CNT, .RED_EVT_CNT, .SYNC_EVT_CNT, .LANE_EVT_CNT, .D2D_EVT_CNT, .OE_EVT_CNT, .BYP_EVT_CNT,
      .TIME_EVT_CNT, .HUB_PWR_EVT_CNT, .CNT_VAL, .CNT_CTRL] d.regs (d.evtAt b u k port cls n).regs := by
  unfold Dev.evtAt
  dsimp only
  split
  · exact SameRegs.rfl' _ _
  · refine SameRegs.trans (b := (d.inc _ u k n).regs) ?_ ((sameRegs_cntPC _ _ _ _ _ _).weaken (by simp))
    refine (sameRegs_fldPut d.regs _ u k _).weaken ?_
    cases b <;> simp

/-- Counting with a port and class leaves every register but the counters. -/
theorem Dev.rdw_cntPC (d : Dev) (c : CntSet) (ev : Nat) (port cls : Option Nat) (n : Nat) {r : Reg} (u i : Nat)
    (h1 : r ≠ .CNT_VAL) (h2 : r ≠ .CNT_CTRL) : (d.cntPC c ev port cls n).rdw r u i = d.rdw r u i :=
  sameRegs_cntPC d c ev port cls n r u i (by simp [h1, h2])

theorem Dev.rd_cntPC (d : Dev) (c : CntSet) (ev : Nat) (port cls : Option Nat) (n : Nat) {f : Fld} (u i : Nat)
    (h1 : f.reg ≠ .CNT_VAL) (h2 : f.reg ≠ .CNT_CTRL) : (d.cntPC c ev port cls n).rd f u i = d.rd f u i := by
  have := d.rdw_cntPC c ev port cls n u i h1 h2
  simp only [Dev.rdw] at this
  simp only [Dev.rd, fldGet, this]

/-- Latching an error writes the block's three error registers alone. -/
theorem sameRegs_latchErr (d : Dev) (b : ErrBlk) (u code : Nat) (detail : Word) :
    SameRegs [b.first, b.next, b.count] d.regs (d.latchErr b u code detail).regs := by
  have hc : SameRegs [b.first, b.next, b.count] d.regs (d.inc ⟨b.count, 31, 0⟩ u 0 1).regs :=
    (sameRegs_fldPut d.regs ⟨b.count, 31, 0⟩ u 0 _).weaken (by simp)
  unfold Dev.latchErr
  dsimp only
  split
  · exact hc.trans ((sameRegs_rset _ b.first u 0 _).weaken (by simp))
  · split
    · exact hc.trans (((sameRegs_rset _ b.first u 0 _).weaken (by simp)).trans ((sameRegs_rset _ b.next u 0 _).weaken (by simp)))
    · exact hc.trans ((sameRegs_rset _ b.next u 0 _).weaken (by simp))

end Sys2Proof.Machine
end

