-- ==== Sys2Proof/Laws/PerInstr.lean ====
section
/-! SUPPORT. What a well-formed command carries: one lemma for each constructor. -/

namespace Sys2Proof.Laws.Shape

open Sys2Proof

/-- A well-formed command brings at most 16,608 bytes with it: a message, a record, or the signatures of a quote. -/
def Statement (i : Instr) : Prop := i.wellFormed = true → i.carried ≤ 16608

theorem none_carried {i : Instr} (h : i.carried = 0) : Statement i := fun _ => by omega

theorem kxx_carried {i : Instr} {m : Machine.KxxMsg} (hw : i.wellFormed = kxxOk m) (hc : i.carried = m.payload.length + m.tag.length) :
    Statement i := by
  intro h
  rw [hw] at h
  simp only [kxxOk, Bool.and_eq_true, decide_eq_true_eq, beq_iff_eq] at h
  omega

theorem powerGood : ∀ a1, Statement (.powerGood a1) := fun _ => none_carried rfl
theorem imageActivation : Statement .imageActivation := none_carried rfl
theorem trafficReady : Statement .trafficReady := none_carried rfl
theorem frameArrival : ∀ a1 a2 a3 a4, Statement (.frameArrival a1 a2 a3 a4) := fun _ _ _ _ => none_carried rfl
theorem homeDieAnswer : ∀ a1, Statement (.homeDieAnswer a1) := fun _ => none_carried rfl
theorem backingFetchReturn : ∀ a1 a2 a3, Statement (.backingFetchReturn a1 a2 a3) := fun _ _ _ => none_carried rfl
theorem backingFetchTimeout : ∀ a1 a2, Statement (.backingFetchTimeout a1 a2) := fun _ _ => none_carried rfl
theorem bandAcceptance : ∀ a1 a2, Statement (.bandAcceptance a1 a2) := fun _ _ => none_carried rfl
theorem egressSelect : ∀ a1, Statement (.egressSelect a1) := fun _ => none_carried rfl
theorem frameDeparture : ∀ a1 a2, Statement (.frameDeparture a1 a2) := fun _ _ => none_carried rfl
theorem stagingCellArrival : ∀ a1, Statement (.stagingCellArrival a1) := fun _ => none_carried rfl
theorem pullAcknowledge : ∀ a1, Statement (.pullAcknowledge a1) := fun _ => none_carried rfl
theorem sorusFrameTake : ∀ a1 a2, Statement (.sorusFrameTake a1 a2) := fun _ _ => none_carried rfl
theorem resultVerifyDone : ∀ a1 a2, Statement (.resultVerifyDone a1 a2) := fun _ _ => none_carried rfl
theorem slotTimeout : ∀ a1, Statement (.slotTimeout a1) := fun _ => none_carried rfl
theorem closedRecordRelease : ∀ a1, Statement (.closedRecordRelease a1) := fun _ => none_carried rfl
theorem spillResidency : ∀ a1, Statement (.spillResidency a1) := fun _ => none_carried rfl
theorem spillFetchReturn : ∀ a1 a2, Statement (.spillFetchReturn a1 a2) := fun _ _ => none_carried rfl
theorem spillFetchTimeout : ∀ a1, Statement (.spillFetchTimeout a1) := fun _ => none_carried rfl
theorem barrierTimeout : ∀ a1, Statement (.barrierTimeout a1) := fun _ => none_carried rfl
theorem lichenDigestReceive : ∀ a1 a2, Statement (.lichenDigestReceive a1 a2) := fun a1 a2 => fun h => by simp [Instr.wellFormed, Instr.carried] at *; omega
theorem lichenPendingTimeout : ∀ a1 a2 a3 a4, Statement (.lichenPendingTimeout a1 a2 a3 a4) := fun _ _ _ _ => none_carried rfl
theorem linkBlockTransmit : ∀ a1, Statement (.linkBlockTransmit a1) := fun _ => none_carried rfl
theorem linkBlockReceive : ∀ a1 a2 a3, Statement (.linkBlockReceive a1 a2 a3) := fun _ _ _ => none_carried rfl
theorem replayRequestReceive : ∀ a1 a2, Statement (.replayRequestReceive a1 a2) := fun _ _ => none_carried rfl
theorem replayTimerExpiry : ∀ a1, Statement (.replayTimerExpiry a1) := fun _ => none_carried rfl
theorem replayLimit : ∀ a1 a2, Statement (.replayLimit a1 a2) := fun _ _ => none_carried rfl
theorem blockLockLost : ∀ a1, Statement (.blockLockLost a1) := fun _ => none_carried rfl
theorem lossOfSignal : ∀ a1, Statement (.lossOfSignal a1) := fun _ => none_carried rfl
theorem creditReturnReceive : ∀ a1 a2 a3, Statement (.creditReturnReceive a1 a2 a3) := fun _ _ _ => none_carried rfl
theorem creditReturnPeriodic : ∀ a1, Statement (.creditReturnPeriodic a1) := fun _ => none_carried rfl
theorem creditAdvertReceive : ∀ a1 a2 a3 a4, Statement (.creditAdvertReceive a1 a2 a3 a4) := fun _ _ _ _ => none_carried rfl
theorem creditAdvertRepeat : ∀ a1, Statement (.creditAdvertRepeat a1) := fun _ => none_carried rfl
theorem linkControlUnknown : ∀ a1, Statement (.linkControlUnknown a1) := fun _ => none_carried rfl
theorem heartbeatRequestSend : ∀ a1, Statement (.heartbeatRequestSend a1) := fun _ => none_carried rfl
theorem heartbeatRequestReceive : ∀ a1 a2 a3, Statement (.heartbeatRequestReceive a1 a2 a3) := fun _ _ _ => none_carried rfl
theorem heartbeatAnswerReceive : ∀ a1 a2 a3 a4, Statement (.heartbeatAnswerReceive a1 a2 a3 a4) := fun _ _ _ _ => none_carried rfl
theorem heartbeatMiss : ∀ a1, Statement (.heartbeatMiss a1) := fun _ => none_carried rfl
theorem portLivenessRemoval : ∀ a1, Statement (.portLivenessRemoval a1) := fun _ => none_carried rfl
theorem pinnedMappingSwitch : ∀ a1 a2, Statement (.pinnedMappingSwitch a1 a2) := fun _ _ => none_carried rfl
theorem trainingStart : ∀ a1, Statement (.trainingStart a1) := fun _ => none_carried rfl
theorem trainingWordReceive : ∀ a1 a2 a3 a4 a5 a6 a7, Statement (.trainingWordReceive a1 a2 a3 a4 a5 a6 a7) := fun _ _ _ _ _ _ _ => none_carried rfl
theorem trainingTimeout : ∀ a1 a2, Statement (.trainingTimeout a1 a2) := fun _ _ => none_carried rfl
theorem trainingRetry : ∀ a1, Statement (.trainingRetry a1) := fun _ => none_carried rfl
theorem idleTimerExpiry : ∀ a1, Statement (.idleTimerExpiry a1) := fun _ => none_carried rfl
theorem idleEntryReceive : ∀ a1, Statement (.idleEntryReceive a1) := fun _ => none_carried rfl
theorem idleExit : ∀ a1, Statement (.idleExit a1) := fun _ => none_carried rfl
theorem idleExitFail : ∀ a1, Statement (.idleExitFail a1) := fun _ => none_carried rfl
theorem timeFrameSend : ∀ a1, Statement (.timeFrameSend a1) := fun _ => none_carried rfl
theorem timeFrameReceive : ∀ a1 a2 a3 a4 a5, Statement (.timeFrameReceive a1 a2 a3 a4 a5) := fun _ _ _ _ _ => none_carried rfl
theorem timeSourceTimeout : ∀ a1, Statement (.timeSourceTimeout a1) := fun _ => none_carried rfl
theorem timeCopyReload : ∀ a1 a2, Statement (.timeCopyReload a1 a2) := fun _ _ => none_carried rfl
theorem statisticsEpochBoundary : ∀ a1, Statement (.statisticsEpochBoundary a1) := fun _ => none_carried rfl
theorem shaperRefill : ∀ a1, Statement (.shaperRefill a1) := fun _ => none_carried rfl
theorem reserveBucketRefill : ∀ a1, Statement (.reserveBucketRefill a1) := fun _ => none_carried rfl
theorem bulkCapRefill : ∀ a1, Statement (.bulkCapRefill a1) := fun _ => none_carried rfl
theorem peerDepthRefresh : ∀ a1, Statement (.peerDepthRefresh a1) := fun _ => none_carried rfl
theorem samplingTick : ∀ a1, Statement (.samplingTick a1) := fun _ => none_carried rfl
theorem saturationDwell : ∀ a1 a2, Statement (.saturationDwell a1 a2) := fun _ _ => none_carried rfl
theorem auditPassStart : ∀ a1, Statement (.auditPassStart a1) := fun _ => none_carried rfl
theorem auditPassEnd : ∀ a1, Statement (.auditPassEnd a1) := fun _ => none_carried rfl
theorem tableCommandDone : ∀ a1, Statement (.tableCommandDone a1) := fun _ => none_carried rfl
theorem bankSwapApply : Statement .bankSwapApply := none_carried rfl
theorem drainTimerExpiry : ∀ a1, Statement (.drainTimerExpiry a1) := fun _ => none_carried rfl
theorem ageTick : ∀ a1, Statement (.ageTick a1) := fun _ => none_carried rfl
theorem crossDieTableChange : ∀ a1 a2, Statement (.crossDieTableChange a1 a2) := fun _ _ => none_carried rfl
theorem filterRebuildDone : ∀ a1 a2, Statement (.filterRebuildDone a1 a2) := fun _ _ => none_carried rfl
theorem knownAnswerTestDone : ∀ a1 a2, Statement (.knownAnswerTestDone a1 a2) := fun _ _ => none_carried rfl
theorem monitorSample : ∀ a1 a2 a3, Statement (.monitorSample a1 a2 a3) := fun _ _ _ => none_carried rfl
theorem subRequestReceive : ∀ a1 a2 a3 a4 a5, Statement (.subRequestReceive a1 a2 a3 a4 a5) := fun _ _ _ _ _ => none_carried rfl
theorem subFilterLocked : ∀ a1, Statement (.subFilterLocked a1) := fun _ => none_carried rfl
theorem subReadyReceive : ∀ a1 a2, Statement (.subReadyReceive a1 a2) := fun _ _ => none_carried rfl
theorem subModulatorLocked : ∀ a1, Statement (.subModulatorLocked a1) := fun _ => none_carried rfl
theorem subReceiverAdapted : ∀ a1, Statement (.subReceiverAdapted a1) := fun _ => none_carried rfl
theorem subMirrorRequestReceive : ∀ a1 a2, Statement (.subMirrorRequestReceive a1 a2) := fun _ _ => none_carried rfl
theorem subMirrorVerified : ∀ a1, Statement (.subMirrorVerified a1) := fun _ => none_carried rfl
theorem subMirrorGoodReceive : ∀ a1 a2, Statement (.subMirrorGoodReceive a1 a2) := fun _ _ => none_carried rfl
theorem subSwitchReceive : ∀ a1 a2 a3, Statement (.subSwitchReceive a1 a2 a3) := fun _ _ _ => none_carried rfl
theorem subSwitchBlock : ∀ a1, Statement (.subSwitchBlock a1) := fun _ => none_carried rfl
theorem subDoneReceive : ∀ a1 a2, Statement (.subDoneReceive a1 a2) := fun _ _ => none_carried rfl
theorem subRefuseReceive : ∀ a1 a2, Statement (.subRefuseReceive a1 a2) := fun _ _ => none_carried rfl
theorem subResend : ∀ a1 a2, Statement (.subResend a1 a2) := fun _ _ => none_carried rfl
theorem subTimeout : ∀ a1, Statement (.subTimeout a1) := fun _ => none_carried rfl
theorem feedRelease : ∀ a1, Statement (.feedRelease a1) := fun _ => none_carried rfl
theorem feedReadyTimeout : ∀ a1, Statement (.feedReadyTimeout a1) := fun _ => none_carried rfl
theorem heaterLoopUpdate : ∀ a1 a2 a3 a4 a5, Statement (.heaterLoopUpdate a1 a2 a3 a4 a5) := fun _ _ _ _ _ => none_carried rfl
theorem heaterUnlock : ∀ a1 a2, Statement (.heaterUnlock a1 a2) := fun _ _ => none_carried rfl
theorem calibrationCommitDone : ∀ a1 a2, Statement (.calibrationCommitDone a1 a2) := fun _ _ => none_carried rfl
theorem bypassVerifyComplete : ∀ a1 a2 a3 a4, Statement (.bypassVerifyComplete a1 a2 a3 a4) := fun _ _ _ _ => none_carried rfl
theorem bypassDarkInputCheck : ∀ a1 a2 a3, Statement (.bypassDarkInputCheck a1 a2 a3) := fun _ _ _ => none_carried rfl
theorem bypassTapSample : ∀ a1 a2 a3 a4, Statement (.bypassTapSample a1 a2 a3 a4) := fun _ _ _ _ => none_carried rfl
theorem bypassTrim : ∀ a1, Statement (.bypassTrim a1) := fun _ => none_carried rfl
theorem bypassRecordRead : ∀ a1 a2, Statement (.bypassRecordRead a1 a2) := fun _ _ => none_carried rfl
theorem flitReceive : ∀ a1 a2 a3 a4, Statement (.flitReceive a1 a2 a3 a4) := fun _ _ _ _ => none_carried rfl
theorem flitResendLimit : ∀ a1 a2, Statement (.flitResendLimit a1 a2) := fun _ _ => none_carried rfl
theorem wireRepair : ∀ a1 a2 a3, Statement (.wireRepair a1 a2 a3) := fun _ _ _ => none_carried rfl
theorem peerDieLost : ∀ a1, Statement (.peerDieLost a1) := fun _ => none_carried rfl
theorem ucieMeasurementAnswer : ∀ a1, Statement (.ucieMeasurementAnswer a1) := fun _ => none_carried rfl
theorem ucieMeasurementTimeout : Statement .ucieMeasurementTimeout := none_carried rfl
theorem ucieLinkDown : Statement .ucieLinkDown := none_carried rfl
theorem packageReset : ∀ a1, Statement (.packageReset a1) := fun _ => none_carried rfl
theorem referenceClockLoss : ∀ a1, Statement (.referenceClockLoss a1) := fun _ => none_carried rfl
theorem hubReset : Statement .hubReset := none_carried rfl
theorem headlessEntry : ∀ a1, Statement (.headlessEntry a1) := fun _ => none_carried rfl
theorem hubAttach : ∀ a1 a2, Statement (.hubAttach a1 a2) := fun _ _ => none_carried rfl
theorem headlessTimeout : ∀ a1, Statement (.headlessTimeout a1) := fun _ => none_carried rfl
theorem hubWatchdogExpiry : Statement .hubWatchdogExpiry := none_carried rfl
theorem fatalError : ∀ a1 a2, Statement (.fatalError a1 a2) := fun _ _ => none_carried rfl
theorem handshakeStall : ∀ a1, Statement (.handshakeStall a1) := fun _ => none_carried rfl
theorem fatalWindowClose : ∀ a1, Statement (.fatalWindowClose a1) := fun _ => none_carried rfl
theorem avsLoop : ∀ a1 a2 a3, Statement (.avsLoop a1 a2 a3) := fun _ _ _ => none_carried rfl
theorem speedMarginRecover : ∀ a1, Statement (.speedMarginRecover a1) := fun _ => none_carried rfl
theorem sheddingStepEnter : ∀ a1, Statement (.sheddingStepEnter a1) := fun _ => none_carried rfl
theorem sheddingStepExit : ∀ a1, Statement (.sheddingStepExit a1) := fun _ => none_carried rfl
theorem supplyFaultReset : Statement .supplyFaultReset := none_carried rfl
theorem railFault : ∀ a1, Statement (.railFault a1) := fun _ => none_carried rfl
theorem thermalStateChange : ∀ a1 a2, Statement (.thermalStateChange a1 a2) := fun _ _ => none_carried rfl
theorem thermalTrip : ∀ a1, Statement (.thermalTrip a1) := fun _ => none_carried rfl
theorem registerReadRequest : ∀ a1 a2 a3, Statement (.registerReadRequest a1 a2 a3) := fun _ _ _ => kxx_carried rfl rfl
theorem registerWriteRequest : ∀ a1 a2 a3 a4, Statement (.registerWriteRequest a1 a2 a3 a4) := fun _ _ _ _ => kxx_carried rfl rfl
theorem hello : ∀ a1 a2 a3, Statement (.hello a1 a2 a3) := fun _ _ _ => kxx_carried rfl rfl
theorem eventRetransmission : ∀ a1 a2 a3, Statement (.eventRetransmission a1 a2 a3) := fun _ _ _ => kxx_carried rfl rfl
theorem arpRequest : ∀ a1 a2, Statement (.arpRequest a1 a2) := fun _ _ => none_carried rfl
theorem managementFrameDiscard : ∀ a1 a2, Statement (.managementFrameDiscard a1 a2) := fun _ _ => none_carried rfl
theorem eventMessageSend : Statement .eventMessageSend := none_carried rfl
theorem fileBegin : ∀ a1 a2 a3, Statement (.fileBegin a1 a2 a3) := fun _ _ _ => kxx_carried rfl rfl
theorem fileData : ∀ a1 a2 a3, Statement (.fileData a1 a2 a3) := fun _ _ _ => kxx_carried rfl rfl
theorem fileCommit : ∀ a1 a2 a3, Statement (.fileCommit a1 a2 a3) := fun _ _ _ => kxx_carried rfl rfl
theorem fileAbort : ∀ a1 a2 a3, Statement (.fileAbort a1 a2 a3) := fun _ _ _ => kxx_carried rfl rfl
theorem fileTransferTimeout : Statement .fileTransferTimeout := none_carried rfl
theorem fileVerifyDone : ∀ a1, Statement (.fileVerifyDone a1) := fun _ => none_carried rfl
theorem blockQuiesced : ∀ a1, Statement (.blockQuiesced a1) := fun _ => none_carried rfl
theorem crozierIssue : ∀ a1 a2 a3, Statement (.crozierIssue a1 a2 a3) := fun _ _ _ => kxx_carried rfl rfl
theorem stageClaimReceive : ∀ a1 a2 a3 a4 a5, Statement (.stageClaimReceive a1 a2 a3 a4 a5) := fun _ _ _ _ _ => none_carried rfl
theorem stageBeaconReceive : ∀ a1 a2 a3 a4 a5, Statement (.stageBeaconReceive a1 a2 a3 a4 a5) := fun _ _ _ _ _ => none_carried rfl
theorem stageBeaconTimeout : Statement .stageBeaconTimeout := none_carried rfl
theorem stageClaimWon : Statement .stageClaimWon := none_carried rfl
theorem stageBeaconSend : Statement .stageBeaconSend := none_carried rfl
theorem stageStatusSend : Statement .stageStatusSend := none_carried rfl
theorem stageStatusReceive : ∀ a1 a2 a3 a4, Statement (.stageStatusReceive a1 a2 a3 a4) := fun _ _ _ _ => none_carried rfl
theorem stagePeerLost : ∀ a1, Statement (.stagePeerLost a1) := fun _ => none_carried rfl
theorem sidebandSilent : ∀ a1, Statement (.sidebandSilent a1) := fun _ => none_carried rfl
theorem cartridgeBringUp : ∀ a1 a2, Statement (.cartridgeBringUp a1 a2) := fun _ _ => none_carried rfl
theorem cartridgeIdentityRead : ∀ a1 a2, Statement (.cartridgeIdentityRead a1 a2) := fun a1 a2 => fun h => by simp [Instr.wellFormed, Instr.carried] at *; omega
theorem cartridgeCheck : ∀ a1 a2 a3, Statement (.cartridgeCheck a1 a2 a3) := fun a1 a2 a3 => fun h => by
  simp only [Instr.wellFormed, Instr.carried, Bool.or_eq_true, List.isEmpty_iff, beq_iff_eq] at *
  rcases h with h | h
  · simp [h]
  · omega
theorem cartridgeRemoval : ∀ a1, Statement (.cartridgeRemoval a1) := fun _ => none_carried rfl
theorem cartridgeTemperaturePoll : ∀ a1 a2 a3, Statement (.cartridgeTemperaturePoll a1 a2 a3) := fun _ _ _ => none_carried rfl
theorem quoteDone : ∀ a1 a2, Statement (.quoteDone a1 a2) := fun a1 a2 => fun h => by
  cases a1 <;> simp [Instr.wellFormed, Instr.carried] at *
  omega
theorem debugAccessAttempt : Statement .debugAccessAttempt := none_carried rfl
theorem flightRecordPeriodic : Statement .flightRecordPeriodic := none_carried rfl
theorem powerGoodLoss : Statement .powerGoodLoss := none_carried rfl
theorem supplyRailReturn : ∀ a1 a2, Statement (.supplyRailReturn a1 a2) := fun _ _ => none_carried rfl
theorem referenceClockReturn : ∀ a1, Statement (.referenceClockReturn a1) := fun _ => none_carried rfl
theorem gddr7CaseTrip : ∀ a1, Statement (.gddr7CaseTrip a1) := fun _ => none_carried rfl
theorem managementPortLink : ∀ a1 a2, Statement (.managementPortLink a1 a2) := fun _ _ => none_carried rfl

end Sys2Proof.Laws.Shape
end

