-- ==== Sys2Proof/Laws/Signatures.lean ====
section
/-! SUPPORT. A signature that the model makes verifies in the model (FIPS 205): `slhVerify_sign`. -/

namespace Sys2Proof.Laws

open Sys2Proof.Machine

-- Lengths -----------------------------------------------------------------------------------------------------------------------

theorem shaRound_length {w : Nat} (p : Sha2 w) (st : List (BitVec w)) (kw : BitVec w × BitVec w) : (shaRound p st kw).length = 8 := rfl

theorem shaRounds_length {w : Nat} (p : Sha2 w) (l : List (BitVec w × BitVec w)) (h : List (BitVec w)) (hh : h.length = 8) :
    (l.foldl (shaRound p) h).length = 8 := by
  induction l generalizing h with
  | nil => exact hh
  | cons x l ih => exact ih _ (shaRound_length p h x)

theorem shaBlocks_length {w : Nat} (p : Sha2 w) (n : Nat) (h : List (BitVec w)) (bs : List Byte) (hh : h.length = 8) :
    (shaBlocks p n h bs).length = 8 := by
  induction n generalizing h bs with
  | zero => exact hh
  | succ n ih => exact ih _ _ (by simp [shaBlock, shaRounds_length _ _ _ hh, hh])

theorem leBytes_length (n v : Nat) : (leBytes n v).length = n := by
  induction n generalizing v with
  | zero => rfl
  | succ n ih => simp [leBytes, ih]

theorem beBytes_length (n v : Nat) : (beBytes n v).length = n := by simp [beBytes, leBytes_length]

theorem sha2_length {w : Nat} (p : Sha2 w) (init : List (BitVec w)) (bs : List Byte) (h : init.length = 8) :
    (sha2 p init bs).length = 8 * (w / 8) := by
  unfold sha2
  simp only [List.length_flatMap, beBytes_length]
  rw [List.map_const', List.sum_replicate, shaBlocks_length _ _ _ _ h, smul_eq_mul]

theorem sha384_length (bs : List Byte) : (sha384 bs).length = 48 := by
  rw [sha384, List.length_take, sha2_length _ _ _ rfl]; rfl

theorem slhF_length (seed addr m : List Byte) : (slhF seed addr m).length = 24 := by
  rw [slhF, List.length_take, sha256, sha2_length _ _ _ rfl]; rfl

theorem slhT_length (seed addr m : List Byte) : (slhT seed addr m).length = 24 := by
  rw [slhT, List.length_take, sha512, sha2_length _ _ _ rfl]; rfl

-- Chains ------------------------------------------------------------------------------------------------------------------------

theorem wotsChain_add (seed : List Byte) (layer tree pair chain a b i : Nat) (x : List Byte) :
    wotsChain seed layer tree pair chain b (i + a) (wotsChain seed layer tree pair chain a i x) =
      wotsChain seed layer tree pair chain (a + b) i x := by
  induction a generalizing i x with
  | zero => simp [wotsChain]
  | succ a ih =>
    rw [show a + 1 + b = (a + b) + 1 by omega, wotsChain, wotsChain, ← ih, show i + (a + 1) = i + 1 + a by omega]

theorem wotsChain_length (seed : List Byte) (layer tree pair chain n i : Nat) (x : List Byte) (h : x.length = 24) :
    (wotsChain seed layer tree pair chain n i x).length = 24 := by
  induction n generalizing i x with
  | zero => exact h
  | succ n ih => exact ih _ _ (slhF_length _ _ _)

theorem wotsDigits_le (m : List Byte) (c : Nat) : (wotsDigits m).getD c 0 ≤ 15 := by
  have h : ∀ x ∈ wotsDigits m, x ≤ 15 := by
    intro x hx
    simp only [wotsDigits, List.mem_append, List.mem_flatMap, List.mem_cons, List.not_mem_nil, or_false] at hx
    rcases hx with ⟨b, -, rfl | rfl⟩ | rfl | rfl | rfl
    · have := b.isLt; omega
    all_goals omega
  rw [List.getD_eq_getElem?_getD]
  cases hq : (wotsDigits m)[c]? with
  | none => simp
  | some x => exact h x (List.mem_of_getElem? hq)

/-- A one-time signature leads to the one-time public key. -/
theorem wotsFrom_sign (k : SlhKey) (layer tree pair : Nat) (m : List Byte) :
    wotsFrom k.seed layer tree pair (k.wotsSign layer tree pair m) m = k.wotsLeaf layer tree pair := by
  unfold wotsFrom SlhKey.wotsLeaf SlhKey.wotsSign
  congr 1
  refine List.map_congr_left fun c hc => ?_
  have hc : c < 51 := by simpa using hc
  have hx := wotsDigits_le m c
  simp only [List.getD_eq_getElem?_getD, List.getElem?_map, List.getElem?_range hc, Option.map_some, Option.getD_some]
  rw [← List.getD_eq_getElem?_getD]
  generalize hg : (wotsDigits m).getD c 0 = x at hx ⊢
  have := wotsChain_add k.seed layer tree pair c x (15 - x) 0 (k.chainSecret layer tree pair c)
  rw [Nat.zero_add] at this
  rw [this, show x + (15 - x) = 15 by omega]

-- Trees -------------------------------------------------------------------------------------------------------------------------

/-- The path beside node `i` at height `z` leads from it to the node `n` heights above. -/
theorem climb_path (leaf : Nat → List Byte) (h : Nat → Nat → List Byte → List Byte) (n z i : Nat) :
    climb h ((List.range n).map fun q => treeNode leaf h (z + q) (sibling (i / 2 ^ q))) z i (treeNode leaf h z i) =
      treeNode leaf h (z + n) (i / 2 ^ n) := by
  induction n generalizing z i with
  | zero => simp [climb]
  | succ n ih =>
    have hs : (if i % 2 = 0 then treeNode leaf h z i ++ treeNode leaf h z (sibling i)
        else treeNode leaf h z (sibling i) ++ treeNode leaf h z i) =
        treeNode leaf h z (2 * (i / 2)) ++ treeNode leaf h z (2 * (i / 2) + 1) := by
      unfold sibling
      split
      · rw [show 2 * (i / 2) = i by omega]
      · rw [show 2 * (i / 2) + 1 = i by omega, show 2 * (i / 2) = i - 1 by omega]
    rw [List.range_succ_eq_map, List.map_cons, List.map_map, climb]
    simp only [Nat.add_zero, Nat.pow_zero, Nat.div_one]
    rw [hs]
    change climb h _ (z + 1) (i / 2) (treeNode leaf h (z + 1) (i / 2)) = _
    have := ih (z + 1) (i / 2)
    rw [show z + (n + 1) = z + 1 + n by omega, show i / 2 ^ (n + 1) = i / 2 / 2 ^ n by rw [Nat.pow_succ', Nat.div_div_eq_div_mul], ← this]
    congr 1
    refine List.map_congr_left fun q _ => ?_
    simp only [Function.comp_apply, Nat.succ_eq_add_one]
    rw [show z + (q + 1) = z + 1 + q by omega, show i / 2 ^ (q + 1) = i / 2 / 2 ^ q by rw [Nat.pow_succ', Nat.div_div_eq_div_mul]]

theorem climb_authPath (leaf : Nat → List Byte) (h : Nat → Nat → List Byte → List Byte) (n i : Nat) :
    climb h (authPath leaf h n i) 0 i (leaf i) = treeNode leaf h n (i / 2 ^ n) := by
  have := climb_path leaf h n 0 i
  simpa [authPath, treeNode] using this

theorem treeNode_length (leaf : Nat → List Byte) (h : Nat → Nat → List Byte → List Byte) (hl : ∀ i, (leaf i).length = 24)
    (hh : ∀ z i m, (h z i m).length = 24) (z i : Nat) : (treeNode leaf h z i).length = 24 := by
  cases z with
  | zero => exact hl i
  | succ z => exact hh _ _ _

theorem wotsLeaf_length (k : SlhKey) (layer tree pair : Nat) : (k.wotsLeaf layer tree pair).length = 24 := slhT_length _ _ _

theorem root_length (k : SlhKey) (layer tree : Nat) : (k.root layer tree).length = 24 :=
  treeNode_length _ _ (wotsLeaf_length k layer tree) (fun _ _ _ => slhT_length _ _ _) _ _

theorem treesSign_length (k : SlhKey) (n layer tree leaf : Nat) (m : List Byte) : (k.treesSign n layer tree leaf m).length = 60 * n := by
  induction n generalizing layer tree leaf m with
  | zero => rfl
  | succ n ih => simp [SlhKey.treesSign, ih, SlhKey.wotsSign, authPath]; omega

/-- The layers of a signature lead to the root of the uppermost of them. -/
theorem treesRoot_sign (k : SlhKey) (n layer tree leaf : Nat) (m : List Byte) (hleaf : leaf < 512) :
    treesRoot k.seed (n + 1) layer tree leaf (k.treesSign (n + 1) layer tree leaf m) m = k.root (layer + n) (tree / 512 ^ n) := by
  induction n generalizing layer tree leaf m with
  | zero =>
    have hw : (k.wotsSign layer tree leaf m).length = 51 := by simp [SlhKey.wotsSign]
    have ha : (authPath (k.wotsLeaf layer tree) (keyJoin k.seed layer tree) 9 leaf).length = 9 := by simp [authPath]
    rw [treesRoot, SlhKey.treesSign, treesRoot]
    simp only [SlhKey.treesSign, List.append_nil]
    rw [List.drop_left' hw, List.take_left' hw, List.take_of_length_le (Nat.le_of_eq ha), wotsFrom_sign, climb_authPath,
      Nat.div_eq_of_lt (a := leaf) (by simpa using hleaf), Nat.pow_zero, Nat.div_one, Nat.add_zero]
    rfl
  | succ n ih =>
    have hw : (k.wotsSign layer tree leaf m).length = 51 := by simp [SlhKey.wotsSign]
    have ha : (authPath (k.wotsLeaf layer tree) (keyJoin k.seed layer tree) 9 leaf).length = 9 := by simp [authPath]
    rw [treesRoot, SlhKey.treesSign, List.append_assoc, List.drop_left' hw, List.take_left' hw, List.take_left' ha, wotsFrom_sign,
      climb_authPath, Nat.div_eq_of_lt (a := leaf) (by simpa using hleaf)]
    rw [show 60 = 51 + 9 from rfl, ← List.drop_drop, List.drop_left' hw, List.drop_left' ha]
    have := ih (layer + 1) (tree / 512) (tree % 512) (k.root layer tree) (Nat.mod_lt _ (by omega))
    rw [show layer + (n + 1) = layer + 1 + n by omega, show tree / 512 ^ (n + 1) = tree / 512 / 512 ^ n by
      rw [Nat.pow_succ', Nat.div_div_eq_div_mul], ← this]
    rfl

/-- The small trees of a signature lead to their roots. -/
theorem forsRoots_sign (k : SlhKey) (tree pair : Nat) (leaves : List Nat) (rest : List (List Byte)) :
    forsRoots k.seed tree pair leaves (k.forsSign tree pair leaves ++ rest) =
      leaves.map fun i => k.forsNode tree pair 14 (i / 2 ^ 14) := by
  induction leaves with
  | nil => rfl
  | cons i is ih =>
    have ha : (authPath (fun i => forsLeaf k.seed tree pair i (k.forsSecret tree pair i)) (forsJoin k.seed tree pair) 14 i).length = 14 := by
      simp [authPath]
    rw [SlhKey.forsSign, List.flatMap_cons, forsRoots, List.map_cons]
    simp only [List.cons_append, List.append_assoc, List.drop_succ_cons, List.drop_zero, List.getD_cons_zero]
    rw [List.take_left' ha, List.drop_left' ha]
    rw [show (List.flatMap _ is) = k.forsSign tree pair is from rfl, ih]
    congr 1
    exact climb_authPath (fun i => forsLeaf k.seed tree pair i (k.forsSecret tree pair i)) _ 14 i

-- The whole signature -----------------------------------------------------------------------------------------------------------

/-- Elements of 24 bytes come back out of their concatenation. -/
theorem flatten_cut (l : List (List Byte)) (h : ∀ x ∈ l, x.length = 24) :
    (List.range l.length).map (fun i => (l.flatten.drop (24 * i)).take 24) = l := by
  induction l with
  | nil => rfl
  | cons x l ih =>
    have hx : x.length = 24 := h x (by simp)
    rw [List.length_cons, List.range_succ_eq_map, List.map_cons, List.map_map, List.flatten_cons]
    congr 1
    · rw [Nat.mul_zero, List.drop_zero, List.take_left' hx]
    · rw [← ih fun y hy => h y (by simp [hy])]
      simp only [List.length_map, List.length_range]
      refine List.map_congr_left fun i _ => ?_
      simp only [Function.comp_apply, Nat.succ_eq_add_one]
      rw [show 24 * (i + 1) = 24 + 24 * i by omega, ← List.drop_drop, List.drop_left' hx,
        ih fun y hy => h y (by simp [hy])]

theorem authPath_lengths (leaf : Nat → List Byte) (h : Nat → Nat → List Byte → List Byte) (hl : ∀ i, (leaf i).length = 24)
    (hh : ∀ z i m, (h z i m).length = 24) (n i : Nat) : ∀ x ∈ authPath leaf h n i, x.length = 24 := by
  intro x hx
  obtain ⟨z, -, rfl⟩ := List.mem_map.1 hx
  exact treeNode_length leaf h hl hh _ _

theorem treesSign_lengths (k : SlhKey) (n layer tree leaf : Nat) (m : List Byte) :
    ∀ x ∈ k.treesSign n layer tree leaf m, x.length = 24 := by
  induction n generalizing layer tree leaf m with
  | zero => simp [SlhKey.treesSign]
  | succ n ih =>
    intro x hx
    rw [SlhKey.treesSign, List.mem_append, List.mem_append] at hx
    rcases hx with (hx | hx) | hx
    · obtain ⟨c, -, rfl⟩ := List.mem_map.1 hx
      exact wotsChain_length _ _ _ _ _ _ _ _ (slhF_length _ _ _)
    · exact authPath_lengths _ _ (wotsLeaf_length k layer tree) (fun _ _ _ => slhT_length _ _ _) _ _ x hx
    · exact ih _ _ _ _ x hx

theorem forsSign_lengths (k : SlhKey) (tree pair : Nat) (leaves : List Nat) : ∀ x ∈ k.forsSign tree pair leaves, x.length = 24 := by
  intro x hx
  obtain ⟨i, -, hx⟩ := List.mem_flatMap.1 hx
  rcases List.mem_cons.1 hx with rfl | hx
  · exact slhF_length _ _ _
  · exact authPath_lengths _ _ (fun _ => slhF_length _ _ _) (fun _ _ _ => slhT_length _ _ _) _ _ x hx

theorem forsSign_length (k : SlhKey) (tree pair : Nat) (leaves : List Nat) : (k.forsSign tree pair leaves).length = 15 * leaves.length := by
  induction leaves with
  | nil => rfl
  | cons i is ih =>
    have : (k.forsSign tree pair (i :: is)).length = 15 + (k.forsSign tree pair is).length := by
      simp [SlhKey.forsSign, authPath]; omega
    rw [this, ih, List.length_cons]; omega

theorem elements_length (k : SlhKey) (rand msg : List Byte) : (k.elements rand msg).length = 676 := by
  simp [SlhKey.elements, forsSign_length, treesSign_length, slhLeaves]

theorem elements_lengths (k : SlhKey) (rand msg : List Byte) : ∀ x ∈ k.elements rand msg, x.length = 24 := by
  intro x hx
  rcases List.mem_cons.1 hx with rfl | hx
  · rw [List.length_take]
    unfold hmacOf
    rw [sha512, sha2_length _ _ _ rfl]; rfl
  · rcases List.mem_append.1 hx with hx | hx
    · exact forsSign_lengths _ _ _ _ x hx
    · exact treesSign_lengths _ _ _ _ _ _ x hx

theorem slhCut_sign (k : SlhKey) (rand msg : List Byte) : slhCut (k.sign rand msg) = k.elements rand msg := by
  have := flatten_cut _ (elements_lengths k rand msg)
  rwa [elements_length] at this

theorem sign_length (k : SlhKey) (rand msg : List Byte) : (k.sign rand msg).length = 16224 := by
  have : ∀ l : List (List Byte), (∀ x ∈ l, x.length = 24) → l.flatten.length = 24 * l.length := by
    intro l hl
    induction l with
    | nil => rfl
    | cons x l ih =>
      rw [List.flatten_cons, List.length_append, hl x (by simp), ih fun y hy => hl y (by simp [hy]), List.length_cons]; omega
  rw [SlhKey.sign, this _ (elements_lengths k rand msg), elements_length]

/-- What a key signs verifies under its public key. -/
theorem slhVerify_sign (k : SlhKey) (rand msg : List Byte) (hs : k.seed.length = 24) : slhVerify k.pub msg (k.sign rand msg) = true := by
  have hp : k.pub.length = 48 := by simp [SlhKey.pub, hs, root_length]
  have h1 : k.pub.take 24 = k.seed := List.take_left' hs
  have h2 : k.pub.drop 24 = k.root 6 0 := List.drop_left' hs
  unfold slhVerify
  simp only [sign_length, hp, h1, h2, slhCut_sign, beq_self_eq_true, Bool.true_and, beq_iff_eq]
  unfold SlhKey.elements
  simp only [List.getD_cons_zero, List.drop_succ_cons, List.drop_zero]
  generalize slhDigest _ k.pub (slhPure msg) = dg
  rw [forsRoots_sign]
  have hf : (k.forsSign (slhTree dg) (slhLeaf dg) (slhLeaves dg)).length = 255 := by rw [forsSign_length]; simp [slhLeaves]
  rw [List.drop_left' hf]
  have ht : slhTree dg < 2 ^ 54 := Nat.mod_lt _ (by decide)
  have hl : slhLeaf dg < 512 := Nat.mod_lt _ (by decide)
  rw [treesRoot_sign k 6 0 _ _ _ hl, Nat.zero_add, Nat.div_eq_of_lt (by simpa using ht)]

end Sys2Proof.Laws
end

