-- ==== Sys2Proof/Laws/State.lean ====
section
/-! SUPPORT. What each shared operation on the device leaves as it was, component by component, and what a command leaves of the
machine around the device. -/

namespace Sys2Proof.Machine

/-- Threading a list through an operation keeps what each step of it keeps. -/
theorem Dev.each_same {α β : Type} (g : Dev → β) {f : Dev → α → Dev} (h : ∀ d x, g (f d x) = g d) (d : Dev) (l : List α) :
    g (d.each l f) = g d := by
  induction l generalizing d with
  | nil => rfl
  | cons x t ih => exact (ih (f d x)).trans (h d x)

@[simp] theorem Dev.wrw_keeps (d : Dev) (r : Reg) (u i : Nat) (w : Word) :
    (d.wrw r u i w).tick = d.tick ∧ (d.wrw r u i w).release = d.release ∧ (d.wrw r u i w).freeCtr = d.freeCtr ∧
    (d.wrw r u i w).out = d.out ∧ (d.wrw r u i w).cfg = d.cfg ∧ (d.wrw r u i w).time = d.time ∧
    (d.wrw r u i w).ev = d.ev ∧ (d.wrw r u i w).sw = d.sw ∧ (d.wrw r u i w).tm = d.tm ∧ (d.wrw r u i w).fw = d.fw ∧
    (d.wrw r u i w).sy = d.sy ∧ (d.wrw r u i w).ln = d.ln ∧ (d.wrw r u i w).oe = d.oe ∧ (d.wrw r u i w).by_ = d.by_ ∧
    (d.wrw r u i w).d2 = d.d2 ∧ (d.wrw r u i w).pw = d.pw ∧ (d.wrw r u i w).mg = d.mg ∧ (d.wrw r u i w).se = d.se ∧
    (d.wrw r u i w).st = d.st ∧ (d.wrw r u i w).parserDrops = d.parserDrops := by
  and_intros <;> rfl

@[simp] theorem Dev.wr_keeps (d : Dev) (f : Fld) (u i v : Nat) :
    (d.wr f u i v).tick = d.tick ∧ (d.wr f u i v).release = d.release ∧ (d.wr f u i v).freeCtr = d.freeCtr ∧
    (d.wr f u i v).out = d.out ∧ (d.wr f u i v).cfg = d.cfg ∧ (d.wr f u i v).time = d.time ∧ (d.wr f u i v).ev = d.ev ∧
    (d.wr f u i v).sw = d.sw ∧ (d.wr f u i v).tm = d.tm ∧ (d.wr f u i v).fw = d.fw ∧ (d.wr f u i v).sy = d.sy ∧
    (d.wr f u i v).ln = d.ln ∧ (d.wr f u i v).oe = d.oe ∧ (d.wr f u i v).by_ = d.by_ ∧ (d.wr f u i v).d2 = d.d2 ∧
    (d.wr f u i v).pw = d.pw ∧ (d.wr f u i v).mg = d.mg ∧ (d.wr f u i v).se = d.se ∧ (d.wr f u i v).st = d.st ∧
    (d.wr f u i v).parserDrops = d.parserDrops := by
  and_intros <;> rfl

@[simp] theorem Dev.inc_keeps (d : Dev) (f : Fld) (u i n : Nat) :
    (d.inc f u i n).tick = d.tick ∧ (d.inc f u i n).release = d.release ∧ (d.inc f u i n).freeCtr = d.freeCtr ∧
    (d.inc f u i n).out = d.out ∧ (d.inc f u i n).cfg = d.cfg ∧ (d.inc f u i n).time = d.time ∧
    (d.inc f u i n).ev = d.ev ∧ (d.inc f u i n).sw = d.sw ∧ (d.inc f u i n).tm = d.tm ∧ (d.inc f u i n).fw = d.fw ∧
    (d.inc f u i n).sy = d.sy ∧ (d.inc f u i n).ln = d.ln ∧ (d.inc f u i n).oe = d.oe ∧ (d.inc f u i n).by_ = d.by_ ∧
    (d.inc f u i n).d2 = d.d2 ∧ (d.inc f u i n).pw = d.pw ∧ (d.inc f u i n).mg = d.mg ∧ (d.inc f u i n).se = d.se ∧
    (d.inc f u i n).st = d.st ∧ (d.inc f u i n).parserDrops = d.parserDrops := by
  and_intros <;> rfl

@[simp] theorem Dev.incWrap_keeps (d : Dev) (f : Fld) (u i n : Nat) :
    (d.incWrap f u i n).tick = d.tick ∧ (d.incWrap f u i n).release = d.release ∧
    (d.incWrap f u i n).freeCtr = d.freeCtr ∧ (d.incWrap f u i n).out = d.out ∧ (d.incWrap f u i n).cfg = d.cfg ∧
    (d.incWrap f u i n).time = d.time ∧ (d.incWrap f u i n).ev = d.ev ∧ (d.incWrap f u i n).sw = d.sw ∧
    (d.incWrap f u i n).tm = d.tm ∧ (d.incWrap f u i n).fw = d.fw ∧ (d.incWrap f u i n).sy = d.sy ∧
    (d.incWrap f u i n).ln = d.ln ∧ (d.incWrap f u i n).oe = d.oe ∧ (d.incWrap f u i n).by_ = d.by_ ∧
    (d.incWrap f u i n).d2 = d.d2 ∧ (d.incWrap f u i n).pw = d.pw ∧ (d.incWrap f u i n).mg = d.mg ∧
    (d.incWrap f u i n).se = d.se ∧ (d.incWrap f u i n).st = d.st ∧ (d.incWrap f u i n).parserDrops = d.parserDrops := by
  and_intros <;> rfl

@[simp] theorem Dev.dec_keeps (d : Dev) (f : Fld) (u i n : Nat) :
    (d.dec f u i n).tick = d.tick ∧ (d.dec f u i n).release = d.release ∧ (d.dec f u i n).freeCtr = d.freeCtr ∧
    (d.dec f u i n).out = d.out ∧ (d.dec f u i n).cfg = d.cfg ∧ (d.dec f u i n).time = d.time ∧
    (d.dec f u i n).ev = d.ev ∧ (d.dec f u i n).sw = d.sw ∧ (d.dec f u i n).tm = d.tm ∧ (d.dec f u i n).fw = d.fw ∧
    (d.dec f u i n).sy = d.sy ∧ (d.dec f u i n).ln = d.ln ∧ (d.dec f u i n).oe = d.oe ∧ (d.dec f u i n).by_ = d.by_ ∧
    (d.dec f u i n).d2 = d.d2 ∧ (d.dec f u i n).pw = d.pw ∧ (d.dec f u i n).mg = d.mg ∧ (d.dec f u i n).se = d.se ∧
    (d.dec f u i n).st = d.st ∧ (d.dec f u i n).parserDrops = d.parserDrops := by
  and_intros <;> rfl

@[simp] theorem Dev.peak_keeps (d : Dev) (f : Fld) (u i v : Nat) :
    (d.peak f u i v).tick = d.tick ∧ (d.peak f u i v).release = d.release ∧ (d.peak f u i v).freeCtr = d.freeCtr ∧
    (d.peak f u i v).out = d.out ∧ (d.peak f u i v).cfg = d.cfg ∧ (d.peak f u i v).time = d.time ∧
    (d.peak f u i v).ev = d.ev ∧ (d.peak f u i v).sw = d.sw ∧ (d.peak f u i v).tm = d.tm ∧ (d.peak f u i v).fw = d.fw ∧
    (d.peak f u i v).sy = d.sy ∧ (d.peak f u i v).ln = d.ln ∧ (d.peak f u i v).oe = d.oe ∧ (d.peak f u i v).by_ = d.by_ ∧
    (d.peak f u i v).d2 = d.d2 ∧ (d.peak f u i v).pw = d.pw ∧ (d.peak f u i v).mg = d.mg ∧ (d.peak f u i v).se = d.se ∧
    (d.peak f u i v).st = d.st ∧ (d.peak f u i v).parserDrops = d.parserDrops := by
  unfold Dev.peak
  try dsimp only
  (repeat' split) <;> simp

@[simp] theorem Dev.emit_keeps (d : Dev) (o : Output) :
    (d.emit o).regs = d.regs ∧ (d.emit o).tick = d.tick ∧ (d.emit o).release = d.release ∧
    (d.emit o).freeCtr = d.freeCtr ∧ (d.emit o).cfg = d.cfg ∧ (d.emit o).time = d.time ∧ (d.emit o).ev = d.ev ∧
    (d.emit o).sw = d.sw ∧ (d.emit o).tm = d.tm ∧ (d.emit o).fw = d.fw ∧ (d.emit o).sy = d.sy ∧ (d.emit o).ln = d.ln ∧
    (d.emit o).oe = d.oe ∧ (d.emit o).by_ = d.by_ ∧ (d.emit o).d2 = d.d2 ∧ (d.emit o).pw = d.pw ∧ (d.emit o).mg = d.mg ∧
    (d.emit o).se = d.se ∧ (d.emit o).st = d.st ∧ (d.emit o).parserDrops = d.parserDrops := by
  and_intros <;> rfl

@[simp] theorem Dev.fresh_keeps (d : Dev) :
    (d.fresh).1.regs = d.regs ∧ (d.fresh).1.tick = d.tick ∧ (d.fresh).1.release = d.release ∧ (d.fresh).1.out = d.out ∧
    (d.fresh).1.cfg = d.cfg ∧ (d.fresh).1.time = d.time ∧ (d.fresh).1.ev = d.ev ∧ (d.fresh).1.sw = d.sw ∧
    (d.fresh).1.tm = d.tm ∧ (d.fresh).1.fw = d.fw ∧ (d.fresh).1.sy = d.sy ∧ (d.fresh).1.ln = d.ln ∧
    (d.fresh).1.oe = d.oe ∧ (d.fresh).1.by_ = d.by_ ∧ (d.fresh).1.d2 = d.d2 ∧ (d.fresh).1.pw = d.pw ∧
    (d.fresh).1.mg = d.mg ∧ (d.fresh).1.se = d.se ∧ (d.fresh).1.st = d.st ∧ (d.fresh).1.parserDrops = d.parserDrops := by
  and_intros <;> rfl

@[simp] theorem Dev.cntPC_keeps (d : Dev) (c : CntSet) (ev : Nat) (port cls : Option Nat) (n : Nat) :
    (d.cntPC c ev port cls n).tick = d.tick ∧ (d.cntPC c ev port cls n).release = d.release ∧
    (d.cntPC c ev port cls n).freeCtr = d.freeCtr ∧ (d.cntPC c ev port cls n).out = d.out ∧
    (d.cntPC c ev port cls n).cfg = d.cfg ∧ (d.cntPC c ev port cls n).time = d.time ∧
    (d.cntPC c ev port cls n).ev = d.ev ∧ (d.cntPC c ev port cls n).sw = d.sw ∧ (d.cntPC c ev port cls n).tm = d.tm ∧
    (d.cntPC c ev port cls n).fw = d.fw ∧ (d.cntPC c ev port cls n).sy = d.sy ∧ (d.cntPC c ev port cls n).ln = d.ln ∧
    (d.cntPC c ev port cls n).oe = d.oe ∧ (d.cntPC c ev port cls n).by_ = d.by_ ∧ (d.cntPC c ev port cls n).d2 = d.d2 ∧
    (d.cntPC c ev port cls n).pw = d.pw ∧ (d.cntPC c ev port cls n).mg = d.mg ∧ (d.cntPC c ev port cls n).se = d.se ∧
    (d.cntPC c ev port cls n).st = d.st ∧ (d.cntPC c ev port cls n).parserDrops = d.parserDrops := by
  unfold Dev.cntPC
  split <;> and_intros <;> rfl

@[simp] theorem Dev.cnt_keeps (d : Dev) (c : CntSet) (ev : Nat) :
    (d.cnt c ev).tick = d.tick ∧ (d.cnt c ev).release = d.release ∧ (d.cnt c ev).freeCtr = d.freeCtr ∧
    (d.cnt c ev).out = d.out ∧ (d.cnt c ev).cfg = d.cfg ∧ (d.cnt c ev).time = d.time ∧ (d.cnt c ev).ev = d.ev ∧
    (d.cnt c ev).sw = d.sw ∧ (d.cnt c ev).tm = d.tm ∧ (d.cnt c ev).fw = d.fw ∧ (d.cnt c ev).sy = d.sy ∧
    (d.cnt c ev).ln = d.ln ∧ (d.cnt c ev).oe = d.oe ∧ (d.cnt c ev).by_ = d.by_ ∧ (d.cnt c ev).d2 = d.d2 ∧
    (d.cnt c ev).pw = d.pw ∧ (d.cnt c ev).mg = d.mg ∧ (d.cnt c ev).se = d.se ∧ (d.cnt c ev).st = d.st ∧
    (d.cnt c ev).parserDrops = d.parserDrops := Dev.cntPC_keeps ..

@[simp] theorem Dev.evtAt_keeps (d : Dev) (b : ErrBlk) (u k : Nat) (port cls : Option Nat) (n : Nat) :
    (d.evtAt b u k port cls n).tick = d.tick ∧ (d.evtAt b u k port cls n).release = d.release ∧
    (d.evtAt b u k port cls n).freeCtr = d.freeCtr ∧ (d.evtAt b u k port cls n).out = d.out ∧
    (d.evtAt b u k port cls n).cfg = d.cfg ∧ (d.evtAt b u k port cls n).time = d.time ∧
    (d.evtAt b u k port cls n).ev = d.ev ∧ (d.evtAt b u k port cls n).sw = d.sw ∧ (d.evtAt b u k port cls n).tm = d.tm ∧
    (d.evtAt b u k port cls n).fw = d.fw ∧ (d.evtAt b u k port cls n).sy = d.sy ∧ (d.evtAt b u k port cls n).ln = d.ln ∧
    (d.evtAt b u k port cls n).oe = d.oe ∧ (d.evtAt b u k port cls n).by_ = d.by_ ∧ (d.evtAt b u k port cls n).d2 = d.d2 ∧
    (d.evtAt b u k port cls n).pw = d.pw ∧ (d.evtAt b u k port cls n).mg = d.mg ∧ (d.evtAt b u k port cls n).se = d.se ∧
    (d.evtAt b u k port cls n).st = d.st ∧ (d.evtAt b u k port cls n).parserDrops = d.parserDrops := by
  unfold Dev.evtAt
  dsimp only
  split <;> simp

@[simp] theorem Dev.evtCntN_keeps (d : Dev) (b : ErrBlk) (u k n : Nat) :
    (d.evtCntN b u k n).tick = d.tick ∧ (d.evtCntN b u k n).release = d.release ∧
    (d.evtCntN b u k n).freeCtr = d.freeCtr ∧ (d.evtCntN b u k n).out = d.out ∧ (d.evtCntN b u k n).cfg = d.cfg ∧
    (d.evtCntN b u k n).time = d.time ∧ (d.evtCntN b u k n).ev = d.ev ∧ (d.evtCntN b u k n).sw = d.sw ∧
    (d.evtCntN b u k n).tm = d.tm ∧ (d.evtCntN b u k n).fw = d.fw ∧ (d.evtCntN b u k n).sy = d.sy ∧
    (d.evtCntN b u k n).ln = d.ln ∧ (d.evtCntN b u k n).oe = d.oe ∧ (d.evtCntN b u k n).by_ = d.by_ ∧
    (d.evtCntN b u k n).d2 = d.d2 ∧ (d.evtCntN b u k n).pw = d.pw ∧ (d.evtCntN b u k n).mg = d.mg ∧
    (d.evtCntN b u k n).se = d.se ∧ (d.evtCntN b u k n).st = d.st ∧ (d.evtCntN b u k n).parserDrops = d.parserDrops := Dev.evtAt_keeps ..

@[simp] theorem Dev.evtCnt_keeps (d : Dev) (b : ErrBlk) (u k : Nat) :
    (d.evtCnt b u k).tick = d.tick ∧ (d.evtCnt b u k).release = d.release ∧ (d.evtCnt b u k).freeCtr = d.freeCtr ∧
    (d.evtCnt b u k).out = d.out ∧ (d.evtCnt b u k).cfg = d.cfg ∧ (d.evtCnt b u k).time = d.time ∧
    (d.evtCnt b u k).ev = d.ev ∧ (d.evtCnt b u k).sw = d.sw ∧ (d.evtCnt b u k).tm = d.tm ∧ (d.evtCnt b u k).fw = d.fw ∧
    (d.evtCnt b u k).sy = d.sy ∧ (d.evtCnt b u k).ln = d.ln ∧ (d.evtCnt b u k).oe = d.oe ∧ (d.evtCnt b u k).by_ = d.by_ ∧
    (d.evtCnt b u k).d2 = d.d2 ∧ (d.evtCnt b u k).pw = d.pw ∧ (d.evtCnt b u k).mg = d.mg ∧ (d.evtCnt b u k).se = d.se ∧
    (d.evtCnt b u k).st = d.st ∧ (d.evtCnt b u k).parserDrops = d.parserDrops := Dev.evtAt_keeps ..

@[simp] theorem Dev.dropCnt_keeps (d : Dev) (b : ErrBlk) (u k : Nat) (port cls : Option Nat) :
    (d.dropCnt b u k port cls).tick = d.tick ∧ (d.dropCnt b u k port cls).release = d.release ∧
    (d.dropCnt b u k port cls).freeCtr = d.freeCtr ∧ (d.dropCnt b u k port cls).out = d.out ∧
    (d.dropCnt b u k port cls).cfg = d.cfg ∧ (d.dropCnt b u k port cls).time = d.time ∧
    (d.dropCnt b u k port cls).ev = d.ev ∧ (d.dropCnt b u k port cls).sw = d.sw ∧ (d.dropCnt b u k port cls).tm = d.tm ∧
    (d.dropCnt b u k port cls).fw = d.fw ∧ (d.dropCnt b u k port cls).sy = d.sy ∧ (d.dropCnt b u k port cls).ln = d.ln ∧
    (d.dropCnt b u k port cls).oe = d.oe ∧ (d.dropCnt b u k port cls).by_ = d.by_ ∧ (d.dropCnt b u k port cls).d2 = d.d2 ∧
    (d.dropCnt b u k port cls).pw = d.pw ∧ (d.dropCnt b u k port cls).mg = d.mg ∧ (d.dropCnt b u k port cls).se = d.se ∧
    (d.dropCnt b u k port cls).st = d.st ∧ (d.dropCnt b u k port cls).parserDrops = d.parserDrops := by
  unfold Dev.dropCnt
  try dsimp only
  (repeat' split) <;> simp

@[simp] theorem Dev.sendRec_keeps (d : Dev) (r : EvRec) :
    (d.sendRec r).regs = d.regs ∧ (d.sendRec r).tick = d.tick ∧ (d.sendRec r).release = d.release ∧
    (d.sendRec r).freeCtr = d.freeCtr ∧ (d.sendRec r).out = d.out ∧ (d.sendRec r).cfg = d.cfg ∧
    (d.sendRec r).time = d.time ∧ (d.sendRec r).sw = d.sw ∧ (d.sendRec r).tm = d.tm ∧ (d.sendRec r).fw = d.fw ∧
    (d.sendRec r).sy = d.sy ∧ (d.sendRec r).ln = d.ln ∧ (d.sendRec r).oe = d.oe ∧ (d.sendRec r).by_ = d.by_ ∧
    (d.sendRec r).d2 = d.d2 ∧ (d.sendRec r).pw = d.pw ∧ (d.sendRec r).mg = d.mg ∧ (d.sendRec r).se = d.se ∧
    (d.sendRec r).st = d.st ∧ (d.sendRec r).parserDrops = d.parserDrops := by
  and_intros <;> rfl

@[simp] theorem Dev.holdRec_keeps (d : Dev) (unit : Nat) (isErr : Bool) (r : EvRec) :
    (d.holdRec unit isErr r).tick = d.tick ∧ (d.holdRec unit isErr r).release = d.release ∧
    (d.holdRec unit isErr r).freeCtr = d.freeCtr ∧ (d.holdRec unit isErr r).out = d.out ∧
    (d.holdRec unit isErr r).cfg = d.cfg ∧ (d.holdRec unit isErr r).time = d.time ∧ (d.holdRec unit isErr r).sw = d.sw ∧
    (d.holdRec unit isErr r).tm = d.tm ∧ (d.holdRec unit isErr r).fw = d.fw ∧ (d.holdRec unit isErr r).sy = d.sy ∧
    (d.holdRec unit isErr r).ln = d.ln ∧ (d.holdRec unit isErr r).oe = d.oe ∧ (d.holdRec unit isErr r).by_ = d.by_ ∧
    (d.holdRec unit isErr r).d2 = d.d2 ∧ (d.holdRec unit isErr r).pw = d.pw ∧ (d.holdRec unit isErr r).mg = d.mg ∧
    (d.holdRec unit isErr r).se = d.se ∧ (d.holdRec unit isErr r).st = d.st ∧
    (d.holdRec unit isErr r).parserDrops = d.parserDrops := by
  unfold Dev.holdRec
  dsimp only
  (repeat' split) <;> simp

@[simp] theorem Dev.raiseRec_keeps (d : Dev) (unit : Nat) (isErr : Bool) (e0 e2 e3 : Word) :
    (d.raiseRec unit isErr e0 e2 e3).tick = d.tick ∧ (d.raiseRec unit isErr e0 e2 e3).release = d.release ∧
    (d.raiseRec unit isErr e0 e2 e3).freeCtr = d.freeCtr ∧ (d.raiseRec unit isErr e0 e2 e3).out = d.out ∧
    (d.raiseRec unit isErr e0 e2 e3).cfg = d.cfg ∧ (d.raiseRec unit isErr e0 e2 e3).time = d.time ∧
    (d.raiseRec unit isErr e0 e2 e3).sw = d.sw ∧ (d.raiseRec unit isErr e0 e2 e3).tm = d.tm ∧
    (d.raiseRec unit isErr e0 e2 e3).fw = d.fw ∧ (d.raiseRec unit isErr e0 e2 e3).sy = d.sy ∧
    (d.raiseRec unit isErr e0 e2 e3).ln = d.ln ∧ (d.raiseRec unit isErr e0 e2 e3).oe = d.oe ∧
    (d.raiseRec unit isErr e0 e2 e3).by_ = d.by_ ∧ (d.raiseRec unit isErr e0 e2 e3).d2 = d.d2 ∧
    (d.raiseRec unit isErr e0 e2 e3).pw = d.pw ∧ (d.raiseRec unit isErr e0 e2 e3).mg = d.mg ∧
    (d.raiseRec unit isErr e0 e2 e3).se = d.se ∧ (d.raiseRec unit isErr e0 e2 e3).st = d.st ∧
    (d.raiseRec unit isErr e0 e2 e3).parserDrops = d.parserDrops := by
  unfold Dev.raiseRec
  try dsimp only
  (repeat' split) <;> simp

@[simp] theorem Dev.event_keeps (d : Dev) (b : ErrBlk) (inst code : Nat) (e2 e3 : Word) :
    (d.event b inst code e2 e3).tick = d.tick ∧ (d.event b inst code e2 e3).release = d.release ∧
    (d.event b inst code e2 e3).freeCtr = d.freeCtr ∧ (d.event b inst code e2 e3).out = d.out ∧
    (d.event b inst code e2 e3).cfg = d.cfg ∧ (d.event b inst code e2 e3).time = d.time ∧
    (d.event b inst code e2 e3).sw = d.sw ∧ (d.event b inst code e2 e3).tm = d.tm ∧
    (d.event b inst code e2 e3).fw = d.fw ∧ (d.event b inst code e2 e3).sy = d.sy ∧
    (d.event b inst code e2 e3).ln = d.ln ∧ (d.event b inst code e2 e3).oe = d.oe ∧
    (d.event b inst code e2 e3).by_ = d.by_ ∧ (d.event b inst code e2 e3).d2 = d.d2 ∧
    (d.event b inst code e2 e3).pw = d.pw ∧ (d.event b inst code e2 e3).mg = d.mg ∧
    (d.event b inst code e2 e3).se = d.se ∧ (d.event b inst code e2 e3).st = d.st ∧
    (d.event b inst code e2 e3).parserDrops = d.parserDrops := by
  unfold Dev.event
  try dsimp only
  simp

@[simp] theorem Dev.countEvent_keeps (d : Dev) (b : ErrBlk) (inst k : Nat) (detail : Word) :
    (d.countEvent b inst k detail).tick = d.tick ∧ (d.countEvent b inst k detail).release = d.release ∧
    (d.countEvent b inst k detail).freeCtr = d.freeCtr ∧ (d.countEvent b inst k detail).out = d.out ∧
    (d.countEvent b inst k detail).cfg = d.cfg ∧ (d.countEvent b inst k detail).time = d.time ∧
    (d.countEvent b inst k detail).sw = d.sw ∧ (d.countEvent b inst k detail).tm = d.tm ∧
    (d.countEvent b inst k detail).fw = d.fw ∧ (d.countEvent b inst k detail).sy = d.sy ∧
    (d.countEvent b inst k detail).ln = d.ln ∧ (d.countEvent b inst k detail).oe = d.oe ∧
    (d.countEvent b inst k detail).by_ = d.by_ ∧ (d.countEvent b inst k detail).d2 = d.d2 ∧
    (d.countEvent b inst k detail).pw = d.pw ∧ (d.countEvent b inst k detail).mg = d.mg ∧
    (d.countEvent b inst k detail).se = d.se ∧ (d.countEvent b inst k detail).st = d.st ∧
    (d.countEvent b inst k detail).parserDrops = d.parserDrops := by
  unfold Dev.countEvent
  try dsimp only
  simp

@[simp] theorem Dev.injectHit_keeps (d : Dev) (target die words : Nat) :
    (d.injectHit target die words).1.tick = d.tick ∧ (d.injectHit target die words).1.release = d.release ∧
    (d.injectHit target die words).1.freeCtr = d.freeCtr ∧ (d.injectHit target die words).1.out = d.out ∧
    (d.injectHit target die words).1.cfg = d.cfg ∧ (d.injectHit target die words).1.time = d.time ∧
    (d.injectHit target die words).1.ev = d.ev ∧ (d.injectHit target die words).1.sw = d.sw ∧
    (d.injectHit target die words).1.tm = d.tm ∧ (d.injectHit target die words).1.fw = d.fw ∧
    (d.injectHit target die words).1.sy = d.sy ∧ (d.injectHit target die words).1.ln = d.ln ∧
    (d.injectHit target die words).1.oe = d.oe ∧ (d.injectHit target die words).1.by_ = d.by_ ∧
    (d.injectHit target die words).1.d2 = d.d2 ∧ (d.injectHit target die words).1.pw = d.pw ∧
    (d.injectHit target die words).1.mg = d.mg ∧ (d.injectHit target die words).1.se = d.se ∧
    (d.injectHit target die words).1.st = d.st ∧ (d.injectHit target die words).1.parserDrops = d.parserDrops := by
  unfold Dev.injectHit
  split
  · dsimp only
    split <;> and_intros <;> rfl
  · simp

@[simp] theorem Dev.flightWrite_keeps (d : Dev) (x : FlightTrig) :
    (d.flightWrite x).tick = d.tick ∧ (d.flightWrite x).release = d.release ∧ (d.flightWrite x).freeCtr = d.freeCtr ∧
    (d.flightWrite x).out = d.out ∧ (d.flightWrite x).cfg = d.cfg ∧ (d.flightWrite x).time = d.time ∧
    (d.flightWrite x).sw = d.sw ∧ (d.flightWrite x).tm = d.tm ∧ (d.flightWrite x).fw = d.fw ∧
    (d.flightWrite x).sy = d.sy ∧ (d.flightWrite x).ln = d.ln ∧ (d.flightWrite x).oe = d.oe ∧
    (d.flightWrite x).by_ = d.by_ ∧ (d.flightWrite x).d2 = d.d2 ∧ (d.flightWrite x).pw = d.pw ∧
    (d.flightWrite x).mg = d.mg ∧ (d.flightWrite x).se = d.se ∧ (d.flightWrite x).st = d.st ∧
    (d.flightWrite x).parserDrops = d.parserDrops := by
  unfold Dev.flightWrite
  split
  · simp
  · dsimp only
    split <;> simp

@[simp] theorem Dev.flightHold_keeps (d : Dev) (x : FlightTrig) :
    (d.flightHold x).regs = d.regs ∧ (d.flightHold x).tick = d.tick ∧ (d.flightHold x).release = d.release ∧
    (d.flightHold x).freeCtr = d.freeCtr ∧ (d.flightHold x).out = d.out ∧ (d.flightHold x).cfg = d.cfg ∧
    (d.flightHold x).time = d.time ∧ (d.flightHold x).sw = d.sw ∧ (d.flightHold x).tm = d.tm ∧
    (d.flightHold x).fw = d.fw ∧ (d.flightHold x).sy = d.sy ∧ (d.flightHold x).ln = d.ln ∧ (d.flightHold x).oe = d.oe ∧
    (d.flightHold x).by_ = d.by_ ∧ (d.flightHold x).d2 = d.d2 ∧ (d.flightHold x).pw = d.pw ∧ (d.flightHold x).mg = d.mg ∧
    (d.flightHold x).se = d.se ∧ (d.flightHold x).st = d.st ∧ (d.flightHold x).parserDrops = d.parserDrops := by
  and_intros <;> rfl

@[simp] theorem Dev.flight_keeps (d : Dev) (trigger blk inst code u hold : Nat) (f2 : Word) (c : Concern) (errs : Word × Word) (lich : List Word) :
    (d.flight trigger blk inst code u hold f2 c errs lich).tick = d.tick ∧
    (d.flight trigger blk inst code u hold f2 c errs lich).release = d.release ∧
    (d.flight trigger blk inst code u hold f2 c errs lich).freeCtr = d.freeCtr ∧
    (d.flight trigger blk inst code u hold f2 c errs lich).out = d.out ∧
    (d.flight trigger blk inst code u hold f2 c errs lich).cfg = d.cfg ∧
    (d.flight trigger blk inst code u hold f2 c errs lich).time = d.time ∧
    (d.flight trigger blk inst code u hold f2 c errs lich).sw = d.sw ∧
    (d.flight trigger blk inst code u hold f2 c errs lich).tm = d.tm ∧
    (d.flight trigger blk inst code u hold f2 c errs lich).fw = d.fw ∧
    (d.flight trigger blk inst code u hold f2 c errs lich).sy = d.sy ∧
    (d.flight trigger blk inst code u hold f2 c errs lich).ln = d.ln ∧
    (d.flight trigger blk inst code u hold f2 c errs lich).oe = d.oe ∧
    (d.flight trigger blk inst code u hold f2 c errs lich).by_ = d.by_ ∧
    (d.flight trigger blk inst code u hold f2 c errs lich).d2 = d.d2 ∧
    (d.flight trigger blk inst code u hold f2 c errs lich).pw = d.pw ∧
    (d.flight trigger blk inst code u hold f2 c errs lich).mg = d.mg ∧
    (d.flight trigger blk inst code u hold f2 c errs lich).se = d.se ∧
    (d.flight trigger blk inst code u hold f2 c errs lich).st = d.st ∧
    (d.flight trigger blk inst code u hold f2 c errs lich).parserDrops = d.parserDrops := by
  unfold Dev.flight
  dsimp only
  split <;> simp

@[simp] theorem Dev.ringEnter_keeps (d : Dev) (r : EvRec) :
    (d.ringEnter r).tick = d.tick ∧ (d.ringEnter r).release = d.release ∧ (d.ringEnter r).freeCtr = d.freeCtr ∧
    (d.ringEnter r).out = d.out ∧ (d.ringEnter r).cfg = d.cfg ∧ (d.ringEnter r).time = d.time ∧
    (d.ringEnter r).sw = d.sw ∧ (d.ringEnter r).tm = d.tm ∧ (d.ringEnter r).fw = d.fw ∧ (d.ringEnter r).sy = d.sy ∧
    (d.ringEnter r).ln = d.ln ∧ (d.ringEnter r).oe = d.oe ∧ (d.ringEnter r).by_ = d.by_ ∧ (d.ringEnter r).d2 = d.d2 ∧
    (d.ringEnter r).pw = d.pw ∧ (d.ringEnter r).mg = d.mg ∧ (d.ringEnter r).se = d.se ∧ (d.ringEnter r).st = d.st ∧
    (d.ringEnter r).parserDrops = d.parserDrops := by
  unfold Dev.ringEnter
  try dsimp only
  (repeat' split) <;> simp

@[simp] theorem Dev.latchErr_keeps (d : Dev) (b : ErrBlk) (u code : Nat) (detail : Word) :
    (d.latchErr b u code detail).tick = d.tick ∧ (d.latchErr b u code detail).release = d.release ∧
    (d.latchErr b u code detail).freeCtr = d.freeCtr ∧ (d.latchErr b u code detail).out = d.out ∧
    (d.latchErr b u code detail).cfg = d.cfg ∧ (d.latchErr b u code detail).time = d.time ∧
    (d.latchErr b u code detail).sw = d.sw ∧ (d.latchErr b u code detail).tm = d.tm ∧
    (d.latchErr b u code detail).fw = d.fw ∧ (d.latchErr b u code detail).sy = d.sy ∧
    (d.latchErr b u code detail).ln = d.ln ∧ (d.latchErr b u code detail).oe = d.oe ∧
    (d.latchErr b u code detail).by_ = d.by_ ∧ (d.latchErr b u code detail).d2 = d.d2 ∧
    (d.latchErr b u code detail).pw = d.pw ∧ (d.latchErr b u code detail).mg = d.mg ∧
    (d.latchErr b u code detail).se = d.se ∧ (d.latchErr b u code detail).st = d.st ∧
    (d.latchErr b u code detail).parserDrops = d.parserDrops := by
  unfold Dev.latchErr
  dsimp only
  (repeat' split) <;> simp

@[simp] theorem Dev.recordErr_keeps (d : Dev) (hold u blk inst code : Nat) (r : EvRec) (c : Concern) (errs : Word × Word) :
    (d.recordErr hold u blk inst code r c errs).tick = d.tick ∧
    (d.recordErr hold u blk inst code r c errs).release = d.release ∧
    (d.recordErr hold u blk inst code r c errs).freeCtr = d.freeCtr ∧
    (d.recordErr hold u blk inst code r c errs).out = d.out ∧ (d.recordErr hold u blk inst code r c errs).cfg = d.cfg ∧
    (d.recordErr hold u blk inst code r c errs).time = d.time ∧ (d.recordErr hold u blk inst code r c errs).sw = d.sw ∧
    (d.recordErr hold u blk inst code r c errs).tm = d.tm ∧ (d.recordErr hold u blk inst code r c errs).fw = d.fw ∧
    (d.recordErr hold u blk inst code r c errs).sy = d.sy ∧ (d.recordErr hold u blk inst code r c errs).ln = d.ln ∧
    (d.recordErr hold u blk inst code r c errs).oe = d.oe ∧ (d.recordErr hold u blk inst code r c errs).by_ = d.by_ ∧
    (d.recordErr hold u blk inst code r c errs).d2 = d.d2 ∧ (d.recordErr hold u blk inst code r c errs).pw = d.pw ∧
    (d.recordErr hold u blk inst code r c errs).mg = d.mg ∧ (d.recordErr hold u blk inst code r c errs).se = d.se ∧
    (d.recordErr hold u blk inst code r c errs).st = d.st ∧
    (d.recordErr hold u blk inst code r c errs).parserDrops = d.parserDrops := by
  unfold Dev.recordErr
  dsimp only
  (repeat' split) <;> simp

@[simp] theorem Dev.logErrC_keeps (d : Dev) (b : ErrBlk) (u code : Nat) (detail : Word) (c : Concern) :
    (d.logErrC b u code detail c).tick = d.tick ∧ (d.logErrC b u code detail c).release = d.release ∧
    (d.logErrC b u code detail c).freeCtr = d.freeCtr ∧ (d.logErrC b u code detail c).out = d.out ∧
    (d.logErrC b u code detail c).cfg = d.cfg ∧ (d.logErrC b u code detail c).time = d.time ∧
    (d.logErrC b u code detail c).sw = d.sw ∧ (d.logErrC b u code detail c).tm = d.tm ∧
    (d.logErrC b u code detail c).fw = d.fw ∧ (d.logErrC b u code detail c).sy = d.sy ∧
    (d.logErrC b u code detail c).ln = d.ln ∧ (d.logErrC b u code detail c).oe = d.oe ∧
    (d.logErrC b u code detail c).by_ = d.by_ ∧ (d.logErrC b u code detail c).d2 = d.d2 ∧
    (d.logErrC b u code detail c).pw = d.pw ∧ (d.logErrC b u code detail c).mg = d.mg ∧
    (d.logErrC b u code detail c).se = d.se ∧ (d.logErrC b u code detail c).st = d.st ∧
    (d.logErrC b u code detail c).parserDrops = d.parserDrops := by
  unfold Dev.logErrC
  try dsimp only
  (repeat' split) <;> simp

@[simp] theorem Dev.logErr_keeps (d : Dev) (b : ErrBlk) (u code : Nat) (detail : Word) :
    (d.logErr b u code detail).tick = d.tick ∧ (d.logErr b u code detail).release = d.release ∧
    (d.logErr b u code detail).freeCtr = d.freeCtr ∧ (d.logErr b u code detail).out = d.out ∧
    (d.logErr b u code detail).cfg = d.cfg ∧ (d.logErr b u code detail).time = d.time ∧
    (d.logErr b u code detail).sw = d.sw ∧ (d.logErr b u code detail).tm = d.tm ∧ (d.logErr b u code detail).fw = d.fw ∧
    (d.logErr b u code detail).sy = d.sy ∧ (d.logErr b u code detail).ln = d.ln ∧ (d.logErr b u code detail).oe = d.oe ∧
    (d.logErr b u code detail).by_ = d.by_ ∧ (d.logErr b u code detail).d2 = d.d2 ∧ (d.logErr b u code detail).pw = d.pw ∧
    (d.logErr b u code detail).mg = d.mg ∧ (d.logErr b u code detail).se = d.se ∧ (d.logErr b u code detail).st = d.st ∧
    (d.logErr b u code detail).parserDrops = d.parserDrops := by
  unfold Dev.logErr
  try dsimp only
  simp

@[simp] theorem Dev.pwr_keeps (d : Dev) (f : Fld) (lane v : Nat) :
    (d.pwr f lane v).tick = d.tick ∧ (d.pwr f lane v).release = d.release ∧ (d.pwr f lane v).freeCtr = d.freeCtr ∧
    (d.pwr f lane v).out = d.out ∧ (d.pwr f lane v).cfg = d.cfg ∧ (d.pwr f lane v).time = d.time ∧
    (d.pwr f lane v).ev = d.ev ∧ (d.pwr f lane v).sw = d.sw ∧ (d.pwr f lane v).tm = d.tm ∧ (d.pwr f lane v).fw = d.fw ∧
    (d.pwr f lane v).sy = d.sy ∧ (d.pwr f lane v).ln = d.ln ∧ (d.pwr f lane v).oe = d.oe ∧ (d.pwr f lane v).by_ = d.by_ ∧
    (d.pwr f lane v).d2 = d.d2 ∧ (d.pwr f lane v).pw = d.pw ∧ (d.pwr f lane v).mg = d.mg ∧ (d.pwr f lane v).se = d.se ∧
    (d.pwr f lane v).st = d.st ∧ (d.pwr f lane v).parserDrops = d.parserDrops := by
  and_intros <;> rfl

@[simp] theorem Dev.pinc_keeps (d : Dev) (f : Fld) (lane n : Nat) :
    (d.pinc f lane n).tick = d.tick ∧ (d.pinc f lane n).release = d.release ∧ (d.pinc f lane n).freeCtr = d.freeCtr ∧
    (d.pinc f lane n).out = d.out ∧ (d.pinc f lane n).cfg = d.cfg ∧ (d.pinc f lane n).time = d.time ∧
    (d.pinc f lane n).ev = d.ev ∧ (d.pinc f lane n).sw = d.sw ∧ (d.pinc f lane n).tm = d.tm ∧
    (d.pinc f lane n).fw = d.fw ∧ (d.pinc f lane n).sy = d.sy ∧ (d.pinc f lane n).ln = d.ln ∧
    (d.pinc f lane n).oe = d.oe ∧ (d.pinc f lane n).by_ = d.by_ ∧ (d.pinc f lane n).d2 = d.d2 ∧
    (d.pinc f lane n).pw = d.pw ∧ (d.pinc f lane n).mg = d.mg ∧ (d.pinc f lane n).se = d.se ∧
    (d.pinc f lane n).st = d.st ∧ (d.pinc f lane n).parserDrops = d.parserDrops := by
  and_intros <;> rfl

@[simp] theorem Dev.sendCtl_keeps (d : Dev) (port : Nat) (f : Frame) :
    (d.sendCtl port f).regs = d.regs ∧ (d.sendCtl port f).tick = d.tick ∧ (d.sendCtl port f).release = d.release ∧
    (d.sendCtl port f).out = d.out ∧ (d.sendCtl port f).cfg = d.cfg ∧ (d.sendCtl port f).time = d.time ∧
    (d.sendCtl port f).ev = d.ev ∧ (d.sendCtl port f).sw = d.sw ∧ (d.sendCtl port f).tm = d.tm ∧
    (d.sendCtl port f).fw = d.fw ∧ (d.sendCtl port f).sy = d.sy ∧ (d.sendCtl port f).oe = d.oe ∧
    (d.sendCtl port f).by_ = d.by_ ∧ (d.sendCtl port f).d2 = d.d2 ∧ (d.sendCtl port f).pw = d.pw ∧
    (d.sendCtl port f).mg = d.mg ∧ (d.sendCtl port f).se = d.se ∧ (d.sendCtl port f).st = d.st ∧
    (d.sendCtl port f).parserDrops = d.parserDrops := by
  and_intros <;> rfl

@[simp] theorem Dev.setRx_keeps (d : Dev) (port : Nat) (r : RxLink) :
    (d.setRx port r).regs = d.regs ∧ (d.setRx port r).tick = d.tick ∧ (d.setRx port r).release = d.release ∧
    (d.setRx port r).freeCtr = d.freeCtr ∧ (d.setRx port r).out = d.out ∧ (d.setRx port r).cfg = d.cfg ∧
    (d.setRx port r).time = d.time ∧ (d.setRx port r).ev = d.ev ∧ (d.setRx port r).sw = d.sw ∧
    (d.setRx port r).tm = d.tm ∧ (d.setRx port r).fw = d.fw ∧ (d.setRx port r).sy = d.sy ∧ (d.setRx port r).oe = d.oe ∧
    (d.setRx port r).by_ = d.by_ ∧ (d.setRx port r).d2 = d.d2 ∧ (d.setRx port r).pw = d.pw ∧ (d.setRx port r).mg = d.mg ∧
    (d.setRx port r).se = d.se ∧ (d.setRx port r).st = d.st ∧ (d.setRx port r).parserDrops = d.parserDrops := by
  and_intros <;> rfl

@[simp] theorem Dev.setTx_keeps (d : Dev) (port : Nat) (t : TxLink) :
    (d.setTx port t).regs = d.regs ∧ (d.setTx port t).tick = d.tick ∧ (d.setTx port t).release = d.release ∧
    (d.setTx port t).freeCtr = d.freeCtr ∧ (d.setTx port t).out = d.out ∧ (d.setTx port t).cfg = d.cfg ∧
    (d.setTx port t).time = d.time ∧ (d.setTx port t).ev = d.ev ∧ (d.setTx port t).sw = d.sw ∧
    (d.setTx port t).tm = d.tm ∧ (d.setTx port t).fw = d.fw ∧ (d.setTx port t).sy = d.sy ∧ (d.setTx port t).oe = d.oe ∧
    (d.setTx port t).by_ = d.by_ ∧ (d.setTx port t).d2 = d.d2 ∧ (d.setTx port t).pw = d.pw ∧ (d.setTx port t).mg = d.mg ∧
    (d.setTx port t).se = d.se ∧ (d.setTx port t).st = d.st ∧ (d.setTx port t).parserDrops = d.parserDrops := by
  and_intros <;> rfl

@[simp] theorem Dev.setTrain_keeps (d : Dev) (port : Nat) (t : Train) :
    (d.setTrain port t).regs = d.regs ∧ (d.setTrain port t).tick = d.tick ∧ (d.setTrain port t).release = d.release ∧
    (d.setTrain port t).freeCtr = d.freeCtr ∧ (d.setTrain port t).out = d.out ∧ (d.setTrain port t).cfg = d.cfg ∧
    (d.setTrain port t).time = d.time ∧ (d.setTrain port t).ev = d.ev ∧ (d.setTrain port t).sw = d.sw ∧
    (d.setTrain port t).tm = d.tm ∧ (d.setTrain port t).fw = d.fw ∧ (d.setTrain port t).sy = d.sy ∧
    (d.setTrain port t).oe = d.oe ∧ (d.setTrain port t).by_ = d.by_ ∧ (d.setTrain port t).d2 = d.d2 ∧
    (d.setTrain port t).pw = d.pw ∧ (d.setTrain port t).mg = d.mg ∧ (d.setTrain port t).se = d.se ∧
    (d.setTrain port t).st = d.st ∧ (d.setTrain port t).parserDrops = d.parserDrops := by
  and_intros <;> rfl

@[simp] theorem Dev.requiesce_keeps (d : Dev) :
    (d.requiesce).regs = d.regs ∧ (d.requiesce).tick = d.tick ∧ (d.requiesce).release = d.release ∧
    (d.requiesce).freeCtr = d.freeCtr ∧ (d.requiesce).out = d.out ∧ (d.requiesce).cfg = d.cfg ∧
    (d.requiesce).time = d.time ∧ (d.requiesce).ev = d.ev ∧ (d.requiesce).sw = d.sw ∧ (d.requiesce).tm = d.tm ∧
    (d.requiesce).fw = d.fw ∧ (d.requiesce).sy = d.sy ∧ (d.requiesce).ln = d.ln ∧ (d.requiesce).oe = d.oe ∧
    (d.requiesce).by_ = d.by_ ∧ (d.requiesce).d2 = d.d2 ∧ (d.requiesce).pw = d.pw ∧ (d.requiesce).se = d.se ∧
    (d.requiesce).st = d.st ∧ (d.requiesce).parserDrops = d.parserDrops := by
  and_intros <;> rfl

@[simp] theorem Dev.syncErr_keeps (d : Dev) (die code group chunk : Nat) :
    (d.syncErr die code group chunk).tick = d.tick ∧ (d.syncErr die code group chunk).release = d.release ∧
    (d.syncErr die code group chunk).freeCtr = d.freeCtr ∧ (d.syncErr die code group chunk).out = d.out ∧
    (d.syncErr die code group chunk).cfg = d.cfg ∧ (d.syncErr die code group chunk).time = d.time ∧
    (d.syncErr die code group chunk).sw = d.sw ∧ (d.syncErr die code group chunk).tm = d.tm ∧
    (d.syncErr die code group chunk).fw = d.fw ∧ (d.syncErr die code group chunk).sy = d.sy ∧
    (d.syncErr die code group chunk).ln = d.ln ∧ (d.syncErr die code group chunk).oe = d.oe ∧
    (d.syncErr die code group chunk).by_ = d.by_ ∧ (d.syncErr die code group chunk).d2 = d.d2 ∧
    (d.syncErr die code group chunk).pw = d.pw ∧ (d.syncErr die code group chunk).mg = d.mg ∧
    (d.syncErr die code group chunk).se = d.se ∧ (d.syncErr die code group chunk).st = d.st ∧
    (d.syncErr die code group chunk).parserDrops = d.parserDrops := by
  unfold Dev.syncErr
  try dsimp only
  simp

@[simp] theorem Dev.hubEvent_keeps (d : Dev) (code : Nat) (e2 e3 : Word) :
    (d.hubEvent code e2 e3).tick = d.tick ∧ (d.hubEvent code e2 e3).release = d.release ∧
    (d.hubEvent code e2 e3).freeCtr = d.freeCtr ∧ (d.hubEvent code e2 e3).out = d.out ∧
    (d.hubEvent code e2 e3).cfg = d.cfg ∧ (d.hubEvent code e2 e3).time = d.time ∧ (d.hubEvent code e2 e3).sw = d.sw ∧
    (d.hubEvent code e2 e3).tm = d.tm ∧ (d.hubEvent code e2 e3).fw = d.fw ∧ (d.hubEvent code e2 e3).sy = d.sy ∧
    (d.hubEvent code e2 e3).ln = d.ln ∧ (d.hubEvent code e2 e3).oe = d.oe ∧ (d.hubEvent code e2 e3).by_ = d.by_ ∧
    (d.hubEvent code e2 e3).d2 = d.d2 ∧ (d.hubEvent code e2 e3).pw = d.pw ∧ (d.hubEvent code e2 e3).mg = d.mg ∧
    (d.hubEvent code e2 e3).se = d.se ∧ (d.hubEvent code e2 e3).st = d.st ∧
    (d.hubEvent code e2 e3).parserDrops = d.parserDrops := by
  unfold Dev.hubEvent
  try dsimp only
  (repeat' split) <;> simp

/-- What requiesce leaves of the management state. -/
@[simp] theorem Dev.requiesce_mg (d : Dev) : d.requiesce.mg.reqs = d.mg.reqs ∧ d.requiesce.mg.xfer = d.mg.xfer := by
  and_intros <;> rfl

@[simp] theorem Dev.ite_regs (c : Prop) [Decidable c] (a b : Dev) : (if c then a else b).regs = if c then a.regs else b.regs :=
  apply_ite (·.regs) c a b
@[simp] theorem Dev.each_regs {α : Type} {f : Dev → α → Dev} (d : Dev) (l : List α) (h : ∀ d x, (f d x).regs = d.regs) :
    (d.each l f).regs = d.regs := Dev.each_same (·.regs) h d l
@[simp] theorem Dev.ite_tick (c : Prop) [Decidable c] (a b : Dev) : (if c then a else b).tick = if c then a.tick else b.tick :=
  apply_ite (·.tick) c a b
@[simp] theorem Dev.each_tick {α : Type} {f : Dev → α → Dev} (d : Dev) (l : List α) (h : ∀ d x, (f d x).tick = d.tick) :
    (d.each l f).tick = d.tick := Dev.each_same (·.tick) h d l
@[simp] theorem Dev.ite_release (c : Prop) [Decidable c] (a b : Dev) : (if c then a else b).release = if c then a.release else b.release :=
  apply_ite (·.release) c a b
@[simp] theorem Dev.each_release {α : Type} {f : Dev → α → Dev} (d : Dev) (l : List α) (h : ∀ d x, (f d x).release = d.release) :
    (d.each l f).release = d.release := Dev.each_same (·.release) h d l
@[simp] theorem Dev.ite_freeCtr (c : Prop) [Decidable c] (a b : Dev) : (if c then a else b).freeCtr = if c then a.freeCtr else b.freeCtr :=
  apply_ite (·.freeCtr) c a b
@[simp] theorem Dev.each_freeCtr {α : Type} {f : Dev → α → Dev} (d : Dev) (l : List α) (h : ∀ d x, (f d x).freeCtr = d.freeCtr) :
    (d.each l f).freeCtr = d.freeCtr := Dev.each_same (·.freeCtr) h d l
@[simp] theorem Dev.ite_out (c : Prop) [Decidable c] (a b : Dev) : (if c then a else b).out = if c then a.out else b.out :=
  apply_ite (·.out) c a b
@[simp] theorem Dev.each_out {α : Type} {f : Dev → α → Dev} (d : Dev) (l : List α) (h : ∀ d x, (f d x).out = d.out) :
    (d.each l f).out = d.out := Dev.each_same (·.out) h d l
@[simp] theorem Dev.ite_cfg (c : Prop) [Decidable c] (a b : Dev) : (if c then a else b).cfg = if c then a.cfg else b.cfg :=
  apply_ite (·.cfg) c a b
@[simp] theorem Dev.each_cfg {α : Type} {f : Dev → α → Dev} (d : Dev) (l : List α) (h : ∀ d x, (f d x).cfg = d.cfg) :
    (d.each l f).cfg = d.cfg := Dev.each_same (·.cfg) h d l
@[simp] theorem Dev.ite_time (c : Prop) [Decidable c] (a b : Dev) : (if c then a else b).time = if c then a.time else b.time :=
  apply_ite (·.time) c a b
@[simp] theorem Dev.each_time {α : Type} {f : Dev → α → Dev} (d : Dev) (l : List α) (h : ∀ d x, (f d x).time = d.time) :
    (d.each l f).time = d.time := Dev.each_same (·.time) h d l
@[simp] theorem Dev.ite_ev (c : Prop) [Decidable c] (a b : Dev) : (if c then a else b).ev = if c then a.ev else b.ev :=
  apply_ite (·.ev) c a b
@[simp] theorem Dev.each_ev {α : Type} {f : Dev → α → Dev} (d : Dev) (l : List α) (h : ∀ d x, (f d x).ev = d.ev) :
    (d.each l f).ev = d.ev := Dev.each_same (·.ev) h d l
@[simp] theorem Dev.ite_sw (c : Prop) [Decidable c] (a b : Dev) : (if c then a else b).sw = if c then a.sw else b.sw :=
  apply_ite (·.sw) c a b
@[simp] theorem Dev.each_sw {α : Type} {f : Dev → α → Dev} (d : Dev) (l : List α) (h : ∀ d x, (f d x).sw = d.sw) :
    (d.each l f).sw = d.sw := Dev.each_same (·.sw) h d l
@[simp] theorem Dev.ite_tm (c : Prop) [Decidable c] (a b : Dev) : (if c then a else b).tm = if c then a.tm else b.tm :=
  apply_ite (·.tm) c a b
@[simp] theorem Dev.each_tm {α : Type} {f : Dev → α → Dev} (d : Dev) (l : List α) (h : ∀ d x, (f d x).tm = d.tm) :
    (d.each l f).tm = d.tm := Dev.each_same (·.tm) h d l
@[simp] theorem Dev.ite_fw (c : Prop) [Decidable c] (a b : Dev) : (if c then a else b).fw = if c then a.fw else b.fw :=
  apply_ite (·.fw) c a b
@[simp] theorem Dev.each_fw {α : Type} {f : Dev → α → Dev} (d : Dev) (l : List α) (h : ∀ d x, (f d x).fw = d.fw) :
    (d.each l f).fw = d.fw := Dev.each_same (·.fw) h d l
@[simp] theorem Dev.ite_sy (c : Prop) [Decidable c] (a b : Dev) : (if c then a else b).sy = if c then a.sy else b.sy :=
  apply_ite (·.sy) c a b
@[simp] theorem Dev.each_sy {α : Type} {f : Dev → α → Dev} (d : Dev) (l : List α) (h : ∀ d x, (f d x).sy = d.sy) :
    (d.each l f).sy = d.sy := Dev.each_same (·.sy) h d l
@[simp] theorem Dev.ite_ln (c : Prop) [Decidable c] (a b : Dev) : (if c then a else b).ln = if c then a.ln else b.ln :=
  apply_ite (·.ln) c a b
@[simp] theorem Dev.each_ln {α : Type} {f : Dev → α → Dev} (d : Dev) (l : List α) (h : ∀ d x, (f d x).ln = d.ln) :
    (d.each l f).ln = d.ln := Dev.each_same (·.ln) h d l
@[simp] theorem Dev.ite_oe (c : Prop) [Decidable c] (a b : Dev) : (if c then a else b).oe = if c then a.oe else b.oe :=
  apply_ite (·.oe) c a b
@[simp] theorem Dev.each_oe {α : Type} {f : Dev → α → Dev} (d : Dev) (l : List α) (h : ∀ d x, (f d x).oe = d.oe) :
    (d.each l f).oe = d.oe := Dev.each_same (·.oe) h d l
@[simp] theorem Dev.ite_by_ (c : Prop) [Decidable c] (a b : Dev) : (if c then a else b).by_ = if c then a.by_ else b.by_ :=
  apply_ite (·.by_) c a b
@[simp] theorem Dev.each_by_ {α : Type} {f : Dev → α → Dev} (d : Dev) (l : List α) (h : ∀ d x, (f d x).by_ = d.by_) :
    (d.each l f).by_ = d.by_ := Dev.each_same (·.by_) h d l
@[simp] theorem Dev.ite_d2 (c : Prop) [Decidable c] (a b : Dev) : (if c then a else b).d2 = if c then a.d2 else b.d2 :=
  apply_ite (·.d2) c a b
@[simp] theorem Dev.each_d2 {α : Type} {f : Dev → α → Dev} (d : Dev) (l : List α) (h : ∀ d x, (f d x).d2 = d.d2) :
    (d.each l f).d2 = d.d2 := Dev.each_same (·.d2) h d l
@[simp] theorem Dev.ite_pw (c : Prop) [Decidable c] (a b : Dev) : (if c then a else b).pw = if c then a.pw else b.pw :=
  apply_ite (·.pw) c a b
@[simp] theorem Dev.each_pw {α : Type} {f : Dev → α → Dev} (d : Dev) (l : List α) (h : ∀ d x, (f d x).pw = d.pw) :
    (d.each l f).pw = d.pw := Dev.each_same (·.pw) h d l
@[simp] theorem Dev.ite_mg (c : Prop) [Decidable c] (a b : Dev) : (if c then a else b).mg = if c then a.mg else b.mg :=
  apply_ite (·.mg) c a b
@[simp] theorem Dev.each_mg {α : Type} {f : Dev → α → Dev} (d : Dev) (l : List α) (h : ∀ d x, (f d x).mg = d.mg) :
    (d.each l f).mg = d.mg := Dev.each_same (·.mg) h d l
@[simp] theorem Dev.ite_se (c : Prop) [Decidable c] (a b : Dev) : (if c then a else b).se = if c then a.se else b.se :=
  apply_ite (·.se) c a b
@[simp] theorem Dev.each_se {α : Type} {f : Dev → α → Dev} (d : Dev) (l : List α) (h : ∀ d x, (f d x).se = d.se) :
    (d.each l f).se = d.se := Dev.each_same (·.se) h d l
@[simp] theorem Dev.ite_st (c : Prop) [Decidable c] (a b : Dev) : (if c then a else b).st = if c then a.st else b.st :=
  apply_ite (·.st) c a b
@[simp] theorem Dev.each_st {α : Type} {f : Dev → α → Dev} (d : Dev) (l : List α) (h : ∀ d x, (f d x).st = d.st) :
    (d.each l f).st = d.st := Dev.each_same (·.st) h d l
@[simp] theorem Dev.ite_parserDrops (c : Prop) [Decidable c] (a b : Dev) : (if c then a else b).parserDrops = if c then a.parserDrops else b.parserDrops :=
  apply_ite (·.parserDrops) c a b
@[simp] theorem Dev.each_parserDrops {α : Type} {f : Dev → α → Dev} (d : Dev) (l : List α) (h : ∀ d x, (f d x).parserDrops = d.parserDrops) :
    (d.each l f).parserDrops = d.parserDrops := Dev.each_same (·.parserDrops) h d l
-- Around the device --------------------------------------------------------------------------------------------------------------

@[simp] theorem Chip.settled_regs (c : Chip) : c.settled.dev.regs = c.dev.regs := rfl
@[simp] theorem Chip.settled_tick (c : Chip) : c.settled.dev.tick = c.dev.tick := rfl
@[simp] theorem Chip.settled_release (c : Chip) : c.settled.dev.release = c.dev.release := rfl
@[simp] theorem Chip.settled_freeCtr (c : Chip) : c.settled.dev.freeCtr = c.dev.freeCtr := rfl
@[simp] theorem Chip.settled_out (c : Chip) : c.settled.dev.out = c.dev.out := rfl
@[simp] theorem Chip.settled_cfg (c : Chip) : c.settled.dev.cfg = c.dev.cfg := rfl
@[simp] theorem Chip.settled_time (c : Chip) : c.settled.dev.time = c.dev.time := rfl
@[simp] theorem Chip.settled_ev (c : Chip) : c.settled.dev.ev = c.dev.ev := rfl
@[simp] theorem Chip.settled_sw (c : Chip) : c.settled.dev.sw = c.dev.sw := rfl
@[simp] theorem Chip.settled_tm (c : Chip) : c.settled.dev.tm = c.dev.tm := rfl
@[simp] theorem Chip.settled_fw (c : Chip) : c.settled.dev.fw = c.dev.fw := rfl
@[simp] theorem Chip.settled_sy (c : Chip) : c.settled.dev.sy = c.dev.sy := rfl
@[simp] theorem Chip.settled_ln (c : Chip) : c.settled.dev.ln = c.dev.ln := rfl
@[simp] theorem Chip.settled_oe (c : Chip) : c.settled.dev.oe = c.dev.oe := rfl
@[simp] theorem Chip.settled_by_ (c : Chip) : c.settled.dev.by_ = c.dev.by_ := rfl
@[simp] theorem Chip.settled_d2 (c : Chip) : c.settled.dev.d2 = c.dev.d2 := rfl
@[simp] theorem Chip.settled_pw (c : Chip) : c.settled.dev.pw = c.dev.pw := rfl
@[simp] theorem Chip.settled_se (c : Chip) : c.settled.dev.se = c.dev.se := rfl
@[simp] theorem Chip.settled_st (c : Chip) : c.settled.dev.st = c.dev.st := rfl
@[simp] theorem Chip.settled_parserDrops (c : Chip) : c.settled.dev.parserDrops = c.dev.parserDrops := rfl
@[simp] theorem Chip.settled_around (c : Chip) :
    c.settled.fuses = c.fuses ∧ c.settled.flash = c.flash ∧ c.settled.pend = c.pend := by
  and_intros <;> rfl
@[simp] theorem Chip.on_dev (c : Chip) (f : Dev → Dev) : (c.on f).dev = f c.dev := rfl
@[simp] theorem Chip.on_around (c : Chip) (f : Dev → Dev) :
    (c.on f).fuses = c.fuses ∧ (c.on f).flash = c.flash ∧ (c.on f).pend = c.pend := by
  and_intros <;> rfl

end Sys2Proof.Machine
end

