-- ==== Sys2Proof/Tests/Slice0.lean ====
section
/-! SUPPORT. Small tests. `witness_…` theorems show, for each statement with hypotheses, a state and operands that meet them, clause
by clause; the others run one command on a small state and check what the manual gives. Every state is built from the
device at power-on by the helpers here. -/

namespace Sys2Proof.Tests

set_option Elab.async false

open Sys2Proof Sys2Proof.Machine

/-- A machine with a given device, factory fuses and flash, and no command waiting. -/
def at_ (d : Dev) : State := { State.reset with chip := { State.reset.chip with dev := d } }

/-- A machine whose device is `d`, with given flash. -/
def atF (d : Dev) (f : Flash) : State := { State.reset with chip := { State.reset.chip with dev := d, flash := f } }

/-- Sets the states of the core dies and the hub. -/
def dies (d : Dev) (a b h : Nat) : Dev := ((d.wr F.HUB_STRAP_state 0 0 a).wr F.HUB_STRAP_state 0 1 b).wr F.HUB_STRAP_state 0 22 h

/-- A device whose hub and core dies run under an image with one electrical port on each die, lanes 0 and 512, and one optical
port of width 1 on lane 8. -/
def dev : Dev := dies { Dev.fresh0 with
  cfg := { Cfg.none with
    active := true, groups := [(0, ⟨true, 0, false⟩), (2, ⟨false, 0, false⟩), (128, ⟨true, 0, false⟩)],
    ports := [(0, ⟨1, 0, BitVec.allOnes 64⟩), (8, ⟨1, 0, BitVec.allOnes 64⟩), (512, ⟨1, 0, BitVec.allOnes 64⟩)] },
  pw := { Dev.fresh0.pw with good := true, restart := false } } 1 1 1

/-- The same with the links of the ports on lanes 0 and 8 up. -/
def up : Dev := (dev.wr F.LANE_PORT_STAT_state 0 0 2).wr F.LANE_PORT_STAT_state 0 8 2

/-- A frame of a type and class in job block 0, its length field right. -/
def frame (ftype cls flags : Nat) (w3 : Word) (pay : List Byte) : Frame :=
  ⟨wmk [(63, 60, 1), (59, 56, ftype), (55, 53, cls)], 0, wmk [(31, 16, pay.length), (15, 8, 16), (7, 0, flags)], w3, pay⟩

/-- A contribution to slot group 0: 64 bytes of zeros in format 0. -/
def contribution : Frame := frame 1 6 0 0 (List.replicate 64 0)

/-- A unicast frame of 64 bytes in class 5. -/
def unicast : Frame := frame 0 5 0 0 (List.replicate 64 0)

/-- A queued frame. -/
def queued : Desc := ⟨7, 0, .port 8, .port 0, 5, unicast, [3, 4], 0, none, some 0, 0, 0, 0, none, none⟩

-- Statements about steps and arriving frames ------------------------------------------------------------------------------------

theorem witness_IdleStepTicks : State.reset.pending = [] := rfl

/-- FrameArrivals: a frame that waits for its home die, and the lookup it passed. -/
theorem witness_FrameArrivals_wait :
    let d := ((up.wrw .FWD_PORT_MASK 0 0 1).wrw .HUB_ADMIT 0 0 1).wrw .SYNC_HOME_DATA 0 0 (fput (fput 0 F.SYNC_HOME_DATA_valid.hi F.SYNC_HOME_DATA_valid.lo 1)
      F.SYNC_HOME_DATA_die.hi F.SYNC_HOME_DATA_die.lo 1)
    let bytes := wireBytes contribution false
    let f := parseFrame bytes
    d.isPort 0 = true ∧ d.dieRuns 0 = true ∧ parserReason bytes (d.portBlocks 0) = none ∧ f.ftype = 1 ∧
    d.admitted 0 f.block = true ∧ d.fenced 0 f = false ∧ d.learns 0 f = false ∧ f.dest = d.rd F.FWD_DEV_DFID_dfid 0 0 ∧
    d.on F.SYNC_HOME_DATA_valid 0 f.slotGroup = true ∧ d.rd F.SYNC_HOME_DATA_die 0 f.slotGroup ≠ 0 := by decide +kernel

/-- FrameArrivals: a frame cut short fails check 1, one with a stomped trailer check 2. -/
theorem witness_FrameArrivals_drop : up.isPort 0 = true ∧ up.dieRuns 0 = true ∧
    parserReason (List.replicate 35 0) (up.portBlocks 0) = some 1 ∧
    parserReason (wireBytes contribution true) (up.portBlocks 0) = some 2 := by decide +kernel

theorem witness_FrameArrivals_home :
    let p : Parked := ⟨0, 0, 0, contribution⟩
    let d := ((up.wr F.SYNC_HOME_DATA_valid 0 0 1).wr F.D2D_STAT_peer 0 0 1).wr F.D2D_STAT_peer 1 0 1
    let d : Dev := { d with fw := { d.fw with homeWait := [p] } }
    d.fw.homeWait.find? (fun p => p.die == 0) = some p ∧ d.on F.SYNC_HOME_DATA_valid 0 p.frame.slotGroup = true ∧
    d.dieRuns (d.rd F.SYNC_HOME_DATA_die 0 p.frame.slotGroup) = true ∧ d.peerOk = true := by decide +kernel

theorem witness_HeadAccepted :
    let x : Desc := { queued with stamp := none }
    let d : Dev := { up with sw := { up.sw with queue := [x] } }
    let d := d.wr F.TM_ADM_CFG_share 0 0 100
    ∃ y ∈ d.waitHeads 0 0, d.rd F.TM_ADM_STAT_count 0 0 + y.frame.len ≤ d.rd F.TM_ADM_CFG_share 0 0 := by decide +kernel

theorem witness_EgressStarts :
    let d : Dev := { up with sw := { up.sw with queue := [queued] } }
    let d := d.wr F.TM_CRD_STAT_held 0 (pcKey 0 5) 100
    d.isPort 0 = true ∧ d.portState 0 = 2 ∧ smFind d.sw.tx 0 = none ∧ d.shed < 5 ∧ d.dieRuns 0 = true ∧
    (d.schedule 0).map (fun p => p.desc) = some queued := by decide +kernel

theorem witness_FramesLeave :
    let d : Dev := { up with sw := { up.sw with tx := [(0, ⟨queued, 0, true⟩), (512, ⟨queued, 1, false⟩)],
                                                acks := [⟨0, 7, 0, 3, some 512, 5⟩] } }
    let d := (d.wr F.D2D_STAT_peer 0 0 1).wr F.D2D_STAT_peer 1 0 1
    let full : Dev := { d with sw := { up.sw with tx := [(512, ⟨{ queued with cells := List.range 26 }, 24, false⟩)] } }
    let apart : Dev := d.wr F.D2D_STAT_peer 1 0 0
    (smFind d.sw.tx 0 = some ⟨queued, 0, true⟩ ∧ queued.die = laneDie 0 ∧ queued.flip = 0 ∧ queued.result = none ∧ d.shed < 5) ∧
    (smFind d.sw.tx 512 = some ⟨queued, 1, false⟩ ∧ queued.die ≠ laneDie 512 ∧ queued.cells[1]? = some 4 ∧ 1 < d.stageWindow 512 5 ∧ d.peerOk = true) ∧
    (smFind full.sw.tx 512 = some ⟨{ queued with cells := List.range 26 }, 24, false⟩ ∧ (List.range 26)[24]? = some 24 ∧
      full.stageWindow 512 5 ≤ 24 ∧ full.peerOk = true) ∧ (smFind apart.sw.tx 512 = some ⟨queued, 1, false⟩ ∧ apart.peerOk = false) ∧
    d.sw.acks.find? (fun a => a.die == 0) = some ⟨0, 7, 0, 3, some 512, 5⟩ := by decide +kernel

theorem witness_TrafficRefills :
    let d : Dev := { up with tm := { up.tm with bulkTokens := [(0, 4132)] } }
    let d := ((d.wr F.TM_SAT_CFG_dwell 0 0 1).wr F.TM_Q_CFG_sat_thr 0 (pcKey 0 5) 2).wr F.TM_SAMP_CTRL_freeze 0 0 0
    let d : Dev := { d with tm := { d.tm with peerDepth := [(qgKey 0 0 5, 2)] } }
    let frozen := d.wr F.TM_SAMP_CTRL_freeze 0 0 1
    let on : Shaper := ⟨true, 8, 64, 60⟩
    let shaped : Dev := { d.wr F.TM_SHP_CFG_enable 0 (shpKey 0 1) 1 with tm := { d.tm with shapers := [(0, on)], shaperDirty := [1] } }
    d.isPort 0 = true ∧ smFind d.tm.bulkTokens 0 = some 4132 ∧
    (smFind shaped.tm.shapers 0 = some on ∧ laneDie (0 / 8) = 0 ∧ 0 ∉ shaped.tm.shaperDirty ∧ 1 ∈ shaped.tm.shaperDirty ∧
      laneDie (8 * 512 / 8) ≠ 0) ∧ (frozen.on F.TM_SAMP_CTRL_freeze 0 0 = true ∧ frozen.dieRuns 0 = true) ∧
    (d.on F.TM_SAMP_CTRL_freeze 0 0 = false ∧ d.shed = 0 ∧ d.dieRuns 0 = true) ∧
    (d.rd F.TM_SAT_CFG_dwell 0 0 ≠ 0 ∧ d.rd F.TM_Q_CFG_sat_thr 0 (pcKey 0 5) ≠ 0 ∧
      d.rd F.TM_Q_CFG_sat_thr 0 (pcKey 0 5) ≤ d.depth 0 0 5 ∧ smGet d.tm.satLatch (pcKey 0 5) false = false) := by decide +kernel

theorem witness_AuditPasses :
    let d := dev.wr F.SWC_AUDIT_STAT_busy 1 0 1
    let lost : Dev := { d.wr F.SWC_REQ_STAT_in_use 1 3 2 with sw := { d.sw with cells := [(1048576 + 5, ⟨640, false, true, 1⟩)] } }
    (d.on F.SWC_AUDIT_STAT_busy 0 0 = false ∧ d.dieRuns 0 = true) ∧ (d.on F.SWC_AUDIT_STAT_busy 1 0 = true ∧ d.dieRuns 1 = true) ∧
    (lost.sw.cells.filter fun e => e.1 / 1048576 == 1 && !(lost.reached 1).contains e.1 && !e.2.mark && e.2.suspect) = lost.sw.cells ∧
    lost.on F.SWC_AUDIT_STAT_busy 1 0 = true ∧ (lost.wr F.SWC_AUDIT_CTRL_quiet 1 0 1).on F.SWC_AUDIT_CTRL_quiet 1 0 = true ∧
    lost.rd F.SWC_REQ_STAT_in_use 1 3 ≠ 0 ∧
    d.pairBusy (.port 8) 0 = false := by decide +kernel

-- Arriving frames that pass the parser ------------------------------------------------------------------------------------------

/-- The device with the ports of lanes 0 and 8 open for block 0, and room for class 5 of port 0. -/
def open_ : Dev :=
  let d := (((up.wrw .FWD_PORT_MASK 0 0 1).wrw .FWD_PORT_MASK 0 8 1).wrw .HUB_ADMIT 0 0 1).wr F.FWD_RT_GEOM_enable 0 0 1
  let r := requester (.port 0) 5
  ((d.wr F.SWC_REQ_CFG_quota 0 r 100).wr F.SWC_REQ_CFG_rec_quota 0 r 9).wr F.SWC_POOL_CFG_size 0 0 1000

/-- The same with a default route. -/
def routed (kind target : Nat) (poisoned : Bool) : Dev := (open_.placeRoute ⟨0, ⟨poisoned, 0, 0, kind, target, 0⟩⟩).getD open_

/-- A frame of 64 bytes to DFID 5 in class 5, with a hop limit and a colour. -/
def toFive (hop colour : Nat) : Frame :=
  { unicast with w0 := fput (fput unicast.w0 41 18 5) 52 51 colour, w2 := fput unicast.w2 15 8 hop }

/-- The same with the multicast flag: index 5 of its region. -/
def toGroup : Frame := { toFive 16 0 with w2 := fput (toFive 16 0).w2 7 0 4 }

/-- The device with a default route to a bundle of port 8. -/
def bundled : Dev := { routed 2 3 false with cfg := { up.cfg with bundles := [(3, [8])] } }

/-- What the forward of such a frame asks of the device and the frame, but its route. -/
abbrev forwards (d : Dev) (f : Frame) : Prop :=
  Passes d 0 (wireBytes f false) ∧ f.ftype ≠ 5 ∧ d.fenced 0 f = false ∧ d.learns 0 f = false ∧ f.flag 0 = false ∧
  f.flag 2 = false ∧ f.dest ≠ d.rd F.FWD_DEV_DFID_dfid 0 0 ∧ (parseFrame (wireBytes f false)) = f

theorem witness_FrameArrivals_forward :
    forwards open_ (toFive 16 3) ∧ forwards open_ (toFive 0 3) ∧ forwards (routed 1 8 true) (toFive 16 3) ∧
    forwards (routed 1 8 false) (toFive 16 3) ∧ forwards bundled (toFive 16 3) ∧
    (open_.wr F.FWD_EPOCH_epoch 0 0 1).bankFor 0 (toFive 16 3).epoch = none ∧ forwards (open_.wr F.FWD_EPOCH_epoch 0 0 1) (toFive 16 3) ∧
    open_.bankFor 0 (toFive 16 3).epoch = some 0 := by
  unfold forwards Passes
  and_intros <;> decide +kernel

theorem witness_FrameArrivals_routes :
    ((open_.lpm 0 0 5 24).2 = .none ∧ ((routed 1 8 true).lpm 0 0 5 24).2 = .poisoned ∧
      ((routed 1 8 false).lpm 0 0 5 24).2 = .target 1 8 ∧ (bundled.lpm 0 0 5 24).2 = .target 2 3) ∧
    (∀ d ∈ [routed 1 8 false, bundled], d.portOpen 0 8 = true ∧ d.admitted (laneDie 8) 0 = true ∧ d.meterOf 0 5 = none ∧
      d.lossless 0 (requester (.port 0) 5) 5 = true ∧ smFind d.sw.opens (voqKey (.port 0) (.port 8) 5) = none) ∧
    (bundled.chooseMember (.port 0) 3 (toFive 16 3) 5 none).2 = some 8 := by
  and_intros <;> decide +kernel

/-- Cells for a frame of one, and a record, are free, whichever pipeline takes them. -/
theorem reserve_ok (d : Dev) (mc : Bool) (h : let q := requester (.port 0) 5; let p := d.rd F.SWC_REQ_CFG_pool 0 q
    d.rd F.SWC_REQ_STAT_in_use 0 q + 1 ≤ d.rd F.SWC_REQ_CFG_quota 0 q ∧ d.rd F.SWC_POOL_STAT_in_use 0 p + 1 ≤ d.rd F.SWC_POOL_CFG_size 0 p ∧
    d.mrecsOf 0 < 32768 ∧ d.rd F.SWC_REQ_STAT_rec_in_use 0 q < d.rd F.SWC_REQ_CFG_rec_quota 0 q ∧
    ∀ p : Fin 64, (takeCells 0 p.val q false 1 d.sw.cells).isSome = true) : ∃ ks, (d.reserve 0 (.port 0) 5 1 mc).2 = .ok ks := by
  obtain ⟨hq, hp, hm, hr, hc⟩ := h
  obtain ⟨⟨ks, m⟩, e⟩ := Option.isSome_iff_exists.1 (hc (Config.pipeline d.freeCtr))
  refine ⟨ks, ?_⟩
  have key : ∀ e : Dev, e = { d with freeCtr := d.freeCtr + 1 } → (∀ f u i, e.rd f u i = d.rd f u i) ∧ e.mrecsOf 0 = d.mrecsOf 0 := by
    rintro _ rfl
    exact ⟨fun _ _ _ => rfl, rfl⟩
  unfold Dev.reserve Dev.fresh
  obtain ⟨k1, k2⟩ := key _ rfl
  simp only [k1, k2]
  rw [if_neg (by simp; omega), if_neg (by simp; omega), if_neg (by simp; omega)]
  simp only [show decide (5 = 7) = false from rfl, Bool.false_eq_true, if_false, e]

theorem witness_FrameArrivals_cells : ∀ x ∈ [(routed 1 8 false, false), (bundled, false), (open_, true)],
    ∃ ks, (x.1.reserve 0 (.port 0) 5 1 x.2).2 = .ok ks := by
  intro x hx
  refine reserve_ok _ _ ?_
  revert x
  decide +kernel

/-- The same port learns, with an entry of the key of rank 0 in the table or none. -/
def learning (es : List LogEntry) : Dev :=
  let d := ((((open_.wr F.FWD_PORT_CFG_learn 0 0 1).wr F.FWD_BLK_CFG_learn 0 0 1).wr F.FWD_PORT_CFG_tgt_kind 0 0 1).wr F.FWD_PORT_CFG_target 0 0 8)
  { d with fw := { d.fw with logical := es.map fun e => (lgBase 0 + (open_.logPos 0 (logKey 0 0) 32768).getD 0 0, e) } }

theorem witness_FrameArrivals_learn :
    let old := fun (kind : Nat) => (⟨false, kind, 1, 7, 5, 0, 0, 0, 0⟩ : LogEntry)
    (∀ es ∈ [[], [old 0], [old 1], [old 2]], Passes (learning es) 0 (wireBytes (toFive 16 0) false) ∧
      (learning es).fenced 0 (toFive 16 0) = false ∧ (learning es).learns 0 (toFive 16 0) = true ∧
      (learning es).findLog 0 (logKey 0 0) = es[0]?.map fun e => ((open_.logPos 0 (logKey 0 0) 32768).getD 0 0, e)) ∧
    parseFrame (wireBytes (toFive 16 0) false) = toFive 16 0 ∧ (toFive 16 0).ftype ≤ 1 ∧ (toFive 16 0).srcRank = 0 ∧
    (learning []).roomLog 0 (logKey 0 0) = true ∧ (old 1).target ≠ (learning []).rd F.FWD_PORT_CFG_target 0 0 := by
  unfold Passes
  decide +kernel

theorem clean_of (d : Dev) (die key : Nat) (h : d.fw.logical.all (fun e => e.2.flip == 0) = true) : KeyClean d die key := by
  intro p _ y hy
  have : ∀ (m : SMap LogEntry) k, smFind m k = some y → ∃ e ∈ m, e.2 = y := by
    intro m
    induction m with
    | nil => intro k h; cases h
    | cons a t ih =>
      intro k h
      unfold smFind at h
      split at h
      · exact ⟨a, by simp, by simpa using h⟩
      · obtain ⟨e, he, rfl⟩ := ih k h
        exact ⟨e, by simp [he], rfl⟩
  obtain ⟨e, he, rfl⟩ := this _ _ hy
  simpa using List.all_eq_true.1 h e he

theorem witness_FrameArrivals_clean : ∀ es ∈ [[], [(⟨false, 0, 1, 7, 5, 0, 0, 0, 0⟩ : LogEntry)], [⟨false, 1, 1, 7, 5, 0, 0, 0, 0⟩]],
    KeyClean (learning es) 0 (logKey 0 0) := by
  intro es h
  refine clean_of _ _ _ ?_
  revert es
  decide +kernel

/-- A multicast frame of index 5: its group has ports 0 and 8, or stands outside the block's region. -/
theorem witness_FrameArrivals_group :
    let grouped : Dev := (open_.wr F.SWC_MC_REGION_size 0 0 6).wrw .VM_MC 0 (5 * 19) 0x101
    let w := fun i => grouped.rdw .VM_MC 0 (5 * 19 + i)
    (∀ d ∈ [grouped, open_.wr F.SWC_MC_REGION_size 0 0 5], Passes d 0 (wireBytes toGroup false) ∧ d.fenced 0 toGroup = false ∧
      d.learns 0 toGroup = false) ∧
    parseFrame (wireBytes toGroup false) = toGroup ∧ toGroup.ftype ≠ 5 ∧ toGroup.flag 2 = true ∧ toGroup.hop ≠ 0 ∧
    (open_.wr F.SWC_MC_REGION_size 0 0 5).rd F.SWC_MC_REGION_size 0 0 ≤ toGroup.dest % 65536 ∧
    toGroup.dest % 65536 < grouped.rd F.SWC_MC_REGION_size 0 0 ∧ grouped.rd F.SWC_MC_REGION_base 0 0 = 0 ∧ fget (w 16) 1 0 = 0 ∧
    (∀ i < 8, wbit (w (17 + i / 4)) (16 * (i % 4) + 15) = false) ∧ (grouped.bitmapPorts w).filter (fun p => p != 0) = [8] ∧
    grouped.admitted (laneDie 8) 0 = true ∧ grouped.portOpen 0 8 = true ∧ grouped.meterOf 0 5 = none ∧
    grouped.lossless 0 (requester (.port 0) 5) 5 = true := by
  unfold Passes
  decide +kernel

/-- A barrier arrival at counter 3 of die 0. -/
def barrier (member weight : Nat) : Frame :=
  frame 3 7 0 0 (wordsPay [wmk [(47, 35, 3), (34, 25, member), (24, 14, weight)], 0])

theorem witness_FrameArrivals_barrier :
    let d := (open_.wr F.SYNC_BAR_CFG_valid 0 3 1).wr F.SYNC_BAR_CFG_expected 0 3 2
    (∀ w ∈ [0, 1, 2, 3], Passes d 0 (wireBytes (barrier 1023 w) false) ∧ parseFrame (wireBytes (barrier 1023 w) false) = barrier 1023 w ∧
      (barrier 1023 w).ftype = 3 ∧ d.fenced 0 (barrier 1023 w) = false ∧ (barrier 1023 w).flag 2 = false ∧
      (barrier 1023 w).dest = d.rd F.FWD_DEV_DFID_dfid 0 0 ∧
      (let b := payWord (barrier 1023 w).payload 0; fget b 47 35 = 3 ∧ fget b 34 25 = 1023 ∧ fget b 24 14 = w ∧ wbit b 63 = false ∧
        fget b 55 48 = d.rd F.SYNC_BAR_STAT_generation 0 3)) ∧
    d.dieRuns 0 = true ∧ d.on F.SYNC_BAR_CFG_valid 0 3 = true ∧ d.rd F.SYNC_BAR_CFG_block 0 3 = 0 ∧
    (smGet d.sy.barVec 3 0).getLsbD 1023 = false ∧ d.rd F.SYNC_BAR_CFG_expected 0 3 = 2 ∧ d.rd F.SYNC_BAR_STAT_weight 0 3 = 0 ∧
    d.on F.SYNC_BAR_TGT_parent 0 3 = false := by
  unfold Passes
  decide +kernel

/-- A crozier frame of sequence 9 in class 7. -/
def crozier (kind hop n : Nat) : Frame :=
  let f := frame 5 7 0 0 (wordBytes (wmk [(63, 62, kind)]) ++ List.replicate n 0)
  { f with w2 := fput (fput f.w2 15 8 hop) 63 32 9 }

theorem witness_FrameArrivals_crozier :
    let d := open_.wrw .SYNC_CRZ_DATA 0 0 0x100
    let again : Dev := { d with sy := { d.sy with crzSeen := [(0, [9])] } }
    (∀ f ∈ [crozier 0 16 8, crozier 0 16 7, crozier 0 0 8, crozier 1 16 8], Passes d 0 (wireBytes f false) ∧
      parseFrame (wireBytes f false) = f ∧ f.ftype = 5) ∧
    Passes again 0 (wireBytes (crozier 0 16 8) false) ∧ Passes open_ 0 (wireBytes (crozier 0 16 8) false) ∧
    d.crzPorts 0 0 0 ≠ [] ∧ open_.crzPorts 0 0 0 = [] ∧ (crozier 0 16 7).payload.length < 16 ∧ (crozier 0 16 8).payload.length = 16 ∧
    (9 : Nat) ∈ smGet again.sy.crzSeen 0 [] ∧ smGet d.sy.crzSeen 0 [] = [] ∧ (crozier 1 16 8).dest = d.rd F.FWD_DEV_DFID_dfid 0 0 ∧
    (crozier 0 16 8).mseq = 9 ∧ d.rd F.SYNC_CRZ_STAT_sequence 0 0 ≠ 9 ∧
    (d.wr F.SYNC_CRZ_STAT_sequence 0 0 9).rd F.SYNC_CRZ_STAT_sequence 0 0 = 9 := by
  unfold Passes
  decide +kernel

-- Forwarding tables -------------------------------------------------------------------------------------------------------------

/-- A backing entry of a port. -/
def entry : LogEntry := ⟨false, 0, 1, 0, 5, 0, 9, 0, 0⟩

theorem witness_FetchEnds :
    let back := (up.logPos 0 9 2097152).getD 0 0
    let own := lgBase 1 + (up.logPos 1 8 32768).getD 0 0
    let d : Dev := { up with fw := { up.fw with
      fetches := [(0, 9), (1, 8)], backing := [(back, entry)], logical := [(own, { entry with rank := 8 })] } }
    (d.fw.fetches.contains (0, 9) = true ∧ d.fw.miss = [] ∧ d.findLog 0 9 = none ∧ d.roomLog 0 9 = true ∧
      d.findBack 0 9 = some (back, entry) ∧ entry.flip = 0 ∧ d.keyUp 0 9 = true) ∧
    (d.fw.fetches.contains (1, 8) = true ∧ ((d.readKey 1 8).findLog 1 8).isSome = true ∧ d.findBack 1 8 = none ∧ d.keyUp 1 8 = true) ∧
    d.fw.logical.all (fun e => e.2.flip == 0) = true := by decide +kernel

/-- The device with entries of key 9 on die 0, a change on its way, and an own one of die 0. -/
def changing (es : List LogEntry) (c : CrossChange) (own : Option OwnChange) : Dev :=
  { up with fw := { up.fw with logical := es.map fun e => (lgBase 0 + (up.logPos 0 9 32768).getD 0 0, e), cross := [c],
                               lastChange := own.toList.map fun o => (9, o) } }

/-- Changes of key 9 that die 1 sends in tick 3: a removal, a refresh, an insertion. -/
def changes : List CrossChange :=
  let e : LogEntry := { entry with kind := 1, ts := 5 }
  [⟨1, 9, none, false, 3⟩, ⟨1, 9, some e, true, 3⟩, ⟨1, 9, some { e with target := 3 }, false, 3⟩]

theorem witness_TableUpkeep :
    (∀ c ∈ changes, ∀ es ∈ [[], [entry], [{ entry with kind := 1 }]], ∀ own ∈ [none, some ⟨4, none⟩, some ⟨3, none⟩, some ⟨2, none⟩, some ⟨4, some 99⟩],
      smRising 0 (changing es c own).fw.logical = true ∧ (changing es c own).fw.cross.find? (fun c => c.from_ != 0) = some c ∧
      c.key = 9 ∧ c.tick = 3 ∧ (changing es c own).findLog 0 9 = es[0]?.map (fun e => ((up.logPos 0 9 32768).getD 0 0, e)) ∧
      smFind (changing es c own).fw.lastChange 9 = own ∧ (changing es c own).dieRuns 1 = true ∧
      ((changing es c own).fw.cross.any fun x => x.from_ == 0 && x.key == c.key) = false ∧ (changing es c own).roomLog 0 9 = true) ∧
    entry.kind = 0 ∧ entry.block < 64 ∧ entry.key = 9 ∧ ({ entry with kind := 1 } : LogEntry).key = 9 := by
  decide +kernel

theorem witness_TableUpkeep_clean : ∀ c ∈ changes, ∀ es ∈ [[], [entry], [{ entry with kind := 1 }]], ∀ own,
    KeyClean (changing es c own) 0 9 := by
  intro c _ es h own
  refine clean_of _ _ _ ?_
  show (es.map fun e => (lgBase 0 + (up.logPos 0 9 32768).getD 0 0, e)).all (fun e => e.2.flip == 0) = true
  revert es
  decide +kernel

theorem witness_TableCommands :
    let d : Dev := { up with fw := { up.fw with cmd := [(0, ⟨2, 7⟩)], swapPend := [(1, true)] } }
    smFind d.fw.cmd 0 = some ⟨2, 7⟩ ∧ smGet d.fw.swapPend 1 false = true ∧ smGet d.fw.swapPend 0 false = false ∧
    d.hubRuns = true := by decide +kernel

-- Collectives and lichen --------------------------------------------------------------------------------------------------------

/-- The key of a chunk of descriptor 5 on die 0. -/
def key5 : ChunkKey := ⟨0, 5, 0, 0⟩

/-- A record of that chunk in a state, with one contribution admitted and applied. -/
def rec5 (st : ChunkState) : ChunkRec :=
  { key := key5, group := 0, block := 0, array := 2, state := st, covered := 0, partials := [], admitted := 1, applied := 1,
    firstT := 0, lastT := 0, lastIdx := 0, lastApplied := 0, folded := 1, check := 0, accs := List.replicate 32 ⟨0, 0, 0, true, []⟩,
    units := [(0, 1)], spillUnits := 1, resident := false, fetching := false, copies := 0, left := false, verified := false, retracted := false,
    flip := 0, flips := [], recFlip := 0, out := [] }

/-- The device with one chunk record. -/
def withRec (r : ChunkRec) : Dev := { up with sy := { up.sy with recs := [r] } }

theorem witness_ChunksTimeOut :
    let leafy : Dev := (withRec (rec5 .onDie)).wrw .VM_DESC 0 (5 * 27 + 3) 1
    (withRec (rec5 .passThrough)).chunk? key5 = some (rec5 .passThrough) ∧ (withRec (rec5 .passThrough)).mirrored 0 0 = false ∧
    (leafy.chunk? key5 = some (rec5 .onDie) ∧ leafy.allIn (rec5 .onDie) = false) ∧
    (withRec (rec5 .spilled)).chunk? key5 = some (rec5 .spilled) ∧
    ((withRec (rec5 .onDie)).allIn (rec5 .onDie) = true ∧ (rec5 .onDie).admitted = (rec5 .onDie).applied) ∧
    (withRec (rec5 .closed)).chunk? key5 = some (rec5 .closed) ∧ key5.die < 2 := by decide +kernel

theorem witness_ChunksTimeOut_range : (rec5 .passThrough).InRange := by
  refine ⟨by decide, by decide, by decide, by decide, ?_⟩
  intro u h
  simp only [rec5, List.mem_singleton] at h
  subst h
  decide

theorem witness_ArrayTakesFrame :
    let x : Desc := { queued with dest := .array 2, cls := 6, frame := contribution, stamp := none }
    let r : ChunkRec := { rec5 .onDie with admitted := 3, folded := 65535 }
    let d : Dev := { withRec r with sw := { up.sw with queue := [x] } }
    d.shed < 5 ∧ d.dieRuns 0 = true ∧
    rrNext (smGet d.tm.drrVoq (pcKey 1026 6) 0) ((headsOf d.sw.queue (.array 2)).filter fun x => d.takeable x) = some x ∧
    x.flip = 0 ∧ r.flip = 0 ∧ r.flips = [] ∧
    (match r.apply (d.dscOf r) x.frame d.tick r.accs [] with
     | .ok r1 => decide (r1.admitted ≠ r1.applied)
     | .error _ => false) = true := by decide +kernel

theorem witness_ArrayTakesFrame_record :
    let x : Desc := { queued with dest := .array 2, cls := 6, stamp := none, chunk := some key5,
                                  frame := { contribution with w3 := wmk [(63, 48, 0)] } }
    (withRec (rec5 .onDie)).recordFor x = some (rec5 .onDie) := by decide +kernel

theorem witness_VerificationEnds :
    let sum := crc32c (chunkPayloads ((withRec (rec5 .sending)).dscOf (rec5 .sending)) (rec5 .sending)).1.flatten
    let r := { rec5 .sending with check := sum }
    (withRec r).chunk? key5 = some r ∧ r.state = .sending ∧ r.verified = false ∧ r.flip = 0 ∧ r.flips = [] ∧ r.copies = 0 ∧ r.left = false ∧
    (withRec { r with copies := 1 }).chunk? key5 = some { r with copies := 1 } ∧
    crc32c (chunkPayloads ((withRec r).dscOf r) r).1.flatten = r.check ∧
    crc32c (chunkPayloads ((withRec r).dscOf r) { r with check := sum + 1 }).1.flatten ≠ { r with check := sum + 1 }.check := by decide +kernel

theorem witness_SpillCommands :
    let x : Desc := { queued with dest := .array 2, cls := 6, frame := contribution, stamp := none, chunk := some key5 }
    let st := fun (r : ChunkRec) =>
      (({ withRec r with sw := { up.sw with queue := [x] } } : Dev).wr F.SYNC_SPILL_CFG_enable 0 0 1).wr F.SYNC_SPILL_CFG_window 0 0 1
    let fresh : ChunkRec := { rec5 .spilled with applied := 0 }
    let met := fun (r : ChunkRec) => (st r).spillAvail 0 = true ∧ (st r).headNeeds r = true ∧
      ((st r).sy.recs.filter fun r => r.key.die == 0 && r.array == 2 && r.state == .spilled && !r.resident && !r.fetching) = [r] ∧
      (st r).windowUsed 0 2 + r.spillUnits ≤ (st r).rd F.SYNC_SPILL_CFG_window 0 0
    met fresh ∧ met (rec5 .spilled) ∧ fresh.applied = 0 ∧ (rec5 .spilled).applied ≠ 0 ∧
    (withRec { rec5 .spilled with fetching := true }).chunk? key5 = some { rec5 .spilled with fetching := true } ∧
    (withRec fresh).chunk? fresh.key = some fresh ∧ fresh.admitted ≠ fresh.applied := by decide +kernel

theorem witness_BarriersAndLichen :
    let g : Digest := ⟨0, 0, 0, 0⟩
    let e : LichenPend := ⟨0, 0, 0, 0, some g, none⟩
    let hit := fun (x : LichenPend) => x.die == 0 && x.group == 0 && x.chunk == 0 && x.step == 0
    let d := ((up.wr F.SYNC_BAR_CFG_valid 0 3 1).wr F.SYNC_BAR_STAT_weight 0 3 1).wr F.RED_LCH_CFG_enable 0 0 1
    let p : Dev := { d with sy := { d.sy with lichen := [e] } }
    (d.dieRuns 0 = true ∧ d.on F.SYNC_BAR_CFG_valid 0 3 = true ∧ d.rd F.SYNC_BAR_STAT_weight 0 3 ≠ 0) ∧
    (d.on F.RED_LCH_CFG_enable 0 0 = true ∧ d.rd F.RED_LCH_CFG_port 0 0 = 0 ∧ d.on F.SYNC_HOME_DATA_valid 0 0 = false ∧
      d.sy.lichen.find? hit = none ∧ d.sy.lichenDone = [] ∧ (d.sy.lichen.filter fun x => x.die == 0).length < 4096) ∧
    (p.sy.lichen.find? hit = some e ∧ e.partner = none ∧ e.own = some g ∧ g.outcome = 0 ∧ p.heldChunk e = none ∧
      e.own.isSome ≠ e.partner.isSome) := by decide +kernel

theorem witness_KnownAnswer :
    let d := up.wr F.RED_KAT_STAT_busy 0 0 1
    d.on F.RED_KAT_STAT_busy 0 0 = true ∧ d.shed = 0 := by decide +kernel

-- Lanes and links ---------------------------------------------------------------------------------------------------------------

/-- A link block with one data segment and a given sequence. -/
def dataBlock (seq : Nat) : LinkBlock := ⟨seq, 0, [.data [0x11#8] :: List.replicate 9 .idle]⟩

/-- The device with one unacknowledged block on the port of lane 0. -/
def replaying : Dev := { up with ln := { up.ln with tx := [(0, ⟨[dataBlock 4], none, 8, [], 6, false, 0, 0⟩)],
                                                    rx := [(0, ⟨4, false, [], 16, 0, 0⟩)] } }

theorem witness_LinkRecovery :
    let d := replaying
    let idle := d.pwr F.LANE_PORT_STAT_rx_idle 0 1
    d.isPort 0 = true ∧ d.linkUp 0 = true ∧ (d.txLink 0).replay.findIdx? (fun b => b.seq == 4) = some 0 ∧
    (d.txLink 0).replay.findIdx? (fun b => b.seq == 5) = none ∧ (d.txLink 0).replay ≠ [] ∧ 8 ≤ (d.txLink 0).rounds ∧
    16 ≤ (d.rxLink 0).bad ∧ d.prd F.LANE_PORT_STAT_rx_idle 0 = 0 ∧ idle.linkUp 0 = true ∧
    idle.prd F.LANE_PORT_STAT_rx_idle 0 = 1 := by decide +kernel

theorem witness_LinksLeave :
    let d := up.wr F.LANE_LIVE_misses 0 0 8
    d.isPort 0 = true ∧ d.linkUp 0 = true ∧ d.sw.queue = [] ∧ smFind d.sw.tx 0 = none ∧ d.portWidth 0 ≤ 8 ∧
    8 ≤ d.rd F.LANE_LIVE_misses 0 0 ∧ d.rd F.LANE_LIVE_removed 0 0 = 0 := by decide +kernel

/-- One more credit than advertised, by a total that rises by 1. -/
theorem witness_CreditExcess :
    let d : Dev := { up.wr F.TM_CRD_STAT_held 0 (pcKey 0 0) 4095 with ln := { up.ln with partnerAdv := [(pcKey 0 0, 4095)] } }
    let k1 : Word := (creditWords fun c => if c = 0 then 1 else 0).getD 0 0
    let k2 : Word := (creditWords fun c => if c = 0 then 1 else 0).getD 1 0
    let n := (creditField k1 k2 0 + 4096 - smGet d.ln.crBase (pcKey 0 0) 0) % 4096
    d.linkUp 0 = true ∧ n ≠ 0 ∧ smGet d.ln.partnerAdv (pcKey 0 0) 0 < 4096 ∧
    smGet d.ln.partnerAdv (pcKey 0 0) 0 < d.rd F.TM_CRD_STAT_held 0 (pcKey 0 0) + n := by decide +kernel

theorem witness_CreditsMove :
    let t := dev.wr F.LANE_PORT_STAT_state 0 0 1
    (up.linkUp 0 = true ∧ up.isPort 0 = true ∧ up.portState 0 = 2 ∧ (up.train 0).sentAck = false ∧
      ∀ c < 8, up.rd F.TM_CRD_STAT_held 0 (pcKey 0 c) + (creditField 0 0 c + 4096 - smGet up.ln.crBase (pcKey 0 c) 0) % 4096 ≤
        smGet up.ln.partnerAdv (pcKey 0 c) 0 ∧ smGet up.ln.partnerAdv (pcKey 0 c) 0 < 4096) ∧
    (t.isPort 0 = true ∧ t.portState 0 = 1 ∧ (t.train 0).gotAdv = false ∧ t.portWidth 0 ≤ 8) := by decide +kernel

theorem witness_Heartbeats :
    let d : Dev := { up with ln := { up.ln with hb := [(0, [⟨3, false⟩])] } }
    let gone := fun (n : Nat) => (d.wr F.LANE_LIVE_removed 0 0 1).wr F.LANE_LIVE_streak 0 0 n
    let muted := d.wr F.LANE_LIVE_mute 0 0 1
    d.linkUp 0 = true ∧ d.isPort 0 = true ∧ d.dieRuns 0 = true ∧ d.rd F.LANE_LIVE_mute 0 0 = 0 ∧ muted.linkUp 0 = true ∧
    muted.rd F.LANE_LIVE_mute 0 0 = 1 ∧ smGet d.ln.hb 0 [] = [⟨3, false⟩] ∧ d.rd F.LANE_LIVE_removed 0 0 = 0 ∧
    (gone 6).linkUp 0 = true ∧ (gone 6).rd F.LANE_LIVE_removed 0 0 = 1 ∧ (gone 6).rd F.LANE_LIVE_streak 0 0 < 7 ∧
    7 ≤ (gone 7).rd F.LANE_LIVE_streak 0 0 ∧ (gone 7).rd F.LANE_LIVE_removed 0 0 = 1 := by decide +kernel

theorem witness_PortTraining :
    let t := dev.wr F.LANE_PORT_STAT_state 0 0 1
    let failed : Dev := { dev with ln := { dev.ln with train := [(0, { dev.train 0 with fails := 2 })] } }
    let word : Word := wmk [(63, 48, 0x7E5A), (44, 43, widthCode 1)]
    (dev.canTrain 0 = true ∧ dev.portWidth 0 ≤ 8 ∧ (dev.train 0).fails = 0) ∧
    (failed.canTrain 0 = true ∧ (failed.train 0).fails ≠ 0 ∧ failed.electrical 0 = true) ∧
    (t.portOf 0 = some 0 ∧ t.portState 0 = 1 ∧ t.isPort 0 = true ∧ fget (0 : Word) 63 48 ≠ 0x7E5A ∧ fget word 63 48 = 0x7E5A ∧
      fget word 44 43 = widthCode (t.portWidth 0) ∧ fget word 42 41 = 0 ∧ fget (fput word 42 41 1) 42 41 ≠ 0) := by decide +kernel

theorem witness_ElectricalIdle :
    let d : Dev := { up.wr F.LANE_PORT_CTRL_idle_timer 0 0 1 with ln := { up.ln with tx := [(0, ⟨[], none, 0, [], 6, true, 0, 0⟩)] } }
    let i : Dev := { up.wr F.LANE_PORT_STAT_state 0 0 3 with sw := { up.sw with queue := [queued] } }
    (d.rd F.LANE_PORT_CTRL_idle_timer 0 0 ≠ 0 ∧ d.idleReady 0 = true ∧ d.ln.ctl = [] ∧ 6 ≤ (d.txLink 0).since ∧
      d.portWidth 0 ≤ 8) ∧
    up.linkUp 0 = true ∧
    (i.isPort 0 = true ∧ i.portState 0 = 3 ∧ (i.wr F.TM_CRD_STAT_owed 0 (pcKey 0 0) 1).owes 0 = true ∧
      (i.wr F.TM_CRD_STAT_owed 0 (pcKey 0 0) 1).portState 0 = 3) := by decide +kernel

theorem witness_LinkBlocks :
    let d : Dev := { up with ln := { up.ln with tx := [(0, ⟨List.replicate 63 (dataBlock 0), none, 0, [0x11#8], 0, false, 0, 0⟩)] } }
    let leaves : Dev := { up.wr F.LANE_PORT_STAT_state 0 0 5 with ln := { up.ln with tx := [(0, { up.txLink 0 with exit := 6 })] } }
    (d.isPort 0 = true ∧ d.dieRuns 0 = true ∧ d.portState 0 = 2 ∧ (d.txLink 0).cursor = none ∧ (d.txLink 0).idleCmd = false ∧
      d.owes 0 = false ∧ d.ln.ctl = [] ∧ (d.txLink 0).replay.length < 64 ∧ d.portWidth 0 = 1 ∧ (d.txLink 0).stream ≠ [] ∧
      d.shed < 5 ∧ (up.txLink 0).stream = [] ∧ up.owes 0 = false ∧ d.prd F.LANE_STAT_pre_tx 0 ≠ 1 ∧ d.prd F.LANE_INJ_mode 0 ≠ 2) ∧
    (leaves.isPort 0 = true ∧ leaves.dieRuns 0 = true ∧ leaves.portState 0 = 5 ∧ (leaves.txLink 0).exit = 5 + 1) ∧
    (up.streams 0 = true ∧ up.lanesOf 0 = [0] ∧ up.laneTest 0 = false) := by
  decide +kernel

/-- The message of one lane that holds a full segment of frame data. -/
def message (seq : Nat) : List Byte :=
  blockMessage (List.replicate 128 0) seq 0 (.data (List.replicate 128 0x11#8) :: List.replicate 9 .idle)

theorem witness_LinkBlocks_taken :
    let d := up.wr F.LANE_STAT_block 0 0 1
    let met := fun (seq : Nat) => ([(some (message seq), 0, 0)] : List (Option (List Byte) × Nat × Nat)).mapM Prod.fst = some [message seq] ∧
      (blockOf [message seq]).hasData = true ∧ (∀ l ∈ (blockOf [message seq]).lanes, ∀ g ∈ l, g = .idle ∨ g.isData = true) ∧
      (blockOf [message seq]).seq = seq
    d.linkUp 0 = true ∧ d.locked 0 = true ∧ d.portWidth 0 = 1 ∧ met 0 ∧ met 1 ∧ (d.rxLink 0).expected = 0 ∧
    ([(none, 16, 0)] : List (Option (List Byte) × Nat × Nat)).mapM Prod.fst = none ∧ (d.rxLink 0).waiting = false := by
  decide +kernel

-- Fabric time and records -------------------------------------------------------------------------------------------------------

theorem witness_TimeFrames :
    let d := (up.wr F.TIME_CTRL_tx 0 0 1)
    let src := ((d.wr F.TIME_SRC_CFG_pri_en 0 0 1).wr F.TIME_SRC_CFG_primary 0 0 0).wr F.TIME_STAT_source 0 0 1
    let off := dies up 1 1 0
    let t2 : Word := wmk [(63, 48, 1), (31, 24, 254)]
    (d.isPort 0 = true ∧ d.portState 0 = 2 ∧ d.dieRuns 0 = true ∧ d.hubRuns = true ∧ d.on F.TIME_CTRL_tx 0 0 = true) ∧
    (d.linkUp 0 = true ∧ off.linkUp 0 = true ∧ off.dieRuns 0 = true ∧ off.hubRuns = false) ∧
    (fget (wmk [(23, 19, 1)]) 23 19 ≠ 0 ∧ fget (1 : Word) 15 0 ≠ 0) ∧
    (fget t2 23 19 = 0 ∧ fget t2 15 0 = 0 ∧ fget t2 31 24 ≠ 255 ∧ wbit t2 17 = false ∧ wbit t2 18 = false ∧
      d.sourceOf 8 = 0 ∧ src.sourceOf 0 = 1 ∧ src.linkUp 0 = true ∧ src.rd F.TIME_STAT_source 0 0 = 1 ∧
      src.on F.TIME_CTRL_root 0 0 = false ∧ d.linkUp 8 = true ∧ src.hubRuns = true) := by decide +kernel

theorem witness_FabricClock :
    let d := (up.wr F.TIME_STAT_state 0 0 1).wr F.TIME_CTRL_interval 0 0 1
    let lost : Dev := { up.wr F.TIME_STAT_source 0 0 1 with time := { up.time with valid := [1] } }
    up.rd F.TIME_STAT_state 0 0 = 0 ∧ (1000 * 2 ^ 33 : Nat) < (-(1000 * 2 ^ 33 + 1) : Int).natAbs ∧
    d.rd F.TIME_STAT_state 0 0 ≠ 0 ∧ ((1000 * 2 ^ 33 : Int)).natAbs ≤ 1000 * 2 ^ 33 ∧ d.rd F.TIME_CTRL_interval 0 0 ≠ 0 ∧
    (lost.hubRuns = true ∧ lost.prd F.LANE_PORT_STAT_rx_idle (lost.rd F.TIME_SRC_CFG_primary 0 0) = 0 ∧ lost.time.valid = [1] ∧
      lost.rd F.TIME_STAT_source 0 0 = 1 ∧ lost.on F.TIME_CTRL_root 0 0 = false) ∧
    (up.hubRuns = true ∧ up.dieRuns 0 = true ∧ 8 * 2 ^ 32 < (hallDiff (8 * 2 ^ 32 + 1) up.time.hall).natAbs ∧
      (hallDiff (8 * 2 ^ 32) up.time.hall).natAbs ≤ 8 * 2 ^ 32) := by decide +kernel

theorem witness_EpochsAndRecords :
    let d : Dev := { up.wr F.MEM_FR_CTRL_period 0 0 1 with time := { up.time with due := [0, 2] } }
    let f := d.wr F.MEM_FR_CTRL_freeze 0 0 1
    (2 ∈ d.time.due ∧ d.unitRuns 2 = true ∧ 0 ∈ d.time.due ∧ d.unitRuns 0 = true) ∧
    (d.rd F.MEM_FR_CTRL_period 0 0 ≠ 0 ∧ d.flightRuns = true) ∧ (f.rd F.MEM_FR_CTRL_period 0 0 ≠ 0 ∧ f.flightRuns = false) := by
  decide +kernel

-- Optical engines ---------------------------------------------------------------------------------------------------------------

/-- The device with engine 0 running and calibrated. -/
def engine : Dev := (up.wr F.HUB_STRAP_state 0 2 1).wr F.OE_STATE_in_service 0 0 1

theorem witness_EngineMonitors :
    let d := fun (b : Bool) => ({ engine with oe := { engine.oe with change := [(0, ⟨1, b⟩)] } } : Dev)
    engine.engineRuns 0 = true ∧ (List.replicate 18 (0 : Int))[17]? = some 0 ∧
    smFind (d true).oe.change 0 = some ⟨1, true⟩ ∧ smFind (d false).oe.change 0 = some ⟨1, false⟩ := by decide +kernel

theorem witness_EngineCalibration :
    let d := (engine.wr F.OE_CAL_STAT_busy 0 0 1).wr F.BYP_CAL_STAT_busy 0 0 1
    d.engineRuns 0 = true ∧ d.on F.OE_CAL_STAT_busy 0 0 = true ∧ d.oe.settling.contains 0 = false ∧ d.hubRuns = true ∧
    d.on F.BYP_CAL_STAT_busy 0 0 = true := by decide +kernel

/-- The optical port down, no lane's port is up. -/
theorem witness_EngineCalibration_unlock :
    dev.cfg.ports = [(0, ⟨1, 0, BitVec.allOnes 64⟩), (8, ⟨1, 0, BitVec.allOnes 64⟩), (512, ⟨1, 0, BitVec.allOnes 64⟩)] ∧ dev.linkUp 0 = false ∧ dev.linkUp 8 = false ∧ dev.linkUp 512 = false := by
  decide +kernel

theorem witness_Substitution :
    let at1 := engine.wr F.OE_STATE_sub 0 0 1
    let req := fun (ph : Nat) (lock ready : Bool) =>
      ({ at1 with oe := { at1.oe with req := [(1, ⟨5, 0, 0, 8, ph, lock, ready, 0⟩)] } } : Dev)
    let far := fun (ph : Nat) => ({ at1 with oe := { at1.oe with far := [(1, ⟨5, 0, 0, 8, ph, 9⟩)] } } : Dev)
    smFind (req 1 true false).oe.req 1 = some ⟨5, 0, 0, 8, 1, true, false, 0⟩ ∧ (req 1 true false).paused 0 = false ∧
    (req 1 true false).rd F.OE_STATE_sub 0 0 = 1 ∧ smFind (req 1 false true).oe.req 1 = some ⟨5, 0, 0, 8, 1, false, true, 0⟩ ∧
    smFind (req 4 true true).oe.req 1 = some ⟨5, 0, 0, 8, 4, true, true, 0⟩ ∧ (req 3 true true).portOf 8 = some 8 ∧
    (req 3 true true).linkUp 8 = true ∧ smFind (far 5).oe.far 1 = some ⟨5, 0, 0, 8, 5, 9⟩ ∧
    smFind (far 2).oe.far 1 = some ⟨5, 0, 0, 8, 2, 9⟩ ∧ (far 1).linkUp 8 = true ∧ smFind at1.oe.far 1 = none ∧ subLane 1 0 0 8 ∈ at1.lanesOf 8 ∧ subLane 1 0 1 8 ∉ at1.lanesOf 8 ∧
    (∀ w < 8, smGet at1.ln.rxWl (8 * 1 + w) w ≠ 8) ∧
    (let full : Dev := { at1 with ln := { at1.ln with rxWl := [(9, 8)] } }; 8 + 1 = 9 ∧ smGet full.ln.rxWl (8 * 1 + 1) 1 = 8) := by decide +kernel

-- Bypass dies and rhizoid links -------------------------------------------------------------------------------------------------

/-- The device with bypass die 0 running, its bias cells read, and a circuit from input 1 to output 2. -/
def quad : Dev := { (up.wr F.HUB_STRAP_state 0 18 1).wr F.BYP_IN_outputs 0 1 4 with by_ := { up.by_ with read := [0], op := [(0, ⟨1, 1, false⟩)] } }

theorem witness_CircuitVerified :
    let loss8 := fun (a b : Int) => a - b + 8 * (0 - 0)
    outsOf (quad.outMask 0 1) = [2] ∧ smFind quad.by_.op 0 = some ⟨1, 1, false⟩ ∧ quad.by_.todo = [] ∧
    (-16000 : Int) ≤ ([0] : List Int).sum ∧ loss8 0 (-2560) ≤ 8 * lossLimit 1 ∧ 8 * lossLimit 1 < loss8 0 (-2561) ∧
    ([-16001] : List Int).sum < -16000 := by decide +kernel

theorem witness_BypassWatches :
    let d : Dev := { (quad.wr F.BYP_IN_state 0 1 3).wr F.BYP_CFG_trim 0 0 1 with by_ := { quad.by_ with op := [] } }
    let r : BiasRec := ⟨4, 2, [], []⟩
    let fresh : Dev := { d with by_ := { d.by_ with read := [], rec_ := [(1, r)] } }
    d.bypUp 0 = true ∧ smFind d.by_.op 0 = none ∧ d.rd F.BYP_IN_state 0 1 = 3 ∧ (-2000 : Int) ≤ -2000 ∧
    (List.replicate 32 (0 : Int)).length = 32 ∧ d.on F.BYP_CFG_trim 0 0 = true ∧
    fresh.dieState 18 = 1 ∧ 0 ∉ fresh.by_.read ∧ smFind fresh.by_.await 0 = none ∧ smFind fresh.by_.rec_ 1 = some r := by decide +kernel

/-- Changing the byte after a list. -/
theorem modify_at (l : List Byte) (x : Byte) (xs : List Byte) (g : Byte → Byte) :
    (l ++ x :: xs).modify l.length g = l ++ g x :: xs := by
  induction l with
  | nil => rfl
  | cons y ys ih => simpa using ih

/-- The CRC of a flit with its lowest bit in error does not match the flit's body. -/
theorem flipped_crc (f : Flit) (h : f.body.length = 540) : let got := flipBits f.image [4320]
    leNat (got.drop 540) ≠ crc32c (got.take 540) := by
  have e : flipBits f.image [4320] = f.body ++ (BitVec.ofNat 8 (crc32c f.body) ^^^ 1#8) :: leBytes 3 (crc32c f.body / 256) := by
    rw [← modify_at f.body _ _ (· ^^^ 1#8), h]; rfl
  rw [e]
  simp only [← h, List.drop_left, List.take_left]
  intro k
  have k := congrArg (· % 2) k
  simp only [leNat, List.foldr_cons, BitVec.toNat_xor, BitVec.toNat_ofNat] at k
  have m : ∀ c : Nat, (c % 2 ^ 8 ^^^ 1 % 2 ^ 8) % 2 = 1 - c % 2 := fun c => by
    have := Nat.xor_mod_two_pow (a := c % 2 ^ 8) (b := 1 % 2 ^ 8) (n := 1)
    rcases Nat.mod_two_eq_zero_or_one c with z | z <;> simp only [Nat.pow_one, show c % 2 ^ 8 % 2 = c % 2 by omega, z] at this <;> rw [this, z] <;> rfl
  rw [Nat.add_mod, Nat.mul_mod, m] at k
  omega

/-- Flits: a new flit and a resend, a failing CRC, and the ninth failure with another bundle up. -/
theorem witness_Flits :
    let d := (up.wr F.D2D_BND_STAT_up 0 0 1).wr F.D2D_BND_STAT_up 0 1 1
    let k := bndKey 0 0
    let new := fun (n : Nat) => (⟨n, 0, 4, 5, [1], [2]⟩ : Flit)
    let f := new 0
    let sent : Dev := { d with d2 := { d.d2 with tx := [(k, ⟨1, [f]⟩)] } }
    let fails : Dev := { d with d2 := { d.d2 with rx := [(k, ⟨5, true, 9⟩)] } }
    (d.dieRuns 0 = true ∧ d.on F.D2D_BND_STAT_up 0 0 = true ∧ (d.flitSend 0 0 0 f).map (fun p => p.2) = some f ∧
      (smGet d.d2.rx k ⟨0, false, 0⟩).expected = 0 ∧ (sent.flitSend 0 0 0 (new 9)).map (fun p => p.2) = some f ∧
      (smGet fails.d2.rx k ⟨0, false, 0⟩).expected ≠ 0 ∧ (fails.flitSend 0 0 0 f).isSome = true) ∧
    ((smGet sent.d2.tx k ⟨0, []⟩).retry.find? (fun f => f.seq == 0) = some f ∧
      (smGet sent.d2.tx k ⟨0, []⟩).retry.find? (fun f => f.seq == 1) = none ∧ (smGet sent.d2.tx k ⟨0, []⟩).next = 1 ∧
      (smGet sent.d2.tx k ⟨0, []⟩).retry.length < 64) ∧
    (fails.on F.D2D_BND_STAT_up 0 0 = true ∧ 9 ≤ (smGet fails.d2.rx k ⟨0, false, 0⟩).fails ∧
      (∃ c < 16, c ≠ 0 ∧ fails.on F.D2D_BND_STAT_up 0 c = true)) := by decide +kernel

theorem witness_Flits_crc : let got := flipBits (⟨0, 0, 4, 5, [1], [2]⟩ : Flit).image [4320]
    leNat (got.drop 540) ≠ crc32c (got.take 540) := flipped_crc _ (by decide +kernel)

/-- WireRepairs: wire 3 carries a position and spare wires are left, on a data and on a control bundle, and none is left. -/
theorem witness_WireRepairs :
    let d := ((up.wr F.D2D_BND_STAT_up 0 0 1).wr F.D2D_STAT_peer 0 0 1)
    let d : Dev := { d with d2 := { d.d2 with wires := [(bndKey 0 0, [0, 1, 3]), (bndKey 0 16, [0, 1, 3, 4])] } }
    let full : Dev := { d with d2 := { d.d2 with bad := [(bndKey 0 16, [2, 5])] } }
    let lost := dies d 1 2 1
    (d.dieRuns 0 = true ∧ d.bundleUp 0 0 = true ∧ 3 ∈ smGet d.d2.wires (bndKey 0 0) [] ∧ (d.spareWires 0 0).head? = some 2) ∧
    (d.bundleUp 0 16 = true ∧ 3 ∈ smGet d.d2.wires (bndKey 0 16) [] ∧ d.spareWires 0 16 = [2, 5]) ∧
    (full.bundleUp 0 16 = true ∧ 3 ∈ smGet full.d2.wires (bndKey 0 16) [] ∧ full.spareWires 0 16 = []) ∧
    (lost.dieRuns 0 = true ∧ lost.on F.D2D_STAT_peer 0 0 = true ∧ lost.dieRuns (1 - 0) = false) := by decide +kernel

theorem witness_ChipletAdmission :
    let digest : List Byte := List.replicate 48 1
    let d := fun (n : Nat) => ({ (up.wr F.HUB_UCIE_STAT_state 0 0 n).wr F.HUB_UCIE_CTRL_enable 0 0 1 with
      cfg := { up.cfg with allow := [digest], streams := 5 } } : Dev)
    let answer := List.replicate 56 (1 : Byte)
    (d 2).hubRuns = true ∧ (d 2).rd F.HUB_UCIE_STAT_state 0 0 = 2 ∧ answer.length = 56 ∧ answer.drop 8 ∈ (d 2).cfg.allow ∧
    (List.replicate 56 (0 : Byte)).drop 8 ∉ (d 2).cfg.allow ∧ ([] : List Byte).length ≠ 56 ∧
    (d 3).rd F.HUB_UCIE_STAT_state 0 0 = 3 ∧ (d 3).on F.HUB_UCIE_CTRL_enable 0 0 = true ∧ (d 3).cfg.active = true := by decide +kernel

-- Signed files ------------------------------------------------------------------------------------------------------------------

/-- The modulus of an RSA key made for these tests. -/
def rsaModulus : Nat := 0xc69c9738be3f678fc0c0f081745adf01df13d8705cf1b0abfca15cc2ace707e9527b56e3f16981a64e6ae36505ee210a7d1f64182546f236b7224b3cd52f474a2225f7e2a5d8223e85f845f5900d2496ae95a89792251d18c6140b32e0f600a7e730108d92c52e563f83a61fe4142e533d8eec7b5cff7eef3eaf5bab45a0ddb3f471f0faab6bb56ae69037ff58660ac78cd8823b350fae9e85634814a056053ada61d0235af289e5366d3ee1e0ef406f20edfa1660fa186c0a62ae6046f68a710d5ec3b805da135395a169a0403020df270b1744d34329095563dc90ebb7c77a296c17e12d39ed965feddce00d4c7cc8bfd85b9d9982150b3fabb3a67ef67e64e5060c4553d916aa952e5c44739f378505cfc039377635142c2277244d686b1a6069a3e9863925fae2b2e789ccf3c7bd84d585de2b4cae41fb2b924530a71dead9c54adb17a9750ea2840ead440fe76f7dd71c0ce0f85774aae46c78f123c4acb5d63833f5996cb766cd119734d197b647a887b38ac2bcdd8c9a06834ecaf5f3

/-- Its signature of the digest of `body`. -/
def rsaSignature : List Byte := beBytes 384 0xafd46c670d57be609d6a5984a27bf3c65bb27c0607036ff4bddf75a944065247801b0116fe877e0bb8fb95b9fe73787a616bc618619a66a65ab8861f1589c99fde8e2915527584815d6ce69d7b3ad3068d97fa34dedad862ea7793d6707d3536f7323da8b8bc7d217ab4d93aa38aa68cc8e12071f8872a18e30aa9ca27d3dd1c80c6bcabfd878a12b99ceb62f37289d0728177d6ea7287b067fe686b5acc5fe86c757a6fa90f9508c6d138db457634ae238ac5f3f0b4c52a330ce3e5fc0d0feb251c082e9b09fb881d2b1c849c79e7b47a4cc02e33dba750ba494a86b35988fa6fe98d6f2bc3f15558f6f04c32ca89a4436da9ef0a4d69a2aff54ed1247705ff3374af1415c4f48fa5822bcad48b2a6285706bf118c703688d35e90c6ee444e0a8ce945f770a6403b5c2359de94552f7b6199771acf85f5e1313e1747aa26d6fc89897652baca0fbe4f1bf233bb08a5b57d405e9dfb1dea3d0840aa6a421bbac07ceed37218c3ca1a459890d4ef54d74abf155048975d72772f477baf1ab7be5

/-- The body of a test file: a header and a section of zeros. -/
def body : List Byte := List.replicate 272 0#8

/-- An SLH-DSA key. -/
def signer : SlhKey := ⟨List.replicate 24 0#8, List.replicate 24 0#8, List.replicate 24 0#8⟩

theorem rsa_good : rsaVerify rsaModulus (sha384 body) rsaSignature = true := by decide +kernel

theorem signer_pub_length : signer.pub.length = 48 := by
  have h : signer.seed.length = 24 := rfl
  rw [SlhKey.pub, List.length_append, Laws.root_length, h]

/-- The first 64 bytes of a signature block: a key set, a version, a serial number. -/
def sigHead (keys ver serial : Nat) : List Byte :=
  beBytes 4 0x4C585347 ++ [1#8, BitVec.ofNat 8 keys, BitVec.ofNat 8 ver, 0#8] ++ beBytes 6 serial ++ List.replicate 50 0#8

/-- What follows: the body's digest, both keys, both signatures. -/
def sigTail : List Byte :=
  sha384 body ++ (beBytes 384 rsaModulus ++ (signer.pub ++ (rsaSignature ++ (signer.sign (List.replicate 24 0#8) (sha384 body) ++ []))))

/-- A signed file. -/
def fileFor (keys ver serial : Nat) : List Byte := body ++ (sigHead keys ver serial ++ sigTail)

/-- The fuses with the digests of these keys. -/
def goodFuses (roll : Nat) : Fuses :=
  let ks := sha384 (beBytes 384 rsaModulus) ++ sha384 signer.pub
  { State.reset.chip.fuses with owner := some ks, firmware := ks, calibration := ks, rollback := roll }

theorem slice_mid (a b c : List Byte) (n m : Nat) (ha : a.length = n) (hb : b.length = m + 1 - n) :
    slice (a ++ (b ++ c)) n m = b := by
  unfold slice; rw [List.drop_left' ha, List.take_left' hb]

theorem sigHead_length (keys ver serial : Nat) : (sigHead keys ver serial).length = 64 := by
  simp [sigHead, Laws.beBytes_length]

theorem rsaSignature_length : rsaSignature.length = 384 := by unfold rsaSignature; exact Laws.beBytes_length _ _

theorem sigTail_length : sigTail.length = 17088 := by
  unfold sigTail
  rw [List.length_append, List.length_append, List.length_append, List.length_append, List.length_append, Laws.sha384_length,
    Laws.beBytes_length, signer_pub_length, rsaSignature_length, Laws.sign_length]
  rfl

theorem fileFor_block (keys ver serial : Nat) :
    sigBlock (fileFor keys ver serial) = sigHead keys ver serial ++ sigTail ∧ fileBody (fileFor keys ver serial) = body := by
  have h : (fileFor keys ver serial).length - sigLength = body.length := by
    simp [fileFor, sigHead_length, sigTail_length, sigLength]
  unfold sigBlock fileBody
  rw [h]
  exact ⟨List.drop_left' rfl, List.take_left' rfl⟩

/-- The parts of the block that hold the body's digest, the keys and the signatures. -/
theorem block_parts (keys ver serial : Nat) : let b := sigHead keys ver serial ++ sigTail
    b.length = 17152 ∧ slice b 64 111 = sha384 body ∧ slice b 112 495 = beBytes 384 rsaModulus ∧ slice b 496 543 = signer.pub ∧
    slice b 544 927 = rsaSignature ∧ slice b 928 17151 = signer.sign (List.replicate 24 0#8) (sha384 body) := by
  have hd := sigHead_length keys ver serial
  have hs := Laws.sha384_length body
  have hm := Laws.beBytes_length 384 rsaModulus
  have hp := signer_pub_length
  have hr := rsaSignature_length
  have hq := Laws.sign_length signer (List.replicate 24 0#8) (sha384 body)
  refine ⟨by rw [List.length_append, hd, sigTail_length], ?_, ?_, ?_, ?_, ?_⟩
  · exact slice_mid _ _ _ _ _ hd hs
  · rw [sigTail, ← List.append_assoc]
    exact slice_mid _ _ _ _ _ (by rw [List.length_append, hd, hs]) hm
  · rw [sigTail, ← List.append_assoc, ← List.append_assoc]
    exact slice_mid _ _ _ _ _ (by simp only [List.length_append, hd, hs, hm]) hp
  · rw [sigTail, ← List.append_assoc, ← List.append_assoc, ← List.append_assoc]
    exact slice_mid _ _ _ _ _ (by simp only [List.length_append, hd, hs, hm, hp]) hr
  · rw [sigTail, ← List.append_assoc, ← List.append_assoc, ← List.append_assoc, ← List.append_assoc]
    exact slice_mid _ _ _ _ _ (by simp only [List.length_append, hd, hs, hm, hp, hr]) hq

/-- Bytes of the first 64 are those of the head. -/
theorem head_slice (keys ver serial a b : Nat) (h : a ≤ b) (hb : b < 64) :
    slice (sigHead keys ver serial ++ sigTail) a b = slice (sigHead keys ver serial) a b := by
  unfold slice
  have hd := sigHead_length keys ver serial
  rw [List.drop_append_of_le_length (by omega), List.take_append_of_le_length (by rw [List.length_drop]; omega)]

/-- What the head of a file of a kind must show (R368, step 1). -/
def headOk (kind ver serial : Nat) : Prop :=
  let h := sigHead (keySetOf kind) ver serial
  beNat (slice h 0 3) = 0x4C585347 ∧ beNat (slice h 4 4) = 1 ∧ beNat (slice h 5 5) = keySetOf kind ∧
  (if kind = 1 then decide (beNat (slice h 6 6) ≤ 63) else beNat (slice h 6 6) == 0) = true ∧ beNat (slice h 7 7) = 0 ∧
  (kind == 4 || beNat (slice h 8 13) == 0) = true ∧ ((slice h 14 63).all fun x => x == 0) = true

theorem modulus_back : beNat (beBytes 384 rsaModulus) = rsaModulus := by decide +kernel

/-- Such a file passes every check of R368. -/
theorem fileFor_good (kind ver serial roll : Nat) (h : headOk kind ver serial) :
    ((goodFuses roll).check kind (fileFor (keySetOf kind) ver serial)).ok = true := by
  obtain ⟨h1, h2, h3, h4, h5, h6, h7⟩ := h
  obtain ⟨p1, p2, p3, p4, p5, p6⟩ := block_parts (keySetOf kind) ver serial
  obtain ⟨b1, b2⟩ := fileFor_block (keySetOf kind) ver serial
  have q := head_slice (keySetOf kind) ver serial
  have hdg : (goodFuses roll).digests kind = some (sha384 (beBytes 384 rsaModulus) ++ sha384 signer.pub) := by
    unfold Fuses.digests; repeat' split
    all_goals rfl
  unfold SlotCheck.ok Fuses.check
  simp only [b1, p3, p2, p5, p4, p6, modulus_back, rsa_good, Laws.slhVerify_sign signer _ _ rfl, Bool.and_true]
  unfold Fuses.keyCheck
  simp only [b1, b2, p2, p3, p4, hdg, blockOk, p1, sigVersion, sigSerial, q 0 3 (by omega) (by omega), q 4 4 (by omega) (by omega),
    q 5 5 (by omega) (by omega), q 6 6 (by omega) (by omega), q 7 7 (by omega) (by omega), q 8 13 (by omega) (by omega),
    q 14 63 (by omega) (by omega), h1, h2, h3, h4, h5, h6, h7]
  rw [show sigLength = 17152 from rfl]
  simp only [beq_self_eq_true, Bool.and_self]

/-- The version and the serial number of such a file. -/
theorem fileFor_fields (keys ver serial : Nat) :
    sigVersion (sigBlock (fileFor keys ver serial)) = beNat (slice (sigHead keys ver serial) 6 6) ∧
    sigSerial (sigBlock (fileFor keys ver serial)) = beNat (slice (sigHead keys ver serial) 8 13) := by
  rw [(fileFor_block keys ver serial).1]
  unfold sigVersion sigSerial
  rw [head_slice _ _ _ _ _ (by omega) (by omega), head_slice _ _ _ _ _ (by omega) (by omega)]
  exact ⟨rfl, rfl⟩

/-- Firmware of version 1, an image and a calibration file for serial 7 pass; firmware with rollback at its version does too. -/
theorem witness_good_files :
    ((goodFuses 1).check 1 (fileFor 0 1 0)).ok = true ∧ ((goodFuses 2).check 1 (fileFor 0 1 0)).ok = true ∧
    ((goodFuses 0).check 2 (fileFor 2 0 0)).ok = true ∧ ((goodFuses 0).check 3 (fileFor 2 0 0)).ok = true ∧
    ((goodFuses 0).check 4 (fileFor 1 0 7)).ok = true ∧ sigVersion (sigBlock (fileFor 0 1 0)) = 1 ∧
    sigSerial (sigBlock (fileFor 1 0 7)) = 7 := by
  refine ⟨fileFor_good 1 1 0 1 ?_, fileFor_good 1 1 0 2 ?_, fileFor_good 2 0 0 0 ?_, fileFor_good 3 0 0 0 ?_, fileFor_good 4 0 7 0 ?_, ?_, ?_⟩
  any_goals (unfold headOk; decide +kernel)
  · rw [(fileFor_fields _ _ _).1]; decide +kernel
  · rw [(fileFor_fields _ _ _).2]; decide +kernel

-- Power and heat ----------------------------------------------------------------------------------------------------------------

theorem witness_VoltageScaling :
    let d := (up.wr F.HUB_AVS_STAT_setpoint 0 0 849).wr F.HUB_AVS_STAT_setpoint 0 1 850
    let r : Dev := { up with tick := 156250, pw := { up.pw with margin := [0], atLo := [(0, 0)] } }
    d.dieRuns 0 = true ∧ speedBelow 1000 (coolBy 1680) (21 * (100 + d.rd F.HUB_AVS_CTRL_guard 0 0)) 2 = true ∧
    d.rd F.HUB_AVS_STAT_setpoint 0 0 < 850 ∧ d.on F.HUB_AVS_CTRL_mode 0 0 = false ∧ 850 ≤ d.rd F.HUB_AVS_STAT_setpoint 0 1 ∧
    d.pw.margin = [] ∧ d.dieRuns 1 = true ∧ 0 ∈ r.pw.margin ∧
    smFind r.pw.atLo 0 = some 0 ∧ 0 + 156250 ≤ r.tick ∧
    speedBelow 2000 (coolBy 1680) (21 * (100 + d.rd F.HUB_AVS_CTRL_guard 0 0)) 2 = false ∧ smFind d.pw.atLo 0 = none := by decide +kernel

theorem witness_Shedding :
    let d := up.wr F.HUB_PWR_STAT_step 0 0 2
    up.sy.recs = [] ∧ up.mg.xfer = none ∧ up.shed < 2 ∧ stepOf 950 = 1 ∧ 2 ≤ stepOf 949 ∧ d.shed = 2 ∧ 1000 - 20 * d.shed < 961 ∧
    960 ≤ 1000 - 20 * d.shed ∧ up.hubRuns = true ∧ up.pw.hot = [] := by decide +kernel

theorem witness_ThermalStates :
    thermNext 0 0 1648 = 2 ∧ engine.alive 2 = true ∧ up.alive 22 = true ∧ up.alive 0 = true ∧
    quad.alive 18 = true := by decide +kernel

-- Management --------------------------------------------------------------------------------------------------------------------

/-- The device with management port 0 up and key slot 0 in use. -/
def managed : State := at_ ((up.wrw .MGT_PORT_STAT 0 0 1).wr F.MGT_AUTH_CFG_key_next 0 0 15)

/-- A message of requester 3 and sequence 9 with a zero tag. -/
def plain (kind : Nat) (pay : List Byte) : KxxMsg :=
  ⟨wmk [(63, 60, 1), (55, 48, kind), (47, 44, 3), (31, 0, 9)], 0, wmk [(31, 16, pay.length)], 0, pay, List.replicate 16 0⟩

/-- The same with the tag of key slot 0. -/
def msg (kind : Nat) (pay : List Byte) : KxxMsg :=
  { plain kind pay with tag := managed.chip.tag 0 ((plain kind pay).signed kind) }

/-- The sender of the messages, to UDP port 47404 of network A as it is after reset. -/
def sender : Sender := ⟨0, 0xA9FE0102#32, 7#16, ⟨0, 0, 0, 47404, true⟩⟩

theorem msg_tag_length (kind : Nat) (pay : List Byte) : (msg kind pay).tag.length = 16 := by
  show (managed.chip.tag 0 _).length = 16
  unfold Chip.tag
  split
  · simp [hmac384, hmacOf, Laws.sha384_length]
  · rfl

/-- A message whose words pass the checks passes them with its tag. -/
theorem msg_passes (kind : Nat) (pay : List Byte) (h : (plain kind pay).badLength = false ∧ (plain kind pay).badHeader = false ∧
    fget (plain kind pay).m1 63 16 = managed.chip.fuses.serial ∧ (plain kind pay).slot = 0 ∧
    fget (plain kind pay).m2 63 32 = managed.chip.flash.boots) : managed.chip.failedCheck (msg kind pay) kind = none := by
  obtain ⟨h2, h3, h4, h0, h7⟩ := h
  have hk : (managed.chip.keyOf 0).isNone = false ∧ managed.chip.dev.keyAccepted 0 = true := by decide +kernel
  have hl : (msg kind pay).badLength = false := by
    unfold KxxMsg.badLength at h2 ⊢
    rw [msg_tag_length]
    exact h2
  have hs : (msg kind pay).slot = 0 := h0
  have ht : (msg kind pay).tag = managed.chip.tag (msg kind pay).slot ((msg kind pay).signed kind) := by rw [hs]; rfl
  unfold Chip.failedCheck
  rw [hl, ← ht, hs, hk.1, hk.2, show (msg kind pay).badHeader = false from h3,
    show fget (msg kind pay).m1 63 16 = managed.chip.fuses.serial from h4,
    show fget (msg kind pay).m2 63 32 = managed.chip.flash.boots from h7]
  simp

theorem witness_checks :
    managed.dev.mgmtUp sender.port.val = true ∧ managed.dev.takesWire sender.port.val sender.to_ = true ∧ managed.dev.pw.restart = false ∧ managed.dev.seqClass 3 9 = .new ∧
    managed.dev.on F.SEC_STAT_recovery 0 0 = false ∧
    managed.chip.failedCheck (msg 1 (wordsPay [0])) 1 = none ∧ managed.chip.failedCheck (msg 1 [1]) 1 = none ∧
    managed.chip.failedCheck (msg 2 (wordsPay [0, 0])) 2 = none ∧ managed.chip.failedCheck (msg 3 []) 3 = none ∧
    managed.chip.failedCheck (msg 4 (wordsPay [32])) 4 = none ∧
    managed.chip.failedCheck (msg 0x10 (wordsPay [wmk [(63, 56, 3)], 4])) 0x10 = none ∧
    managed.chip.failedCheck (msg 0x11 (wordsPay [0] ++ [1, 2, 3, 4])) 0x11 = none ∧
    managed.chip.failedCheck (msg 0x12 []) 0x12 = none ∧ managed.chip.failedCheck (msg 0x13 []) 0x13 = none ∧
    managed.chip.failedCheck (msg 0x20 (wordsPay [0])) 0x20 = none := by
  and_intros <;> first | exact msg_passes _ _ (by decide +kernel) | decide +kernel

/-- The checks depend on the device only through the accepted key slots. -/
theorem checks_agree (d : Dev) (m : KxxMsg) (k : Nat) (h : d.rdw .MGT_AUTH_CFG 0 0 = managed.dev.rdw .MGT_AUTH_CFG 0 0) :
    (at_ d).chip.failedCheck m k = managed.chip.failedCheck m k := by
  have hk : (at_ d).chip.dev.keyAccepted m.slot = managed.chip.dev.keyAccepted m.slot := by
    have h' : (at_ d).chip.dev.rdw .MGT_AUTH_CFG 0 0 = managed.chip.dev.rdw .MGT_AUTH_CFG 0 0 := h
    unfold Dev.keyAccepted
    rw [show (at_ d).chip.dev.keyCur = managed.chip.dev.keyCur from congrArg (fun w => fget w _ _) h',
      show (at_ d).chip.dev.keyNext = managed.chip.dev.keyNext from congrArg (fun w => fget w _ _) h']
  unfold Chip.failedCheck
  rw [hk]
  rfl

/-- The managed device whose requester 3 has highest sequence `high`, with sequence bits and cached answers. -/
def known (high : Nat) (seen : BitVec 64) (cache : List (Nat × List Byte)) : Dev :=
  let d := (managed.dev.wr F.MGT_REQ_STAT_valid 0 3 1).wr F.MGT_REQ_STAT_high 0 3 high
  { d with mg := { d.mg with reqs := [(3, ⟨seen, cache⟩)] } }

theorem witness_RequestChecks :
    up.mgmtUp 0 = false ∧ managed.dev.mgmtUp sender.port.val = true ∧
    managed.dev.takesWire 0 { sender.to_ with udp := 47405 } = false ∧ managed.dev.takesWire 0 sender.to_ = true ∧
    managed.chip.failedCheck { plain 1 [] with tag := [] } 1 = some 2 ∧
    managed.chip.failedCheck { plain 1 [] with m1 := 255 } 1 = some 3 ∧
    managed.chip.failedCheck { plain 1 [] with m1 := wmk [(63, 16, 1)] } 1 = some 4 ∧
    managed.chip.failedCheck { plain 1 [] with m1 := wmk [(15, 8, 14)] } 1 = some 5 ∧
    ((up.wrw .MGT_PORT_STAT 0 0 1).wr F.MGT_AUTH_CFG_key_cur 0 0 1).mgmtUp 0 = true ∧
    (at_ ((up.wrw .MGT_PORT_STAT 0 0 1).wr F.MGT_AUTH_CFG_key_cur 0 0 1)).chip.failedCheck
      { plain 1 [] with m1 := wmk [(15, 8, 1)] } 1 = some 6 ∧
    (known 73 0 []).mgmtUp 0 = true ∧ (known 73 0 []).seqClass 3 9 = .stale ∧ (known 72 0 []).seqClass 3 9 = .new ∧
    (known 9 1 []).seqClass 3 9 = .seen ∧ (((known 9 1 []).requester 3).cache.find? fun x => x.1 == 9) = none ∧
    (((known 9 1 [(9, [1])]).requester 3).cache.find? fun x => x.1 == 9) = some (9, [1]) ∧ (msg 3 []).seq = 9 ∧
    (msg 3 []).requester = 3 := by and_intros <;> decide +kernel

theorem witness_RequestChecks_passed : ∀ d ∈ [known 9 1 [], known 73 0 [], known 9 1 [(9, [1])]],
    (at_ d).chip.failedCheck (msg 3 []) 3 = none := fun d h =>
  (checks_agree d _ _ (by revert d; decide +kernel)).trans (msg_passes _ _ (by decide +kernel))

theorem witness_SequenceRecord :
    let d := known 9 1 []
    (3 : Nat) < 16 ∧ d.on F.MGT_REQ_STAT_valid 0 3 = true ∧ d.rd F.MGT_REQ_STAT_high 0 3 = 9 ∧ d.seqClass 3 10 = .new ∧
    d.seqClass 3 (9 + 2 ^ 31 - 1) = .new ∧ d.seqClass 3 (9 + 2 ^ 31) = .stale ∧ d.seqClass 3 (9 + 2 ^ 32 - 63) = .new ∧
    d.seqClass 3 (9 + 2 ^ 32 - 64) = .stale ∧ d.seqClass 3 9 = .seen := by decide +kernel

theorem witness_RequestsServed :
    managed.dev.issuer = some 0 ∧ opsOk 8 (wordsPay [0]) = true ∧ opsOk 8 [1] = false ∧ opsOk 16 (wordsPay [0, 0]) = true ∧
    (wordsPay [32]).length = 8 ∧ 1 ≤ fget (payWord (wordsPay [32]) 0) 5 0 ∧ fget (payWord (wordsPay [32]) 0) 5 0 ≤ 32 ∧
    (managed.dev.crzPorts 0 0 0).isEmpty = true ∧
    ((managed.dev.wrw .SYNC_CRZ_DATA 0 0 3).crzPorts 0 0 0).isEmpty = false := by decide +kernel

theorem witness_RegisterOperations :
    managed.dev.hubRuns = true ∧ decodeAddr 1 = none ∧ (decodeAddr 0).isSome = true ∧
    (∀ x, decodeAddr 0 = some x → managed.dev.available x = true ∧ managed.dev.selects x = true) ∧
    (∃ x, decodeAddr 0x200000000 = some x ∧ managed.dev.available x = false) ∧
    (managed.chip.regRead 1).2.1 = 4 ∧ (managed.chip.regRead 0).2.1 = 0 ∧ Reg.HUB_ERR_FIRST.layout ≠ [] := by
  refine ⟨by decide +kernel, by decide +kernel, by decide +kernel, ?_, ?_, by decide +kernel, by decide +kernel, by decide +kernel⟩
  · intro x h
    have e : decodeAddr 0 = some ⟨.HUB_ERR_FIRST, 0, 0⟩ := by decide +kernel
    rw [e] at h
    cases h
    decide +kernel
  · exact ⟨⟨.OE_ERR_FIRST, 0, 0⟩, by decide +kernel, by decide +kernel⟩

/-- The managed device with a transfer open. -/
def receiving (x : Xfer) : Dev := { managed.dev with mg := { managed.dev.mg with xfer := some x } }

theorem witness_FileTransfers :
    let f0 : Word := wmk [(63, 56, 3)]
    let x : Xfer := ⟨3, 0, 4, [], [], false⟩
    let y : Xfer := { x with data := [(0, [1, 2, 3, 4])] }
    managed.dev.beginStatus (fget f0 63 56) (fget f0 55 48) 4 = 0 ∧ managed.dev.beginStatus 3 0 (64 * 2 ^ 20 + 1) = 3 ∧
    (receiving x).beginStatus 3 0 4 = 1 ∧ x.fits 0 4 = true ∧ x.bytes ≠ x.total ∧ y.bytes = y.total ∧
    (∀ z ∈ [x, y], (receiving z).mgmtUp 0 = true ∧ (receiving z).seqClass 3 9 = .new ∧ (receiving z).pw.restart = false ∧
      (receiving z).rdw .MGT_AUTH_CFG 0 0 = managed.dev.rdw .MGT_AUTH_CFG 0 0) := by decide +kernel

theorem witness_FileTransfers_checks (x : Xfer) :
    (at_ (receiving x)).chip.failedCheck (msg 0x11 (wordsPay [0] ++ [1, 2, 3, 4])) 0x11 = none ∧
    (at_ (receiving x)).chip.failedCheck (msg 0x12 []) 0x12 = none ∧
    (at_ (receiving x)).chip.failedCheck (msg 0x13 []) 0x13 = none := by
  and_intros <;> exact (checks_agree _ _ _ (by simp only [receiving, Dev.rdw])).trans (msg_passes _ _ (by decide +kernel))

/-- An image that loads: no port, no route, one lossless pool on each die. -/
def emptyImage : Image where
  kind := 1
  id := 7
  minStep := (0, 0)
  mask := 0
  base := []
  count := 1
  sections := [⟨7, 256, 16, List.replicate 48 0⟩]
  loads := []
  groups := []
  ports := []
  epoch := 0
  routes := []
  logical := []
  backing := []
  words := [⟨7, .SWC_POOL_CFG, 0, 0, 0x80000⟩, ⟨7, .SWC_POOL_CFG, 1, 0, 0x80000⟩]
  bundles := []
  leads := true
  originHop := 16
  circuits := []
  keeps := []
  allow := []
  streams := 0
  stage := Cfg.none.stage

/-- The machine with a committed file of a kind under verification. -/
def verifying (kind ver serial roll : Nat) : State :=
  let s := at_ (receiving ⟨kind, 0, 17424, [(0, fileFor (keySetOf kind) ver serial)], [], true⟩)
  { s with chip := { s.chip with fuses := { goodFuses roll with serial := serial } } }

theorem xfer_file (kind : Nat) (f : List Byte) : (⟨kind, 0, 17424, [(0, f)], [], true⟩ : Xfer).file = f := by simp [Xfer.file]

/-- An empty region image over the active image that `up` holds. -/
def regionImage : Image := { emptyImage with kind := 2, count := 0, sections := [], words := [], base := up.cfg.digest }

/-- A full image with its one section in `body`. -/
def fullImage : Image := { emptyImage with sections := [⟨7, 256, 16, sha384 (List.replicate 16 0#8)⟩] }

theorem fullImage_loads : (Dev.fresh0.loadImage fullImage (sha384 (fileFor 2 0 0)) (0, 0)).isSome = true := by decide +kernel

theorem witness_VerificationResults :
    (∀ kind ver serial roll, (verifying kind ver serial roll).dev.hubRuns = true) ∧
    (∀ kind ver serial roll, ∃ x, (verifying kind ver serial roll).dev.mg.xfer = some x ∧ x.verifying = true ∧ x.kind = kind ∧
      x.activate = 0 ∧ x.file = fileFor (keySetOf kind) ver serial) ∧
    (managed.dev.on F.SEC_STAT_recovery 0 0 = false ∧ (State.reset.chip.fuses.keyCheck 1 []) = false) ∧
    (emptyImage.digestsOk body = false ∧ fullImage.digestsOk body = true ∧ regionImage.digestsOk body = true) ∧
    (Dev.fresh0.loadImage { fullImage with kind := 2 } (sha384 (fileFor 2 0 0)) (0, 0)).isNone = true ∧
    ((at_ up).chip.regionResult fullImage ≠ 0 ∧ (at_ up).chip.regionResult regionImage = 0) := by
  refine ⟨fun _ _ _ _ => (by decide +kernel : managed.dev.hubRuns = true), fun kind ver serial roll =>
    ⟨_, rfl, rfl, rfl, rfl, xfer_file _ _⟩, ?_, ?_, ?_, ?_⟩
  all_goals decide +kernel


theorem witness_ManagementEvents :
    let q := up.wr F.SEC_QUOTE_CMD_busy 0 0 1
    let w : Dev := { up with ev := { up.ev with waiting := [⟨0, 0, 0, 0⟩] } }
    up.hubRuns = true ∧ up.on F.SEC_STAT_recovery 0 0 = false ∧ managed.dev.mgmtUp 0 = true ∧
    managed.dev.mgmtReason 0 .foreign = some 0 ∧ managed.dev.mgmtReason 0 .beyondRate = some 1 ∧
    managed.dev.mgmtReason 0 (.dgram { sender.to_ with vid := 5 } []) = some 0 ∧
    managed.dev.mgmtReason 0 (.dgram sender.to_ []) = some 2 ∧ (managed.dev.netId 0).vid = 0 ∧
    ((managed.dev.wr F.MGT_NET_CFG_vid 0 0 7).netId 0).vid ≠ 0 ∧ w.hubRuns = true ∧ w.ev.waiting ≠ [] ∧
    up.mg.quiesced = up.stillQuiesced ∧ q.on F.SEC_QUOTE_CMD_busy 0 0 = true ∧ up.on F.SEC_QUOTE_CMD_busy 0 0 = false ∧
    dev.hubRuns = true ∧ Dev.fresh0.hubRuns = false := by decide +kernel

theorem witness_RollbackRule :
    let d := up.wr F.SEC_STAT_fw_version 0 0 5
    let c : Chip := (at_ d).chip
    c.fuses.rollback < (c.commitRollback true).fuses.rollback ∧ (c.commitRollback true).fuses.rollback = 5 := by decide +kernel

-- The stage ---------------------------------------------------------------------------------------------------------------------

/-- A site with part 0x1234 and a loss of at most 3 dB on no port of this device. -/
def site : SiteCfg := ⟨[], 0x1234, 300⟩

/-- The device at position 1 of a stage, priority 9, peers 0 and 2 on SB0 and SB1, site 0 configured. -/
def staged : Dev :=
  { up with cfg := { up.cfg with groups := up.cfg.groups.map fun e => (e.1, { e.2 with stage := true }),
                                 stage := { prio := 9, pos := 1, links := [0, 2], sites := [(0, site), (8, site)], tempLimit := some 1120,
                                            digest := [] } } }

/-- The same as controller of epoch 4. -/
def leading : Dev := { staged.wr F.MGT_STAGE_STAT_role 0 0 2 with st := { StageState.fresh with epochSeen := 4, key := (4, 9, 14) } }

/-- 128 identity bytes with part 0x1234, loss `l` and their CRC-32C, which goes least significant byte first. -/
def identity (l : Nat) : List Byte :=
  let bs : List Byte := [1#8, 0#8, 0x12#8, 0x34#8] ++ List.replicate 10 0#8 ++ beBytes 2 l ++ List.replicate 108 0#8
  bs ++ (beBytes 4 (crc32c bs)).reverse

theorem witness_StageElection :
    let s := staged.wr F.MGT_STAGE_STAT_role 0 0 3
    let m : StageMsg := ⟨0, 5, .claim 5 9⟩
    staged.inStage = true ∧ staged.role ≠ 2 ∧ staged.cfg.stage.prio ≠ 0 ∧ leading.inStage = true ∧ leading.role = 2 ∧ s.inStage = true ∧
    s.role = 3 ∧ leading.msgSeen m = false ∧ m.origin ≠ leading.stagePos ∧ keyAbove (5, 9, 15) leading.st.key = true ∧
    keyAbove (4, 9, 15) leading.st.key = true ∧ keyAbove (4, 8, 15) leading.st.key = false ∧
    ({ leading with st := { leading.st with seen := [(0, m.body.kind, 5)] } } : Dev).msgSeen m = true ∧
    ({ staged with cfg := { staged.cfg with stage := { staged.cfg.stage with prio := 0 } } } : Dev).inStage = true := by decide +kernel

theorem witness_StagePeers :
    let st : StageStat := ⟨7, [1], 0, true, []⟩
    staged.inStage = true ∧ staged.role ≠ 2 ∧ leading.role = 2 ∧ (0 : Nat) ≠ staged.stagePos ∧
    leading.msgSeen ⟨0, 0, .status st⟩ = false ∧ st.digest ≠ leading.cfg.stage.digest ∧
    smFind ({ leading with st := { leading.st with peers := [(0, st)] } } : Dev).st.peers 0 = some st := by decide +kernel

theorem witness_Cartridges :
    let here := (leading.wr F.MGT_CART_STAT_present 0 0 1).wr F.MGT_CART_STAT_state 0 0 1
    let on := here.wr F.MGT_CART_STAT_enable 0 0 1
    let found := on.wr F.MGT_CART_STAT_state 0 0 2
    let peer : Dev := { leading with st := { leading.st with peers := [(0, ⟨7, [], 0, true, [⟨true, false, 1⟩]⟩)] } }
    let hot : Dev := { found with st := { found.st with dynamic := [0] } }
    let with_ := fun (bs : List Byte) => ({ found with st := { found.st with ident := [(0, bs)] } } : Dev)
    leading.stagePos = 1 ∧ leading.siteCfg 1 0 = some site ∧ leading.st.lastStart = none ∧ leading.on F.MGT_CART_STAT_present 0 0 = false ∧
    here.on F.MGT_CART_STAT_present 0 0 = true ∧ here.role = 2 ∧ here.nextSite = some (1 * 8 + 0) ∧
    (here.wr F.MGT_STAGE_STAT_role 0 0 1).role = 1 ∧ (here.wr F.MGT_STAGE_STAT_role 0 0 1).rd F.MGT_CART_STAT_state 0 0 = 1 ∧
    (leading.nextSite = none ∧ peer.role = 2 ∧ peer.siteCfg 0 0 = some site ∧ peer.nextSite = some (0 * 8 + 0) ∧ 0 ≠ peer.stagePos ∧
      (smFind peer.st.peers 0).isSome = true ∧ 0 ∉ peer.st.mismatched ∧ peer.st.lastStart = none) ∧
    (0 ∈ hot.st.dynamic ∧ hot.role = 2 ∧ hot.siteCfg hot.stagePos 0 = some site) ∧
    leading.tick < 0 + 7812500 ∧
    on.on F.MGT_CART_STAT_enable 0 0 = true ∧ on.on F.MGT_CART_STAT_present 0 0 = true ∧ found.rd F.MGT_CART_STAT_state 0 0 = 2 ∧
    found.role ≠ 3 ∧ site.ports = [] ∧ smFind (with_ (identity 300)).st.ident 0 = some (identity 300) ∧
    identCrc (identity 300) = true ∧ identPart (identity 300) = site.part ∧ identLoss (identity 300) ≤ site.maxLoss ∧
    ¬ identLoss (identity 301) ≤ site.maxLoss ∧ identLoss (identity 300) % 20 = 0 ∧ smFind found.st.ident 0 = none ∧
    (found.cfg.stage.limit : Int) ≤ s16 1120 ∧ ¬ (found.cfg.stage.limit : Int) ≤ s16 1119 ∧
    (staged.inStage = true ∧ staged.siteCfg staged.stagePos 1 = none) := by
  and_intros
  all_goals decide +kernel

-- Start, resets, fatal errors ---------------------------------------------------------------------------------------------------

/-- What the dies of a good assembly report: the straps of both core dies, the hub, the engines and the quads. -/
def word (kind index quad : Nat) : BitVec 16 :=
  let w : BitVec 16 := BitVec.ofNat 16 (kind * 8192 + index * 512 + quad * 128 + 8)
  let ones := ((List.range 16).filter fun b => w.getLsbD b).length
  if ones % 2 = 1 then w else w ||| 1#16

/-- Good straps of dies 0 and 1 and the hub alone. -/
def straps : List StrapReport := [⟨0, word 1 0 0⟩, ⟨1, word 1 1 0⟩, ⟨22, word 0 0 0⟩]

/-- A start with these straps, good wires and good firmware. -/
def boot : BootIn := ⟨straps, [], ⟨[]⟩, ⟨[]⟩, ⟨[]⟩, ⟨[]⟩, []⟩

/-- Flash with one firmware of version 1 in slot 0. -/
def flash1 : Flash := { State.reset.chip.flash with fw := [(0, ⟨fileFor 0 1 0⟩)], fwActive := 0, fwStaged := false }

/-- The device that waits for its start, supplies and clocks good. -/
def waiting : Dev := { Dev.fresh0 with pw := { Dev.fresh0.pw with good := true, rails := [], restart := true, clocks := [] } }

theorem witness_PackageResets :
    let h := (dies dev 4 1 0)
    dev.pw.good = true ∧ Dev.fresh0.pw.good = false ∧ h.dieState 0 = 4 ∧ h.hubRuns = false ∧ smRising 0 dev.regs = true := by
  decide +kernel

theorem fileFor_version (ver : Nat) (h : beNat (slice (sigHead 0 ver 0) 6 6) = ver) : (⟨fileFor 0 ver 0⟩ : FwSlot).version = ver :=
  (fileFor_fields 0 ver 0).1.trans h

theorem witness_StartOfThePackage :
    let none_ : Flash := { State.reset.chip.flash with fw := [] }
    waiting.canStart = true ∧ dev.canStart = false ∧ Dev.fresh0.pw.good = false ∧ none_.fw = [] ∧
    ({ Dev.fresh0 with pw := { Dev.fresh0.pw with good := true } } : Dev).canStart = Dev.fresh0.pw.restart ∧
    flash1.fwActive ≤ 1 ∧ flash1.fwStaged = false ∧ (atF waiting flash1).chip.fuses.owner = none ∧
    (∀ i < 23, waiting.on F.HUB_STRAP_bad 0 i = false) ∧
    strapOk boot.straps 22 = true ∧ strapOk boot.straps 0 = true ∧ strapOk boot.straps 1 = true ∧ strapOk boot.straps 2 = false ∧
    (∀ q < 4, smFind waiting.by_.await q = none) ∧ 0 ∉ waiting.pw.clocks ∧
    ({ waiting with pw := { waiting.pw with rails := [3] } } : Dev).canStart = false := by
  decide +kernel

/-- The firmware of that start: it passes the checks, at the rollback value. -/
theorem witness_StartOfThePackage_firmware :
    let f : Fuses := { goodFuses 1 with owner := none }
    let w' : FwSlot := ⟨boot.fw0.of (fileFor 0 1 0)⟩
    smFind flash1.fw flash1.fwActive = some ⟨fileFor 0 1 0⟩ ∧ (f.check 1 w'.file).ok = true ∧ f.rollback ≤ w'.version ∧ f.owner = none :=
  ⟨rfl, fileFor_good 1 1 0 1 (by unfold headOk; decide +kernel),
    Nat.le_of_eq (fileFor_version 1 (by decide +kernel)).symm, rfl⟩

theorem witness_ImageActivates :
    let s := at_ up
    let p : Pend := ⟨0, ⟨emptyImage, []⟩⟩
    s.chip.pend = none ∧ (up.loadImage emptyImage [] s.chip.fuses.steppings).isSome = true ∧
    up.loadImage { emptyImage with kind := 2 } [] s.chip.fuses.steppings = none ∧ p.content.image = emptyImage ∧
    (let d : Dev := { up with cfg := { up.cfg with ports := [] } };
     d.hubRuns = true ∧ d.cfg.active = true ∧ d.on F.HUB_BOOT_STAT_ready 0 0 = false ∧ d.oe.settling = [] ∧
     ∀ p ∈ d.cfg.ports, d.firstTrained p.1 = true) ∧ Dev.fresh0.hubRuns = false := by decide +kernel

theorem witness_FatalErrors :
    let w : Dev := { dev with pw := { dev.pw with window := [2] } }
    let one := dies dev 1 2 1
    let none_ := dies dev 2 2 1
    dev.alive 0 = true ∧ dev.alive 22 = true ∧ dev.pw.window = [] ∧ dev.dieState 1 ≠ 2 ∧ w.alive 0 = true ∧ w.pw.window ≠ [] ∧
    one.alive 0 = true ∧ one.dieState 1 = 2 ∧ one.pw.window = [] ∧ (dies dev 1 0 1).dieRuns 1 = false ∧ (dies dev 1 0 1).alive 0 = true ∧
    (dies dev 1 0 1).dieState 1 ≠ 2 ∧ dev.sy.recs = [] ∧ dev.on F.HUB_FATAL_STAT_valid1 0 0 = false ∧ none_.hubRuns = true ∧
    none_.dieRuns 0 = false ∧ none_.dieRuns 1 = false ∧ one.dieState 1 = 2 ∧ (dev.wr F.HUB_STRAP_state 0 2 3).dieState 2 = 3 ∧
    dev.dieState 0 ≠ 2 ∧ dev.hubRuns = true := by decide +kernel

theorem witness_ClocksAndHubReset :
    let one := dies dev 1 2 1
    0 ∉ dev.pw.clocks ∧ dev.dieRuns 0 = true ∧ one.dieRuns 1 = false ∧ one.dieRuns 0 = true ∧ one.dieState 1 = 2 ∧ one.hubRuns = true ∧ 1 ∉ one.pw.clocks ∧
    2 ∉ dev.pw.clocks ∧ dev.hubRuns = true ∧
    dev.sy.recs = [] ∧ hubKey (regKey .HUB_ADMIT 0 0) = true ∧ hubKey (regKey .LANE_CFG 0 0) = false := by decide +kernel

theorem witness_Headless :
    let off := dies dev 1 1 0
    let bare : Dev := { off with cfg := Cfg.none }
    let late : Dev := { (off.wr F.HUB_STRAP_state 0 0 4) with tick := 5000000000, pw := { off.pw with entered := [(0, 0)] } }
    off.hubRuns = false ∧ off.attached = false ∧ off.dieState 0 = 1 ∧ dev.hubRuns = true ∧ off.pw.good = true ∧ off.pw.restart = false ∧
    2 ∉ off.pw.clocks ∧ off.pw.rails = [] ∧ ({ flash1 with fw := [] } : Flash).fw = [] ∧ flash1.fwActive ≤ 1 ∧ flash1.fwStaged = false ∧
    (late.timedOut = true ∧ late.hubRuns = false ∧ late.pw.good = true ∧ late.pw.restart = false ∧ late.pw.rails = [] ∧
      2 ∉ late.pw.clocks) ∧ off.timedOut = false ∧ bare.timedOut = false ∧
    off.cfg.active = true ∧ (atF off flash1).chip.flashConfig = none ∧ bare.cfg.active = false ∧ bare.hubRuns = false ∧
    bare.dieRuns 0 = true := by decide +kernel

/-- A configuration of the digest that flash gives, and one of another. -/
theorem witness_Headless_digest :
    let off := dies dev 1 1 0
    let flash : Flash := { flash1 with img := [(0, ⟨emptyImage, []⟩)], imgActive := 0, log := [] }
    let same : Dev := { off with cfg := { off.cfg with digest := sha384 [] } }
    same.cfg.active = true ∧ (atF same flash).chip.flashConfig.map Prod.snd = some same.cfg.digest ∧ off.cfg.active = true ∧
    (atF off flash).chip.flashConfig.map Prod.snd ≠ some off.cfg.digest := by decide +kernel

theorem witness_RegisterStore :
    RegsCanonical [] ∧ RegsCanonical (rset [] .HUB_GUARD 0 0 5) ∧ (31 : Nat) < 32 ∧ (2097151 : Nat) < 2097152 := by
  unfold RegsCanonical
  decide +kernel

/-- Block 3 is commanded to quiesce and reports it. -/
def quiet : Dev := let d := up.wr F.MGT_BLK_CTRL_quiesce 0 3 1; { d with mg := { d.mg with quiesced := 8#64 } }

theorem witness_QuiescedBlocksAreEmpty : QuiescedHeld State.reset ∧ QuiescedHeld (at_ quiet) ∧
    ¬ QuiescedHeld (at_ { up with mg := { up.mg with quiesced := 8#64 } }) := by
  refine ⟨?_, ?_, fun h => ?_⟩
  · unfold QuiescedHeld; decide +kernel
  · unfold QuiescedHeld; decide +kernel
  · exact absurd (h 3 (by omega) (by decide +kernel)).1 (by decide +kernel)

theorem witness_FusesBlowOnce : FusesOnlyBlow (goodFuses 2) (goodFuses 3) ∧ ¬ FusesOnlyBlow (goodFuses 3) (goodFuses 2) :=
  ⟨⟨rfl, rfl, rfl, rfl, rfl, rfl, rfl, rfl, rfl, (by omega : 2 ≤ 3), id, fun _ h => h⟩, fun h => absurd h.2.2.2.2.2.2.2.2.2.1 (by show ¬ 3 ≤ 2; omega)⟩

-- Writes that command -------------------------------------------------------------------------------------------------------------

/-- Whether a write reaches the register of a command and no check turns it down. -/
def commands (c : Chip) (a : Nat) (x : RegAt) (w : Word) : Bool :=
  let d := (c.on Dev.countOp).dev
  decide (decodeAddr a = some x) && !c.dev.on F.SEC_STAT_recovery 0 0 && d.writeReaches x w &&
    d.writeStatus x (d.rdw x.reg x.unit (d.selIdx x)) w == 0

/-- A chip whose device is `d`. -/
def chipOf (d : Dev) : Chip := (at_ d).chip

/-- A device whose table arguments name an entry of rank 9 in block 0, to the port bundle 1. -/
def args : Dev := ((up.wr F.FWD_KEY_rank 0 0 9).wr F.FWD_RES_kind 0 0 2).wr F.FWD_RES_tgt_kind 0 0 1

/-- The same with an entry of that key in the table, or with a static entry at each of its places. -/
def keyed : Dev := { args with fw := { args.fw with logical := [(lgBase 0 + (args.logPos 0 9 32768).getD 0 0, entry)] } }
def crowded : Dev :=
  let taken := (args.logPos 0 9 32768).map fun p => (lgBase 0 + p, { entry with kind := 0, rank := 8 })
  { args with fw := { args.fw with logical := taken } }

/-- FWD_CMD: an operation on a table with a scope. -/
def tableOp (op tbl scope : Nat) : Word := wmk [(11, 10, scope), (7, 4, tbl), (3, 0, op)]

theorem witness_CommandRegisters_tables :
    let x : RegAt := ⟨.FWD_CMD, 0, 0⟩
    let swap := fun (d : Dev) (s : Nat) => commands (chipOf d) 0x100000040 x (tableOp 7 0 s)
    (∀ d ∈ [args, keyed, crowded], ∀ op ∈ [3, 4, 6], commands (chipOf d) 0x100000040 x (tableOp op 2 0) = true) ∧
    F.FWD_CMD_op.of (tableOp 6 2 0) = 6 ∧ F.FWD_CMD_table.of (tableOp 6 2 0) = 2 ∧ F.FWD_CMD_scope.of (tableOp 7 0 1) = 1 ∧
    (∀ d ∈ [args, keyed, crowded], d.logArg 0 = 9 ∧ d.rd F.FWD_RES_kind 0 0 = 2 ∧ d.rd F.FWD_RES_tgt_kind 0 0 = 1 ∧
      ∀ y ∈ d.fw.logical, y.1 / 262144 = 0 → y.2.flip = 0) ∧
    args.roomLog 0 9 = true ∧ keyed.roomLog 0 9 = true ∧ crowded.roomLog 0 9 = false ∧ args.findLog 0 9 = none ∧
    (keyed.findLog 0 9).isSome = true ∧
    swap args 0 = true ∧ swap args 1 = true ∧ args.on F.FWD_CMD_busy 1 0 = false ∧
    (let d := args.wr F.FWD_EPOCH_draining 1 0 1; swap d 1 = true ∧ d.on F.FWD_EPOCH_draining 1 0 = true ∧ 1 ∈ d.scopeDies 0 1) ∧
    (let d : Dev := { args with fw := { args.fw with swapPend := [(0, true)] } }
     swap d 0 = true ∧ smGet d.fw.swapPend 0 false = true) ∧
    ¬ (args.on F.FWD_EPOCH_draining 0 0 = true ∨ smGet args.fw.swapPend 0 false = true) := by decide +kernel

theorem witness_CommandRegisters_clean : ∀ d ∈ [args, keyed, crowded], KeyClean d 0 9 := by
  intro d h
  refine clean_of _ _ _ ?_
  revert d
  decide +kernel

theorem witness_CommandRegisters_optics :
    let oe := fun (d : Dev) (op : Nat) => commands (chipOf d) 0x200000028 ⟨.OE_CMD, 0, 0⟩ (BitVec.ofNat 64 op)
    let by_ := fun (d : Dev) (op i take : Nat) =>
      commands (chipOf d) 0x280000028 ⟨.BYP_CMD, 0, 0⟩ (wmk [(10, 10, take), (9, 5, i), (2, 0, op)])
    let idle : Dev := ({ quad with by_ := { quad.by_ with op := [] } } : Dev).wr F.BYP_CMD_OUT_outputs 0 0 4
    let active := idle.wr F.BYP_IN_active 0 1 1
    let ps := idle.circuitPorts 0 1 [2]
    let both := engine.wr F.OE_STATE_feed 0 0 1
    oe engine 3 = true ∧ oe engine 4 = true ∧ oe both 4 = true ∧ engine.rd F.OE_STATE_feed 0 0 = 0 ∧ both.rd F.OE_STATE_feed 0 0 = 1 ∧
    (let d := engine.wr F.OE_CMD_busy 0 0 1; oe d 3 = true ∧ d.on F.OE_CMD_busy 0 0 = true) ∧
    engine.on F.OE_CMD_busy 0 0 = false ∧ smFind engine.oe.change 0 = none ∧
    by_ quad 1 1 0 = true ∧ smFind quad.by_.op 0 ≠ none ∧
    by_ idle 1 1 0 = true ∧ by_ idle 1 1 1 = true ∧ smFind idle.by_.op 0 = none ∧ idle.bypUp 0 = true ∧
    outsOf (BitVec.ofNat 64 (idle.rd F.BYP_CMD_OUT_outputs 0 0)) = [2] ∧ idle.circuitOk 0 1 [2] = true ∧
    active.circuitOk 0 1 [2] = false ∧ by_ active 1 1 1 = true ∧ 8 ∈ ps ∧ idle.linkUp 8 = true ∧ idle.isPort 8 = true ∧
    by_ active 2 1 0 = true ∧ by_ idle 2 1 0 = true ∧ active.on F.BYP_IN_active 0 1 = true ∧ idle.on F.BYP_IN_active 0 1 = false := by
  decide +kernel

/-- Flash with keys in slots 0 and 3. -/
def keys2 : Flash := { State.reset.chip.flash with keys := [(0, ⟨0, List.replicate 48 0⟩), (3, ⟨0, List.replicate 48 1⟩)] }

theorem witness_CommandRegisters_keys :
    let c : Chip := (atF up keys2).chip
    let next : Chip := c.on fun d => d.wr F.MGT_AUTH_CFG_key_next 0 0 3
    let third : Chip := c.on fun d => (d.wr F.MGT_AUTH_CFG_key_cur 0 0 3).wr F.MGT_AUTH_CFG_key_next 0 0 0
    let key := fun (c : Chip) (op slot : Nat) => commands c 0x02000100 ⟨.SEC_KEY_CMD, 0, 0⟩ (wmk [(5, 2, slot), (1, 0, op)])
    let enrol := fun (c : Chip) => commands c 0x02000028 ⟨.SEC_OWNER_CMD, 0, 0⟩ (wmk [(16, 1, 0xA77E), (0, 0, 1)])
    key c 1 1 = true ∧ key c 1 0 = true ∧ key c 2 0 = true ∧ key c 2 3 = true ∧ key next 2 3 = true ∧ key third 2 0 = true ∧
    c.dev.keyCur = 0 ∧ next.dev.keyNext = 3 ∧ third.dev.keyCur = 3 ∧ third.dev.keyNext = 0 ∧ c.slotState 1 = 0 ∧ c.slotState 0 ≠ 0 ∧
    enrol c = true ∧ c.fuses.owner = none ∧ enrol { c with fuses := { c.fuses with owner := some [] } } = true := by decide +kernel

theorem witness_CommandRegisters_hub :
    let die := fun (d : Dev) (op t : Nat) => commands (chipOf d) 0x28 ⟨.HUB_DIE_CTRL, 0, 0⟩ (wmk [(31, 16, 0x5E7A), (7, 3, t), (2, 0, op)])
    let arm := fun (d : Dev) (t n b : Nat) => commands (chipOf d) 0x2020 ⟨.HUB_INJ_CTRL, 0, 0⟩
      (wmk [(47, 32, 0xFA7A), (31, 24, n), (9, 8, b), (4, 1, t), (0, 0, 1)])
    let one := dies dev 1 2 1
    die dev 1 0 = true ∧ dev.dieOpFits 1 0 = true ∧ dieOpOk 1 0 0 = true ∧ dev.dieRuns 0 = true ∧
    die one 2 1 = true ∧ dieOpOk 2 1 0 = true ∧ one.dieOpFits 2 1 = true ∧ one.dieRuns 0 = true ∧
    (let d := dies dev 2 2 1; die d 2 1 = true ∧ d.dieOpFits 2 1 = true ∧ d.dieRuns 0 = false) ∧
    die dev 5 0 = true ∧ dieOpOk 5 0 0x5E7A = true ∧ dev.dieOpFits 5 0 = true ∧ die dev 2 1 = true ∧ dev.dieOpFits 2 1 = false ∧
    arm dev 1 255 2 = true ∧ arm dev 8 1 1 = true ∧ arm dev 9 0 0 = true ∧ dev.pw.window = [] ∧ dev.dieState 1 ≠ 2 := by decide +kernel

-- Clauses whose hypotheses the witnesses above leave out --------------------------------------------------------------------------

theorem witness_VerificationEnds_left :
    let sum := crc32c (chunkPayloads ((withRec (rec5 .sending)).dscOf (rec5 .sending)) (rec5 .sending)).1.flatten
    let bad := { rec5 .sending with check := sum + 1, left := true }
    let shut := { rec5 .closed with left := true }
    (withRec bad).chunk? key5 = some bad ∧ bad.left = true ∧ bad.retracted = false ∧
    crc32c (chunkPayloads ((withRec bad).dscOf bad) bad).1.flatten ≠ bad.check ∧
    (withRec shut).chunk? key5 = some shut ∧ shut.state = .closed ∧ shut.verified = false ∧ (rec5 .closed).left = false := by
  decide +kernel

theorem witness_VerificationEnds_range (r : ChunkRec) (h : r = { rec5 r.state with check := r.check, left := r.left }) : r.InRange := by
  obtain ⟨a, b, c, e, f⟩ : (rec5 r.state).InRange := ⟨(by decide : (0 : Nat) < 2), (by decide : (5 : Nat) < 32768),
    (by decide : (2 : Nat) < 16), (by decide : (0 : Nat) < 64),
    by intro u h; simp only [rec5, List.mem_singleton] at h; subst h; decide⟩
  rw [h]
  exact ⟨a, b, c, e, f⟩

/-- The port of lane 0 in training step 7, and a lane whose next training word begins in the next tick. -/
theorem witness_PortTraining_words :
    let t := dev.wr F.LANE_PORT_STAT_state 0 0 1
    let last : Dev := { t.wr F.LANE_STAT_block 0 0 1 with
      ln := { t.ln with train := [(0, { t.train 0 with words := [0], adapted := [0], rtt := true })] } }
    let w : Wave := ⟨false, 65536 - 725, 77, [], none⟩
    let waves : Dev := { t with ln := { t.ln with wave := [(0, w)] } }
    (last.isPort 0 = true ∧ last.linkUp 0 = false ∧ last.portState 0 = 1 ∧ last.trainStep 0 = 7) ∧
    smFind waves.ln.wave 0 = some w ∧ waves.portOf 0 = some 0 ∧ w.wordAt 726 = some 725 ∧ waves.selfLoop 0 = false ∧
    waves.trainStep 0 < 6 ∧ w.stop = none := by decide +kernel

theorem witness_TimeFrames_attached :
    let t2 : Word := wmk [(63, 48, 1), (47, 32, 7), (31, 24, 3), (18, 18, 1)]
    let src := ((up.wr F.TIME_SRC_CFG_pri_en 0 0 1).wr F.TIME_SRC_CFG_primary 0 0 0).wr F.TIME_STAT_source 0 0 1
    let echo : Dev := { src with time := { src.time with txTimes := [(0, 7, 100 * 2 ^ 32)] } }
    let slow := (echo.wr F.TIME_STAT_state 0 0 1).wr F.TIME_CTRL_interval 0 0 1
    let off : Dev := { (dies up 1 1 0).wr F.TIME_CTRL_tx 0 0 1 with pw := up.pw }
    let alone := off.wr F.HUB_STRAP_state 0 22 0
    up.attached = true ∧ alone.attached = false ∧ alone.isPort 0 = true ∧ alone.portState 0 = 2 ∧ alone.dieRuns 0 = true ∧
    alone.linkUp 0 = true ∧ alone.on F.TIME_CTRL_tx 0 0 = true ∧
    (∀ d ∈ [echo, slow, echo.wr F.TIME_CTRL_mode 0 0 1], d.linkUp 0 = true ∧ d.dieRuns 0 = true ∧ d.attached = true ∧ d.sourceOf 0 = 1 ∧
      d.rd F.TIME_STAT_source 0 0 = 1 ∧ d.on F.TIME_CTRL_root 0 0 = false ∧
      d.time.txTimes.find? (fun y => y.1 == 0 && y.2.1 == fget t2 47 32) = some (0, 7, 100 * 2 ^ 32)) ∧
    fget t2 23 19 = 0 ∧ fget t2 15 0 = 0 ∧ fget t2 31 24 ≠ 255 ∧ wbit t2 17 = false ∧ wbit t2 18 = true ∧
    echo.on F.TIME_CTRL_mode 0 0 = false ∧ echo.rd F.TIME_STAT_state 0 0 = 0 ∧ slow.rd F.TIME_STAT_state 0 0 ≠ 0 ∧
    slow.rd F.TIME_CTRL_interval 0 0 ≠ 0 := by
  and_intros <;> decide +kernel

/-- An echo of offset 0: the frame leaves the partner and arrives here on the same time. -/
theorem witness_FabricClock_small :
    (hallDiff (5 * 2 ^ 32) (5 * 2 ^ 32) - hallDiff (100 * 2 ^ 32) (100 * 2 ^ 32)).natAbs ≤ 1000 * 2 ^ 33 ∧
    1000 * 2 ^ 33 < (hallDiff (3000 * 2 ^ 32) (5 * 2 ^ 32) - hallDiff (100 * 2 ^ 32) (100 * 2 ^ 32)).natAbs := by decide +kernel

/-- A loop of the engine whose lanes' port is up, in training, and down. -/
theorem witness_EngineCalibration_ports :
    let train := engine.wr F.LANE_PORT_STAT_state 0 8 1
    let down := engine.wr F.LANE_PORT_STAT_state 0 8 0
    (∀ d ∈ [engine, train, down], d.engineRuns 0 = true ∧ d.portOf 8 = some 8 ∧ d.isPort 8 = true ∧ 8 / 8 = 8 * 0 + 9 % 72 / 9 ∧
      d.carryOf 8 = 9 % 9) ∧
    smGet engine.ln.rxWl 8 (8 % 8) = 81 % 9 ∧ 8 / 8 = 8 * 0 + 81 % 72 / 9 ∧
    engine.linkUp 8 = true ∧ train.portState 8 = 1 ∧ down.linkUp 8 = false ∧ down.portState 8 ≠ 1 := by decide +kernel

theorem witness_ThermalStates_trip :
    let hot := engine.wrw .HUB_THERM_STAT 0 0 (wmk [(5, 4, 3), (1, 0, 3)])
    hot.therm 0 = 3 ∧ hot.therm 2 = 3 ∧ hot.therm 1 < 3 ∧ hot.alive 2 = true ∧ engine.therm 2 < 3 ∧ engine.pw.window = [] ∧
    engine.dieState (1 - 0) ≠ 2 ∧ engine.alive 0 = true ∧ 8 / 64 = 2 - 2 ∧ engine.carryOf 8 ≠ 15 ∧ engine.portOf 8 = some 8 ∧
    thermNext 0 3 (16 * 110 - 47) = 3 ∧ thermNext 0 3 (16 * 110 - 48) = 2 := by decide +kernel

theorem witness_RegisterOperations_recovery :
    let rec_ : Chip := (at_ (managed.dev.wr F.SEC_STAT_recovery 0 0 1)).chip
    let none_ : RegAt := ⟨.TM_SAMP_DATA, 0, 0⟩
    let odd : RegAt := ⟨.HUB_AVS_CTRL, 0, 0⟩
    rec_.dev.on F.SEC_STAT_recovery 0 0 = true ∧ rec_.dev.hubRuns = true ∧
    decodeAddr 0x200000000 = some ⟨.OE_ERR_FIRST, 0, 0⟩ ∧ RegAt.inRecovery ⟨.OE_ERR_FIRST, 0, 0⟩ = false ∧
    decodeAddr 0 = some ⟨.HUB_ERR_FIRST, 0, 0⟩ ∧ RegAt.inRecovery ⟨.HUB_ERR_FIRST, 0, 0⟩ = true ∧
    managed.dev.writeReaches ⟨.OE_ERR_FIRST, 0, 0⟩ 0 = false ∧
    (managed.dev.wr F.TM_QSEL_port 0 0 511).selects none_ = false ∧ managed.dev.available none_ = true ∧
    (let e := (managed.chip.on Dev.countOp).dev
     managed.dev.writeReaches odd 0xFFFFFFFF = true ∧
     e.writeStatus odd (e.rdw odd.reg odd.unit (e.selIdx odd)) 0xFFFFFFFF ≠ 0) := by decide +kernel

theorem witness_RequestsServed_recovery :
    let d := managed.dev.wr F.SEC_STAT_recovery 0 0 1
    d.on F.SEC_STAT_recovery 0 0 = true ∧ d.mgmtUp 0 = true ∧ d.takesWire 0 sender.to_ = true ∧ d.seqClass 3 9 = .new ∧
    d.pw.restart = false := by decide +kernel

theorem witness_RequestsServed_checks : ∀ k ∈ [(4, wordsPay [32]), (0x20, wordsPay [0])],
    (at_ (managed.dev.wr F.SEC_STAT_recovery 0 0 1)).chip.failedCheck (msg k.1 k.2) k.1 = none := fun k h =>
  (checks_agree _ _ _ (by decide +kernel)).trans (msg_passes _ _ (by revert k; decide +kernel))

theorem witness_FileTransfers_refused :
    let x : Xfer := ⟨3, 0, 4, [], [], false⟩
    managed.dev.mg.xfer = none ∧ (receiving { x with verifying := true }).mg.xfer = some { x with verifying := true } ∧
    x.fits 1408 4 = false ∧ x.fits 0 5 = false ∧ (receiving x).mg.xfer.isSome = true ∧
    (managed.dev.wr F.SEC_STAT_recovery 0 0 1).beginStatus 3 0 4 = 4 ∧ (managed.dev.wr F.SEC_STAT_recovery 0 0 1).beginStatus 1 0 4 = 0 ∧
    (wordsPay [wmk [(63, 56, 3)], 4]).length = 16 ∧ (wordsPay [0]).length ≠ 16 ∧ (wordsPay [0] ++ [1, 2, 3, 4]).length = 8 + 4 ∧
    ((receiving x).injectHit 8 0 1).2.1 = 0 := by decide +kernel

theorem witness_FileTransfers_payloads :
    managed.chip.failedCheck (msg 0x10 (wordsPay [0])) 0x10 = none ∧ managed.chip.failedCheck (msg 0x11 [1]) 0x11 = none ∧
    managed.chip.failedCheck (msg 0x12 [1]) 0x12 = none ∧ managed.chip.failedCheck (msg 0x13 [1]) 0x13 = none := by
  and_intros <;> exact msg_passes _ _ (by decide +kernel)

theorem witness_StagePeers_digests :
    let own : StageStat := ⟨7, leading.cfg.stage.digest, 0, true, []⟩
    let old : Dev := { leading with st := { leading.st with mismatched := [0] } }
    leading.inStage = true ∧ leading.role = 2 ∧ own.digest = leading.cfg.stage.digest ∧ leading.msgSeen ⟨0, 0, .status own⟩ = false ∧
    0 ∈ old.st.mismatched ∧ old.msgSeen ⟨0, 0, .status own⟩ = false ∧ 0 ∉ leading.st.mismatched ∧
    smFind ({ staged with st := { staged.st with peers := [(0, own)] } } : Dev).st.peers 0 = some own := by decide +kernel

/-- The peer at position 0 with one site in a state. -/
def peering (n : Nat) : Dev :=
  { leading with st := { leading.st with peers := [(0, ⟨7, leading.cfg.stage.digest, 0, true, [⟨true, true, n⟩]⟩)],
                                         checked := [(0, wmk [(61, 61, 1), (39, 24, 0x1234), (23, 16, 15)])] } }

theorem witness_Cartridges_peers :
    let gone : Dev := { peering 2 with st := { (peering 2).st with peers := [] } }
    let ports : Dev := { leading with cfg := { leading.cfg with stage := { leading.cfg.stage with sites := [(8, { site with ports := [0] })] } } }
    (peering 2).inStage = true ∧ 0 ≠ (peering 2).stagePos ∧ (peering 2).role = 2 ∧ (peering 2).siteCfg 0 0 = some site ∧
    (peering 2).manages 0 = true ∧ (peering 2).peerSite 0 0 = ⟨true, true, 2⟩ ∧ ((peering 3).peerSite 0 0).state ≠ 2 ∧
    gone.manages 0 = false ∧ smFind (peering 2).st.checked (0 * 8 + 0) ≠ none ∧ 0 ∉ (peering 2).st.hot ∧
    ((peering 2).cfg.stage.limit : Int) ≤ s16 1120 ∧ checkState site (some (identity 300)) = 3 ∧ checkState site none = 5 ∧
    (ports.siteCfg 1 0 = some { site with ports := [0] } ∧ ports.isPort 0 = true ∧ ports.portWidth 0 ≤ 8) := by decide +kernel

theorem witness_PackageResets_rails :
    let d : Dev := { dev with pw := { dev.pw with rails := [7] } }
    let off : Dev := { d with pw := { d.pw with good := false } }
    7 ∈ d.pw.rails ∧ d.pw.good = true ∧ 7 ∉ dev.pw.rails ∧ off.pw.good = false := by decide +kernel

theorem witness_StartOfThePackage_triggers :
    let low : Dev := { waiting with pw := { waiting.pw with rails := [3] } }
    let dark : Dev := { waiting with pw := { waiting.pw with good := false } }
    ({ low with pw := { low.pw with rails := low.pw.rails.filter (· != 3) } } : Dev).canStart = true ∧
    ({ low with pw := { low.pw with rails := low.pw.rails.filter (· != 2) } } : Dev).canStart = false ∧
    dark.pw.good = false ∧ ({ dark with pw := { dark.pw with good := true } } : Dev).canStart = true ∧
    boot.straps.find? (fun r => r.die.val == 22) = some ⟨22, word 0 0 0⟩ := by decide +kernel

theorem witness_ImageActivates_stops :
    let both := (up.wr F.HUB_STRAP_bad 0 0 1).wr F.HUB_STRAP_bad 0 1 1
    let good : Dev := { up with cfg := { up.cfg with ports := [] } }
    up.bootStops = false ∧ both.bootStops = true ∧ (up.wr F.HUB_STRAP_bad 0 22 1).bootStops = true ∧ good.attached = true ∧
    good.on F.SEC_STAT_recovery 0 0 = false ∧ good.bootStops = false ∧
    (up.wr F.SEC_STAT_recovery 0 0 1).on F.SEC_STAT_recovery 0 0 = true := by decide +kernel

theorem witness_FatalErrors_dies :
    let open_ : Dev := { dies dev 2 1 1 with pw := { dev.pw with window := [0] } }
    let q : Dev := { quad with by_ := { quad.by_ with op := [(0, ⟨2, 1, false⟩)] } }
    open_.canFail 0 9 = true ∧ open_.alive 0 = false ∧ open_.canFail 0 5 = false ∧ open_.pw.window ≠ [] ∧
    engine.canFail 2 1 = true ∧ engine.pw.window = [] ∧ engine.cfg.active = true ∧ engine.hubRuns = true ∧
    engine.linkUp 8 = true ∧ engine.isPort 8 = true ∧ quad.canFail 18 7 = true ∧ quad.pw.window = [] ∧
    (∀ x, smFind q.by_.op 0 = some x → x.op ≠ 1) ∧ dev.canFail 0 4 = true ∧ dev.dieRuns 1 = true ∧
    open_.dieState 0 = 2 ∧ (engine.dieState 2 = 1 ∨ engine.dieState 2 = 3) ∧ 18 - 18 ∈ quad.by_.read := by
  refine ⟨by decide +kernel, by decide +kernel, by decide +kernel, by decide +kernel, by decide +kernel, by decide +kernel,
    by decide +kernel, by decide +kernel, by decide +kernel, by decide +kernel, by decide +kernel, by decide +kernel, ?_,
    by decide +kernel, by decide +kernel, by decide +kernel, by decide +kernel, by decide +kernel⟩
  rintro x ⟨⟩
  decide

theorem witness_RhizoidLinks_lost :
    let d := (up.wr F.D2D_STAT_peer 0 0 1)
    let ctl : Dev := { d with d2 := { d.d2 with ctlDown := [0] } }
    d.dieRuns 0 = true ∧ d.on F.D2D_STAT_peer 0 0 = true ∧ d.bundlesUp 0 = 0 ∧ ctl.dieRuns 0 = true ∧
    ctl.on F.D2D_STAT_peer 0 0 = true ∧ ctl.d2.ctlDown ≠ [] := by decide +kernel

-- WellFormed: each check refuses an ill-formed term --------------------------------------------------------------------------

theorem test_chunk_keys_in_range :
    (Instr.slotTimeout ⟨2, 0, 0, 0⟩).wellFormed = false ∧ (Instr.slotTimeout ⟨0, 32768, 0, 0⟩).wellFormed = false ∧
    (Instr.closedRecordRelease ⟨0, 0, 65536, 0⟩).wellFormed = false ∧ (Instr.spillFetchTimeout ⟨0, 0, 0, 16384⟩).wellFormed = false ∧
    (Instr.slotTimeout ⟨1, 32767, 65535, 16383⟩).wellFormed = true := by decide +kernel

theorem test_link_blocks_in_form :
    (Instr.linkBlockReceive 0 [] []).wellFormed = false ∧ (Instr.linkBlockReceive 0 [] (List.replicate 4 [])).wellFormed = false ∧
    (Instr.linkBlockReceive 0 [0] []).wellFormed = false := by decide +kernel

theorem test_flit_cells :
    (Instr.flitReceive 0 0 0 ⟨0, 0, [], List.replicate 256 0, []⟩).wellFormed = false ∧
    (Instr.flitReceive 0 0 0 ⟨0, 0, List.replicate 256 0, [], []⟩).wellFormed = false ∧
    (Instr.flitReceive 0 0 0 ⟨0, 0, List.replicate 256 0, List.replicate 256 0, [4351]⟩).wellFormed = true := by decide +kernel

theorem test_origins_and_parts_exist :
    (Instr.pinnedMappingSwitch (.port 1024) 0).wellFormed = false ∧ (Instr.pinnedMappingSwitch (.array 32) 0).wellFormed = false ∧
    (Instr.pinnedMappingSwitch (.other 2) 0).wellFormed = false ∧ (Instr.railFault 0).wellFormed = false ∧
    (Instr.thermalTrip 18).wellFormed = false ∧ (Instr.thermalTrip 22).wellFormed = true ∧
    (Instr.fatalError 0 6).wellFormed = false ∧ (Instr.fatalError 22 8).wellFormed = false ∧ (Instr.fatalError 2 1).wellFormed = false ∧
    (Instr.fatalError 2 8).wellFormed = true := by decide +kernel

theorem test_sample_lengths :
    (Instr.monitorSample 0 (List.replicate 17 0) (List.replicate 8 0)).wellFormed = false ∧
    (Instr.monitorSample 0 (List.replicate 18 0) (List.replicate 9 0)).wellFormed = false ∧
    (Instr.bypassVerifyComplete 0 [] [] true).wellFormed = false ∧
    (Instr.bypassVerifyComplete 0 (List.replicate 8 0) [[]] true).wellFormed = false ∧
    (Instr.bypassTapSample 0 [] (List.replicate 32 0) 0).wellFormed = false ∧
    (Instr.bypassTapSample 0 (List.replicate 32 0) [] 0).wellFormed = false := by decide +kernel

theorem test_message_lengths :
    (Instr.hello sender { plain 3 [] with tag := [] } false).wellFormed = false ∧
    (Instr.fileData sender (plain 0x11 (List.replicate 1425 0)) false).wellFormed = false ∧
    (Instr.hello sender (plain 3 []) false).wellFormed = true ∧ (Instr.lichenDigestReceive 0 []).wellFormed = false ∧
    (Instr.stageStatusReceive 0 0 0 ⟨0, [], 0, false, []⟩).wellFormed = false ∧
    (Instr.cartridgeIdentityRead 0 []).wellFormed = false ∧ (Instr.cartridgeCheck 0 0 [1]).wellFormed = false ∧
    (Instr.cartridgeCheck 0 0 []).wellFormed = true ∧ (Instr.quoteDone true []).wellFormed = false ∧
    (Instr.quoteDone false []).wellFormed = true := by decide +kernel

-- Values of the manual and of the standards it names ---------------------------------------------------------------------------

/-- The CRC-32C (R42) of the digits 1 to 9 that its standard gives. -/
theorem test_crc32c : crc32c ((List.range 9).map fun i => BitVec.ofNat 8 (0x31 + i)) = 0xE3069283 := by decide +kernel

/-- The first word of SHA-384 of "abc" (FIPS 180-4). -/
theorem test_sha384 : (sha384 [0x61#8, 0x62#8, 0x63#8]).take 8 = wordBytes 0xcb00753f45a35e8b#64 := by decide +kernel

/-- A step takes the front command and leaves the rest. -/
theorem test_step_takes_the_front :
    (match step { at_ up with pending := [.debugAccessAttempt, .hubReset] } with
      | .next t => decide (t.pending = [.hubReset]) && decide (t.dev.rd F.SEC_STAT_debug_tries 0 0 = 1)
      | _ => false) = true := by decide +kernel

/-- An empty queue lets 6.4 ns of fabric time pass. -/
theorem test_idle_step_is_a_tick :
    (match step (at_ up) with | .next t => decide (t.dev.tick = up.tick + 1) | _ => false) = true := by decide +kernel

/-- R328: VDD_CORE_IN below its threshold resets every die with cause 5. -/
theorem test_supply_fault :
    (match exec .supplyFaultReset (at_ dev) with
      | .next t => decide (t.dev.rd F.HUB_BOOT_STAT_cause 0 0 = 5) && decide (t.dev.dieState 0 = 0) | _ => false) = true := by
  decide +kernel

/-- R325, Table 13.3: 940 mV enters step 2. -/
theorem test_shedding_step :
    (match exec (.sheddingStepEnter 940) (at_ up) with
      | .next t => decide (t.dev.shed = 2) | _ => false) = true := by decide +kernel

/-- R334: a management port that comes up shows its bit. -/
theorem test_management_port :
    (match exec (.managementPortLink 4 true) (at_ up) with
      | .next t => decide (t.dev.rdw .MGT_PORT_STAT 0 0 = 16) | _ => false) = true := by decide +kernel
end Sys2Proof.Tests
end

section
/-! PROOF. The register store: its canonical form under every operation that writes it, and what a reset leaves of a register
(O59). -/

namespace Sys2Proof.Machine

-- Sparse tables under a map that keeps the keys -----------------------------------------------------------------------------------

/-- A table whose keys start at `lo` lists none below. -/
theorem smFind_of_lt_rising {α : Type} {m : SMap α} {lo k : Nat} (h : smRising lo m = true) (hk : k < lo) : smFind m k = none := by
  induction m generalizing lo with
  | nil => rfl
  | cons e t ih =>
    obtain ⟨k', v⟩ := e
    simp only [smRising, Bool.and_eq_true, decide_eq_true_eq] at h
    rw [smFind, if_neg (by omega)]
    exact ih h.2 (by omega)

theorem mem_of_smFind {α : Type} {m : SMap α} {k : Nat} {v : α} (h : smFind m k = some v) : (k, v) ∈ m := by
  induction m with
  | nil => simp [smFind] at h
  | cons e t ih =>
    obtain ⟨k', v'⟩ := e
    by_cases hk : k' = k
    · obtain rfl : v' = v := by simpa [smFind, hk] using h
      simp [hk]
    · exact List.mem_cons_of_mem _ (ih (by simpa [smFind, hk] using h))

section FilterMap
variable {α : Type} {f : Nat × α → Option (Nat × α)} (hf : ∀ e e', f e = some e' → e'.1 = e.1)
include hf

theorem smRising_filterMap (m : SMap α) : ∀ lo, smRising lo m = true → smRising lo (m.filterMap f) = true := by
  induction m with
  | nil => exact fun _ h => h
  | cons e t ih =>
    intro lo h
    simp only [smRising, Bool.and_eq_true, decide_eq_true_eq] at h
    cases he : f e with
    | none => rw [List.filterMap_cons_none he]; exact smRising_mono (ih _ h.2) (by omega)
    | some e' =>
      rw [List.filterMap_cons_some he]
      simp only [smRising, Bool.and_eq_true, decide_eq_true_eq, hf e e' he]
      exact ⟨h.1, ih _ h.2⟩

/-- Each key is listed once, so its entry after the map is the image of its entry before. -/
theorem smFind_filterMap {m : SMap α} {lo : Nat} (h : smRising lo m = true) (k : Nat) :
    smFind (m.filterMap f) k = (smFind m k).bind fun v => (f (k, v)).map Prod.snd := by
  induction m generalizing lo with
  | nil => rfl
  | cons e t ih =>
    obtain ⟨k', v⟩ := e
    simp only [smRising, Bool.and_eq_true, decide_eq_true_eq] at h
    by_cases hk : k' = k
    · subst hk
      have ht : smFind (t.filterMap f) k' = none := smFind_of_lt_rising (smRising_filterMap hf t _ h.2) (by omega)
      cases he : f (k', v) with
      | none => simp [List.filterMap_cons_none he, smFind, ht, he]
      | some e' => simp [List.filterMap_cons_some he, smFind, hf _ _ he, he]
    · cases he : f (k', v) with
      | none => simp [List.filterMap_cons_none he, smFind, hk, ih h.2]
      | some e' => simp [List.filterMap_cons_some he, smFind, hf _ _ he, hk, ih h.2]

end FilterMap

-- The canonical form --------------------------------------------------------------------------------------------------------------

@[simp] theorem keyReg_regKey (r : Reg) (u i : Nat) : keyReg (regKey r u i) = r.ctorIdx := by
  simp only [keyReg, regKey]; omega

theorem regsCanonical_smSet {m : RegFile} (k : Nat) (w : Word) (h : RegsCanonical m) :
    RegsCanonical (smSet m k w (smGet resetTable (keyReg k) 0)) := smWf_smSet k w h

theorem regsCanonical_rset {m : RegFile} (r : Reg) (u i : Nat) (w : Word) (h : RegsCanonical m) : RegsCanonical (rset m r u i w) := by
  have := regsCanonical_smSet (regKey r u i) w h
  rwa [keyReg_regKey] at this

theorem regsCanonical_fldPut {m : RegFile} (f : Fld) (u i v : Nat) (h : RegsCanonical m) : RegsCanonical (fldPut m f u i v) :=
  regsCanonical_rset f.reg u i _ h

theorem regsCanonical_fldInc {m : RegFile} (f : Fld) (u i n : Nat) (h : RegsCanonical m) : RegsCanonical (fldInc m f u i n) :=
  regsCanonical_fldPut f u i _ h

theorem regsCanonical_cntOne {m : RegFile} (c : CntSet) (ev : Nat) (port cls : Option Nat) (n i : Nat) (h : RegsCanonical m) :
    RegsCanonical (cntOne m c ev port cls n i) := by
  unfold cntOne
  dsimp only
  split
  · split
    · exact regsCanonical_fldPut _ _ _ _ (regsCanonical_fldPut _ _ _ _ h)
    · exact regsCanonical_fldPut _ _ _ _ h
  · exact h

theorem regsCanonical_cntRegs {m : RegFile} (c : CntSet) (ev : Nat) (port cls : Option Nat) (n : Nat) (h : RegsCanonical m) :
    RegsCanonical (cntRegs m c ev port cls n) :=
  List.foldlRecOn (List.range 8) _ h fun _ hm i _ => regsCanonical_cntOne c ev port cls n i hm

theorem regsCanonical_takeRegs {m : RegFile} (from_ : RegFile) (pick : Nat → Bool) (h : RegsCanonical m) :
    RegsCanonical (takeRegs m from_ pick) :=
  List.foldlRecOn _ _ h fun _ hm e _ => regsCanonical_smSet e.1 _ hm

-- Resets of registers (R11) ---------------------------------------------------------------------------------------------------------

/-- What a reset of the registers that `pick` names leaves of one entry of the store. -/
def resetEntry (pick : Nat → Bool) (e : Nat × Word) : Option (Nat × Word) :=
  if pick e.1 then
    if resetWord (keyReg e.1) e.2 = smGet resetTable (keyReg e.1) 0 then none else some (e.1, resetWord (keyReg e.1) e.2)
  else some e

theorem resetRegs_eq_filterMap (m : RegFile) (pick : Nat → Bool) : resetRegs m pick = m.filterMap (resetEntry pick) := rfl

/-- An entry that a reset leaves keeps its key; its word is the reset one, not the default, or it was not picked. -/
theorem resetEntry_eq_some {pick : Nat → Bool} {e e' : Nat × Word} (h : resetEntry pick e = some e') :
    e'.1 = e.1 ∧ (pick e.1 = true ∧ e'.2 = resetWord (keyReg e.1) e.2 ∧ e'.2 ≠ smGet resetTable (keyReg e.1) 0 ∨
      pick e.1 = false ∧ e' = e) := by
  unfold resetEntry at h
  split at h
  next hp =>
    split at h
    · cases h
    next hw => cases h; exact ⟨rfl, .inl ⟨hp, rfl, hw⟩⟩
  next hp => cases h; exact ⟨rfl, .inr ⟨by simpa using hp, rfl⟩⟩

theorem resetEntry_getD (pick : Nat → Bool) (k : Nat) (w : Word) :
    ((resetEntry pick (k, w)).map Prod.snd).getD (smGet resetTable (keyReg k) 0) =
      if pick k then resetWord (keyReg k) w else w := by
  unfold resetEntry
  split
  · split
    next hw => exact hw.symm
    · rfl
  · rfl

/-- A register at its reset value stays there. -/
theorem resetWord_default (r : Nat) : resetWord r (smGet resetTable r 0) = smGet resetTable r 0 := by
  unfold resetWord
  rw [← BitVec.and_or_distrib_left, BitVec.or_not_self, BitVec.and_allOnes]

/-- Reading a register after a reset of registers. -/
theorem rget_resetRegs {m : RegFile} (h : smRising 0 m = true) (pick : Nat → Bool) (r : Reg) (u i : Nat) :
    rget (resetRegs m pick) r u i = if pick (regKey r u i) then resetWord r.ctorIdx (rget m r u i) else rget m r u i := by
  simp only [rget, smGet, resetRegs_eq_filterMap,
    smFind_filterMap (fun _ _ he => (resetEntry_eq_some he).1) h]
  cases smFind m (regKey r u i) with
  | none =>
    have := resetWord_default r.ctorIdx
    simp only [Option.bind_none, Option.getD_none, resetVal, this, ite_self]
  | some w =>
    have := resetEntry_getD pick (regKey r u i) w
    rwa [keyReg_regKey] at this

/-- Whatever the form of the store, after a reset of every register each reads as the reset leaves some word. -/
theorem rget_resetRegs_all (m : RegFile) (r : Reg) (u i : Nat) :
    ∃ w, rget (resetRegs m fun _ => true) r u i = resetWord r.ctorIdx w := by
  simp only [rget, smGet, resetRegs_eq_filterMap]
  cases h : smFind (m.filterMap (resetEntry fun _ => true)) (regKey r u i) with
  | none => exact ⟨_, (resetWord_default r.ctorIdx).symm⟩
  | some w =>
    obtain ⟨e, -, he⟩ := List.mem_filterMap.mp (mem_of_smFind h)
    obtain ⟨hk, ⟨-, hw, -⟩ | ⟨hp, -⟩⟩ := resetEntry_eq_some he
    · rw [← hk, keyReg_regKey] at hw
      exact ⟨e.2, hw⟩
    · cases hp

theorem regsCanonical_resetRegs {m : RegFile} (pick : Nat → Bool) (h : RegsCanonical m) : RegsCanonical (resetRegs m pick) := by
  simp only [RegsCanonical, smWf, Bool.and_eq_true, List.all_eq_true, bne_iff_ne] at h ⊢
  obtain ⟨hrise, hne⟩ := h
  rw [resetRegs_eq_filterMap]
  refine ⟨smRising_filterMap (fun _ _ he => (resetEntry_eq_some he).1) m 0 hrise, fun e' he' => ?_⟩
  obtain ⟨e, hmem, he⟩ := List.mem_filterMap.mp he'
  obtain ⟨hk, ⟨-, -, hw⟩ | ⟨-, rfl⟩⟩ := resetEntry_eq_some he
  · rwa [hk]
  · exact hne _ hmem

/-- Settles O59: a read after a write by the laws of the store, the canonical form by the law of `smSet` and, for a reset, by the map
over the entries that it is. -/
theorem registerStore : Obligations.RegisterStore := by
  intro m
  refine ⟨rget_rset_same m, fun r u i r' u' i' w hu hu' hi hi' hne => rget_rset_ne m w hu hu' hi hi' ?_,
    fun h => ⟨?_, ?_, ?_, ?_, ?_⟩⟩
  · simpa only [ne_eq, Prod.mk.injEq, not_and_or, eq_comm] using hne
  · exact fun r u i w _ _ => regsCanonical_rset r u i w h
  · exact fun f u i v _ _ => ⟨regsCanonical_fldPut f u i v h, regsCanonical_fldInc f u i v h⟩
  · exact fun c ev port cls n _ _ => regsCanonical_cntRegs c ev port cls n h
  · have hrise : smRising 0 m = true := ((Bool.and_eq_true _ _).mp h).1
    exact fun pick => ⟨regsCanonical_resetRegs pick h, fun r u i _ _ => rget_resetRegs hrise pick r u i⟩
  · exact fun from_ pick => regsCanonical_takeRegs from_ pick h

end Sys2Proof.Machine
end

section
/-! PROOF. The machine at reset (O58). -/

namespace Sys2Proof.Machine

/-- While no block reports quiesced there is nothing to hold. -/
theorem quiescedHeld_of_none {s : State} (h : s.dev.mg.quiesced = 0) : QuiescedHeld s := by
  intro b _ hb
  simp [h] at hb

/-- An empty store gives a field its reset value (R12). -/
theorem fldGet_nil (f : Fld) (u i : Nat) : fldGet [] f u i = fget (resetVal f.reg) f.hi f.lo := rfl

theorem dieState_of_nil {d : Dev} (h : d.regs = []) (i : Nat) : d.dieState i = 0 := by
  rw [Dev.dieState, Dev.rd, h, fldGet_nil]
  decide

/-- Settles O58: the device at reset is `Dev.fresh0`, whose register store lists nothing. -/
theorem resetState : Obligations.ResetState :=
  ⟨rfl, rfl, fun _ _ _ => rfl, rfl, rfl, rfl, rfl, rfl, rfl, rfl, rfl, rfl, fun i _ => dieState_of_nil rfl i, rfl,
    quiescedHeld_of_none rfl⟩

end Sys2Proof.Machine
end

section
/-! PROOF. What a reset of the package leaves, and the commands that reset it (O49). -/

namespace Sys2Proof.Machine

-- The device after a reset of every die ---------------------------------------------------------------------------------------------

/-- A block that does not report quiesced does not begin to. -/
theorem Dev.stillQuiesced_of_none {d : Dev} (h : d.mg.quiesced = 0) : d.stillQuiesced = 0 := by
  unfold Dev.stillQuiesced
  rw [h]
  refine List.foldlRecOn (motive := (· = 0)) _ _ rfl ?_
  rintro _ rfl b _
  simp

theorem Dev.resetAll_regs (d : Dev) (powerOn : Bool) (cause : Nat) : (d.resetAll powerOn cause).regs =
    fldPut (if powerOn then [] else rset (resetRegs d.regs fun _ => true) .HUB_ERING_STAT 0 0 (d.rdw .HUB_ERING_STAT 0 0))
      F.HUB_BOOT_STAT_cause 0 0 cause := rfl

theorem Dev.resetAll_regs_powerOn (d : Dev) : (d.resetAll true 0).regs = [] := by
  rw [d.resetAll_regs, if_pos rfl]
  decide

/-- After a reset other than power-on every register but the boot status is read from the store reset and the ring's status. -/
theorem Dev.rdw_resetAll (d : Dev) (cause : Nat) {r : Reg} (u i : Nat) (h : r ≠ .HUB_BOOT_STAT) :
    (d.resetAll false cause).rdw r u i =
      rget (rset (resetRegs d.regs fun _ => true) .HUB_ERING_STAT 0 0 (d.rdw .HUB_ERING_STAT 0 0)) r u i :=
  rget_rset_ne_reg _ _ _ _ _ _ h

theorem Dev.rdw_resetAll_ring (d : Dev) (cause : Nat) :
    (d.resetAll false cause).rdw .HUB_ERING_STAT 0 0 = d.rdw .HUB_ERING_STAT 0 0 :=
  (d.rdw_resetAll cause 0 0 (by decide)).trans (rget_rset_same _ _ _ _ _)

theorem Dev.rdw_resetAll_word {d : Dev} (hd : smRising 0 d.regs = true) (cause : Nat) {r : Reg} (u i : Nat)
    (hboot : r ≠ .HUB_BOOT_STAT) (hring : r ≠ .HUB_ERING_STAT) :
    (d.resetAll false cause).rdw r u i = resetWord r.ctorIdx (d.rdw r u i) := by
  rw [d.rdw_resetAll cause u i hboot, rget_rset_ne_reg _ _ _ _ _ _ hring, rget_resetRegs hd, if_pos rfl]
  rfl

theorem Dev.cause_resetAll (d : Dev) (powerOn : Bool) {cause : Nat} (h : cause < 8) :
    (d.resetAll powerOn cause).rd F.HUB_BOOT_STAT_cause 0 0 = cause :=
  (fldGet_fldPut_same _ _ _ _ _ (by decide)).trans (Nat.mod_eq_of_lt h)

theorem resetWord_strap (w : Word) : resetWord (Reg.ctorIdx .HUB_STRAP) w = 0 := by
  have hmask : rwsMask (Reg.ctorIdx .HUB_STRAP) = 0 := by decide
  have hreset : smGet resetTable (Reg.ctorIdx .HUB_STRAP) 0 = 0 := by decide
  rw [resetWord, hmask, hreset]
  simp

/-- Every die is in reset: HUB_STRAP has no RWS bit and its reset value is 0. -/
theorem Dev.dieState_resetAll (d : Dev) (powerOn : Bool) (cause i : Nat) : (d.resetAll powerOn cause).dieState i = 0 := by
  rw [Dev.dieState, Dev.rd, d.resetAll_regs, fldGet_fldPut_ne_reg _ _ _ _ _ _ (by decide)]
  cases powerOn with
  | true => exact dieState_of_nil (d := Dev.fresh0) rfl i
  | false =>
    obtain ⟨w, hw⟩ := rget_resetRegs_all d.regs .HUB_STRAP 0 i
    rw [if_neg Bool.false_ne_true, fldGet, rget_rset_ne_reg _ _ _ _ _ _ (by decide), hw, resetWord_strap]
    rfl

-- What a package reset leaves of the machine ----------------------------------------------------------------------------------------

/-- Two modules hold the same in all that a package reset leaves, the registers and the error ring aside. -/
structure Chip.SameHeld (a b : Chip) : Prop where
  fuses : b.fuses = a.fuses
  flash : b.flash = a.flash
  bias : b.dev.by_.rec_ = a.dev.by_.rec_
  tick : b.dev.tick = a.dev.tick
  freeCtr : b.dev.freeCtr = a.dev.freeCtr
  out : b.dev.out = a.dev.out

/-- The parts of the machine that a package reset changes. -/
def resetParts : List Part :=
  [.pend, .regs, .release, .cfg, .time, .ev, .sw, .tm, .fw, .sy, .ln, .oe, .by_, .d2, .pw, .quiesced, .mgmt, .se, .st, .parserDrops]

/-- `t` is `s` with its package reset: every die in reset, nothing left of configuration and traffic, the device waiting for its start,
the boot status showing `cause`. -/
def PackageWiped (s t : State) (cause : Nat) : Prop :=
  (∀ i < 23, t.dev.dieState i = 0) ∧ t.chip.pend = none ∧ t.dev.cfg = Cfg.none ∧
    t.dev.sw = SwState.fresh ∧ t.dev.tm = TmState.fresh ∧ t.dev.fw = FwdState.fresh ∧ t.dev.sy = SyncState.fresh ∧
    t.dev.ln = LinkState.fresh ∧ t.dev.oe = OeState.fresh ∧ t.dev.st = StageState.fresh ∧ t.dev.mg = ⟨[], none, 0⟩ ∧
    t.dev.pw.restart = true ∧ t.dev.by_.rec_ = s.dev.by_.rec_ ∧ t.dev.rd F.HUB_BOOT_STAT_cause 0 0 = cause ∧
    t.chip.fuses = s.chip.fuses ∧ t.chip.flash = s.chip.flash ∧ KeepsBut resetParts s t

/-- The error ring and every RWS field of `s` stand in `t` (R11, R409). -/
def RetentionHeld (s t : State) : Prop :=
  t.dev.ev.ring = s.dev.ev.ring ∧ t.dev.rdw .HUB_ERING_STAT 0 0 = s.dev.rdw .HUB_ERING_STAT 0 0 ∧
    (smRising 0 s.dev.regs = true → ∀ r u i, u < 32 → i < 2097152 → r ≠ .HUB_BOOT_STAT → r ≠ .HUB_ERING_STAT →
      t.dev.rdw r u i = resetWord r.ctorIdx (s.dev.rdw r u i))

/-- `t` is `s` after a power-on reset. -/
def PoweredOn (s t : State) : Prop := PackageWiped s t 0 ∧ t.dev.regs = [] ∧ t.dev.ev = EvState.fresh

/-- `t` is `s` after a reset by the supplies: a power-on reset where VDD_AUX, rail 7, is out of range (R11, R439). -/
def SupplyReset (s t : State) (cause : Nat) : Prop :=
  (7 ∉ s.dev.pw.rails → PackageWiped s t cause ∧ RetentionHeld s t) ∧ (7 ∈ s.dev.pw.rails → PoweredOn s t)

/-- The machine `s` with the module `c` in it, at the end of a command. -/
def State.settledOn (s : State) (c : Chip) : State := { s with chip := c.settled }

theorem Chip.mg_packageReset (c : Chip) (powerOn : Bool) (cause : Nat) :
    (c.packageReset powerOn cause).settled.dev.mg = ⟨[], none, 0⟩ := by
  show (⟨[], none, Dev.stillQuiesced _⟩ : MgtState) = _
  rw [Dev.stillQuiesced_of_none (by rfl)]

theorem packageWiped_packageReset {s : State} {c : Chip} (h : s.chip.SameHeld c) (powerOn : Bool) {cause : Nat} (hc : cause < 8) :
    PackageWiped s (s.settledOn (c.packageReset powerOn cause)) cause := by
  refine ⟨fun i _ => c.dev.dieState_resetAll powerOn cause i, rfl, rfl, rfl, rfl, rfl, rfl, rfl, rfl, rfl,
    c.mg_packageReset powerOn cause, rfl, h.bias, c.dev.cause_resetAll powerOn hc, h.fuses, h.flash, fun p hp => ?_⟩
  cases p with
  | pending => rfl
  | fuses => exact h.fuses
  | flash => exact h.flash
  | tick => exact h.tick
  | freeCtr => exact h.freeCtr
  | out => exact h.out
  | _ => exact absurd hp (by decide)

theorem poweredOn_packageReset {s : State} {c : Chip} (h : s.chip.SameHeld c) :
    PoweredOn s (s.settledOn (c.packageReset true 0)) :=
  ⟨packageWiped_packageReset h true (by decide), c.dev.resetAll_regs_powerOn, rfl⟩

theorem retentionHeld_packageReset {s : State} {c : Chip} (hregs : c.dev.regs = s.dev.regs) (hring : c.dev.ev.ring = s.dev.ev.ring)
    (cause : Nat) : RetentionHeld s (s.settledOn (c.packageReset false cause)) := by
  have hrdw : ∀ r u i, c.dev.rdw r u i = s.dev.rdw r u i := fun r u i => by simp only [Dev.rdw, hregs]
  refine ⟨hring, (c.dev.rdw_resetAll_ring cause).trans (hrdw _ _ _), fun hrise r u i _ _ hb hr => ?_⟩
  exact (c.dev.rdw_resetAll_word (hregs ▸ hrise) cause u i hb hr).trans (by rw [hrdw])

-- Resets by the supplies --------------------------------------------------------------------------------------------------------------

/-- The module with another state of its supplies. -/
def Chip.withPower (c : Chip) (pw : PwrState) : Chip := c.on fun d => { d with pw := pw }

theorem Chip.sameHeld_withPower (c : Chip) (pw : PwrState) : c.SameHeld (c.withPower pw) := ⟨rfl, rfl, rfl, rfl, rfl, rfl⟩

theorem Chip.supplyReset_of_aux {c : Chip} (h : 7 ∈ c.dev.pw.rails) (cause : Nat) : c.supplyReset cause = c.packageReset true 0 :=
  if_pos (List.contains_iff_mem.mpr h)

theorem Chip.supplyReset_of_not_aux {c : Chip} (h : 7 ∉ c.dev.pw.rails) (cause : Nat) :
    c.supplyReset cause = c.packageReset false cause :=
  if_neg (mt List.contains_iff_mem.mp h)

/-- A reset leaves what the supplies show (R439, R441). -/
theorem Chip.supplyReset_pw (c : Chip) (cause : Nat) :
    (c.supplyReset cause).dev.pw.rails = c.dev.pw.rails ∧ (c.supplyReset cause).dev.pw.good = c.dev.pw.good := by
  unfold Chip.supplyReset
  split <;> exact ⟨rfl, rfl⟩

theorem supplyReset_withPower (s : State) {pw : PwrState} (h7 : 7 ∈ pw.rails ↔ 7 ∈ s.dev.pw.rails) {cause : Nat} (hc : cause < 8) :
    SupplyReset s (s.settledOn ((s.chip.withPower pw).supplyReset cause)) cause := by
  have held := s.chip.sameHeld_withPower pw
  constructor
  · intro hn
    rw [Chip.supplyReset_of_not_aux (mt h7.mp hn)]
    exact ⟨packageWiped_packageReset held false hc, retentionHeld_packageReset rfl rfl cause⟩
  · intro h
    rw [Chip.supplyReset_of_aux (h7.mpr h)]
    exact poweredOn_packageReset held

theorem pw_supplyReset_withPower (s : State) (pw : PwrState) (cause : Nat) :
    let t := s.settledOn ((s.chip.withPower pw).supplyReset cause)
    t.dev.pw.rails = pw.rails ∧ t.dev.pw.good = pw.good := by
  dsimp only [State.settledOn, State.dev]
  rw [Chip.settled_pw]
  exact Chip.supplyReset_pw _ cause

/-- The supplies with a rail out of its range. -/
def PwrState.drop (pw : PwrState) (rail : Nat) : PwrState := { pw with rails := pw.rails.filter (· != rail) ++ [rail] }

theorem PwrState.mem_drop_rails (pw : PwrState) (rail k : Nat) : k ∈ (pw.drop rail).rails ↔ k ∈ pw.rails ∨ k = rail := by
  by_cases h : k = rail <;> simp [PwrState.drop, h]

theorem PwrState.mem_drop_rails_ne (pw : PwrState) {rail k : Nat} (h : k ≠ rail) : k ∈ (pw.drop rail).rails ↔ k ∈ pw.rails := by
  simp [pw.mem_drop_rails, h]

theorem Chip.railFault_eq (c : Chip) (rail : Nat) : c.railFault rail =
    if rail = 7 || c.dev.pw.good then (c.withPower (c.dev.pw.drop rail)).supplyReset 5 else c.withPower (c.dev.pw.drop rail) := rfl

theorem Chip.supplyFault_eq (c : Chip) : c.supplyFault =
    if c.dev.pw.good then (c.withPower (c.dev.pw.drop 0)).supplyReset 5 else c.withPower (c.dev.pw.drop 0) := rfl

theorem Chip.powerGoodLoss_eq {c : Chip} (h : c.dev.pw.good = true) :
    c.powerGoodLoss = (c.withPower { c.dev.pw with good := false }).supplyReset 0 := by
  rw [Chip.powerGoodLoss, h]; rfl

/-- With a rail other than VDD_AUX out of range while PWRGOOD is high, the supplies reset the device. -/
theorem railDrop_resets (s : State) {rail : Nat} (h7 : rail ≠ 7) :
    let t := s.settledOn ((s.chip.withPower (s.dev.pw.drop rail)).supplyReset 5)
    SupplyReset s t 5 ∧ rail ∈ t.dev.pw.rails := by
  refine ⟨supplyReset_withPower s (s.dev.pw.mem_drop_rails_ne h7.symm) (by decide), ?_⟩
  rw [(pw_supplyReset_withPower s _ 5).1]
  exact (s.dev.pw.mem_drop_rails rail rail).mpr (.inr rfl)

/-- With PWRGOOD low it is only noted. -/
theorem railDrop_noted (s : State) (pw : PwrState) :
    (s.settledOn (s.chip.withPower pw)).dev.pw = pw ∧ KeepsBut [.pw, .quiesced] s (s.settledOn (s.chip.withPower pw)) := by
  refine ⟨rfl, fun p hp => ?_⟩
  cases p with
  | pw | quiesced => exact absurd hp (by decide)
  | _ => rfl

-- Errors logged while the hub is in reset ---------------------------------------------------------------------------------------------

/-- The error ring of `a` stands in `b`, and the hub runs in both or in neither. -/
def Dev.SameRing (a b : Dev) : Prop := b.ev.ring = a.ev.ring ∧ b.hubRuns = a.hubRuns

theorem Dev.SameRing.trans {a b c : Dev} (h : a.SameRing b) (k : b.SameRing c) : a.SameRing c :=
  ⟨k.1.trans h.1, k.2.trans h.2⟩

/-- Whether the hub runs is read from HUB_STRAP. -/
theorem Dev.sameRing_of_sameRegs {a b : Dev} {l : List Reg} (hl : Reg.HUB_STRAP ∉ l) (hr : SameRegs l a.regs b.regs)
    (hring : b.ev.ring = a.ev.ring) : a.SameRing b := by
  refine ⟨hring, ?_⟩
  simp only [Dev.hubRuns, Dev.dieState, Dev.rd, fldGet, hr _ _ _ hl]

theorem Dev.sameRing_of_regs {a b : Dev} (hr : b.regs = a.regs) (hring : b.ev.ring = a.ev.ring) : a.SameRing b :=
  Dev.sameRing_of_sameRegs (l := []) List.not_mem_nil (by rw [hr]; exact SameRegs.rfl' [] _) hring

theorem Dev.sameRing_latchErr (d : Dev) (b : ErrBlk) (u code : Nat) (detail : Word) : d.SameRing (d.latchErr b u code detail) := by
  refine Dev.sameRing_of_sameRegs (by cases b <;> decide) (sameRegs_latchErr d b u code detail) ?_
  unfold Dev.latchErr
  dsimp only
  repeat' split
  all_goals rfl

theorem Dev.sameRing_cntPC (d : Dev) (c : CntSet) (ev : Nat) (port cls : Option Nat) (n : Nat) :
    d.SameRing (d.cntPC c ev port cls n) :=
  Dev.sameRing_of_sameRegs (by decide) (sameRegs_cntPC d c ev port cls n) (by simp)

theorem Dev.sameRing_evtCnt (d : Dev) (b : ErrBlk) (u k : Nat) : d.SameRing (d.evtCnt b u k) :=
  Dev.sameRing_of_sameRegs (by decide) (sameRegs_evtAt d b u k none none 1) (by simp)

theorem Dev.sameRing_holdRec (d : Dev) (unit : Nat) (isErr : Bool) (r : EvRec) : d.SameRing (d.holdRec unit isErr r) := by
  unfold Dev.holdRec
  dsimp only
  split
  · exact Dev.sameRing_of_regs rfl rfl
  · have hlost : d.SameRing { d with ev := { d.ev with lost := d.ev.lost + 1, lostErr := d.ev.lostErr + b2n isErr } } :=
      Dev.sameRing_of_regs rfl rfl
    split
    · exact hlost
    · split
      · exact hlost.trans (Dev.sameRing_evtCnt ..)
      · split
        · exact hlost.trans (Dev.sameRing_evtCnt ..)
        · exact hlost

theorem Dev.hears_of_hub_down {d : Dev} (h : d.hubRuns = false) (unit : Nat) : d.hears unit = false := by
  simp [Dev.hears, Dev.attached, h]

/-- A record that the hub cannot take is held or lost: the error ring stays. -/
theorem Dev.sameRing_recordErr {d e : Dev} (h : d.hubRuns = false) (he : d.SameRing e) (hold u blk inst code : Nat) (r : EvRec)
    (c : Concern) (errs : Word × Word) : d.SameRing (e.recordErr hold u blk inst code r c errs) := by
  have hheld := he.trans (e.sameRing_holdRec hold true { r with e1 := wmk [(63, 32, e.hallNs u)] })
  have hdown := hears_of_hub_down (hheld.2.trans h) hold
  simp only [Dev.recordErr, hears_of_hub_down (he.2.trans h), Dev.flight, hdown, Bool.false_eq_true, if_false]
  split
  · exact hheld.trans (Dev.sameRing_of_regs rfl rfl)
  · exact hheld

theorem Dev.sameRing_logErr {d : Dev} (h : d.hubRuns = false) (b : ErrBlk) (u code : Nat) (detail : Word) :
    d.SameRing (d.logErr b u code detail) := by
  have hlatch := (d.sameRing_latchErr b u code detail).trans
    (Dev.sameRing_cntPC _ (b.set u) (0x300 + code) (b.errPort code detail) none 1)
  unfold Dev.logErr Dev.logErrC
  dsimp only
  split
  · exact hlatch
  · refine Dev.sameRing_recordErr h ?_ ..
    split
    · exact hlatch.trans (Dev.sameRing_of_regs rfl rfl)
    · exact hlatch

/-- The two errors that a timer's end logs (R315). -/
def Dev.logTimeout (d : Dev) (die : Nat) : Dev := (d.logErr .D2D die 6 0).logErr .HUB 0 6 (wmk [(4, 0, die)])

theorem Chip.headlessTimeout_eq {c : Chip} {die : Nat} (h : c.dev.dieState die = 4) :
    c.headlessTimeout die = (c.on fun d => d.logTimeout die).packageReset false 3 := by
  rw [Chip.headlessTimeout, if_neg (by simp [h])]; rfl

theorem Dev.sameRing_logTimeout {d : Dev} (h : d.hubRuns = false) (die : Nat) : d.SameRing (d.logTimeout die) := by
  have hfirst := Dev.sameRing_logErr h .D2D die 6 0
  exact hfirst.trans (Dev.sameRing_logErr (hfirst.2.trans h) ..)

theorem Chip.sameHeld_logTimeout (c : Chip) (die : Nat) : c.SameHeld (c.on fun d => d.logTimeout die) := by
  constructor <;> simp [Dev.logTimeout]

-- The commands ------------------------------------------------------------------------------------------------------------------------

theorem exec_supplyFaultReset (s : State) : exec .supplyFaultReset s = .next (s.settledOn s.chip.supplyFault) := rfl
theorem exec_railFault (rail : RailId) (s : State) : exec (.railFault rail) s = .next (s.settledOn (s.chip.railFault rail.val)) := rfl
theorem exec_powerGoodLoss (s : State) : exec .powerGoodLoss s = .next (s.settledOn s.chip.powerGoodLoss) := rfl
theorem exec_headlessTimeout (die : DieId) (s : State) :
    exec (.headlessTimeout die) s = .next (s.settledOn (s.chip.headlessTimeout die.val)) := rfl

theorem supplyFaultReset_resets {s : State} (h : s.dev.pw.good = true) :
    ∃ t, exec .supplyFaultReset s = .next t ∧ SupplyReset s t 5 ∧ 0 ∈ t.dev.pw.rails := by
  rw [exec_supplyFaultReset, Chip.supplyFault_eq, if_pos h]
  exact ⟨_, rfl, railDrop_resets s (by decide)⟩

theorem supplyFaultReset_noted {s : State} (h : s.dev.pw.good = false) :
    ∃ t, exec .supplyFaultReset s = .next t ∧ t.dev.pw = s.dev.pw.drop 0 ∧ KeepsBut [.pw, .quiesced] s t := by
  rw [exec_supplyFaultReset, Chip.supplyFault_eq, if_neg (by simp [h])]
  exact ⟨_, rfl, railDrop_noted s _⟩

theorem railFault_resets {s : State} {rail : RailId} (h7 : rail.val ≠ 7) (h : s.dev.pw.good = true) :
    ∃ t, exec (.railFault rail) s = .next t ∧ SupplyReset s t 5 ∧ rail.val ∈ t.dev.pw.rails := by
  rw [exec_railFault, Chip.railFault_eq, if_pos (by simp [h])]
  exact ⟨_, rfl, railDrop_resets s h7⟩

theorem railFault_noted {s : State} {rail : RailId} (h7 : rail.val ≠ 7) (h : s.dev.pw.good = false) :
    ∃ t, exec (.railFault rail) s = .next t ∧ t.dev.pw = s.dev.pw.drop rail.val ∧ KeepsBut [.pw, .quiesced] s t := by
  rw [exec_railFault, Chip.railFault_eq, if_neg (by simp [h, h7])]
  exact ⟨_, rfl, railDrop_noted s _⟩

/-- The loss of VDD_AUX is a power-on reset, whatever PWRGOOD (R11). -/
theorem railFault_aux (s : State) {rail : RailId} (h7 : rail.val = 7) : ∃ t, exec (.railFault rail) s = .next t ∧ PoweredOn s t := by
  rw [exec_railFault, Chip.railFault_eq, if_pos (by simp [h7]),
    Chip.supplyReset_of_aux ((s.dev.pw.mem_drop_rails rail.val 7).mpr (.inr h7.symm))]
  exact ⟨_, rfl, poweredOn_packageReset (s.chip.sameHeld_withPower _)⟩

theorem powerGoodLoss_resets {s : State} (h : s.dev.pw.good = true) :
    ∃ t, exec .powerGoodLoss s = .next t ∧ SupplyReset s t 0 ∧ t.dev.pw.good = false := by
  rw [exec_powerGoodLoss, Chip.powerGoodLoss_eq h]
  exact ⟨_, rfl, supplyReset_withPower s (pw := { s.dev.pw with good := false }) Iff.rfl (by decide),
    (pw_supplyReset_withPower s { s.dev.pw with good := false } 0).2⟩

theorem headlessTimeout_resets {s : State} {die : DieId} (hd : s.dev.dieState die.val = 4) (hh : s.dev.hubRuns = false) :
    ∃ t, exec (.headlessTimeout die) s = .next t ∧ PackageWiped s t 3 ∧ t.dev.ev.ring = s.dev.ev.ring := by
  rw [exec_headlessTimeout, Chip.headlessTimeout_eq hd]
  exact ⟨_, rfl, packageWiped_packageReset (s.chip.sameHeld_logTimeout die.val) false (by decide),
    (Dev.sameRing_logTimeout hh die.val).1⟩

/-- Settles O49: each command changes the supplies or logs errors, which keep all that a reset leaves, and then resets the package. -/
theorem packageResets : Obligations.PackageResets := by
  intro s
  exact ⟨supplyFaultReset_resets, fun _ => railFault_resets, fun _ => railFault_aux s, fun _ => railFault_noted, powerGoodLoss_resets,
    fun _ => headlessTimeout_resets, supplyFaultReset_noted⟩

end Sys2Proof.Machine
end

section
/-! PROOF. The state after a command, and what an event raised or an error logged leaves of the registers. -/

namespace Sys2Proof.Machine

/-- The device after a command: what its effect leaves, with the blocks that report quiesced brought up to date (R349). -/
@[simp] theorem State.after_dev (s : State) (f : Dev → Dev) : (s.after f).dev = (f s.dev).requiesce := rfl

@[simp] theorem State.after_around (s : State) (f : Dev → Dev) :
    (s.after f).pending = s.pending ∧ (s.after f).chip.fuses = s.chip.fuses ∧ (s.after f).chip.flash = s.chip.flash ∧
    (s.after f).chip.pend = s.chip.pend := ⟨rfl, rfl, rfl, rfl⟩

/-- The state after an effect depends on the device that the effect leaves alone. -/
theorem State.after_eq {s : State} {f : Dev → Dev} {e : Dev} (h : f s.dev = e) : s.after f = s.after fun _ => e := by
  simp only [State.after, Chip.on, h]

/-- A device that a command leaves as it was. -/
theorem keepsBut_after_of_eq {s : State} {f : Dev → Dev} (h : f s.dev = s.dev) : KeepsBut [.quiesced] s (s.after f) := by
  intro p hp
  cases p with
  | quiesced => exact absurd hp (by decide)
  | _ => simp [Part.same, h]

/-- Fields of registers outside those that changed read as before. -/
theorem Dev.rd_of_sameRegs {a b : Dev} {l : List Reg} (h : SameRegs l a.regs b.regs) {f : Fld} (hf : f.reg ∉ l) (u i : Nat) :
    b.rd f u i = a.rd f u i := by
  simp only [Dev.rd, fldGet, h _ _ _ hf]

theorem sameRegs_wr (d : Dev) (f : Fld) (u i v : Nat) : SameRegs [f.reg] d.regs (d.wr f u i v).regs := sameRegs_fldPut _ _ _ _ _

theorem sameRegs_pwr (d : Dev) (f : Fld) (lane v : Nat) : SameRegs [f.reg] d.regs (d.pwr f lane v).regs := sameRegs_fldPut _ _ _ _ _

theorem sameRegs_pinc (d : Dev) (f : Fld) (lane n : Nat) : SameRegs [f.reg] d.regs (d.pinc f lane n).regs := sameRegs_fldPut _ _ _ _ _

/-- A list threaded through an operation changes the registers that each step changes. -/
theorem Dev.sameRegs_each {α : Type} {l : List Reg} {f : Dev → α → Dev} (h : ∀ d x, SameRegs l d.regs (f d x).regs) (d : Dev)
    (xs : List α) : SameRegs l d.regs (d.each xs f).regs := by
  induction xs generalizing d with
  | nil => exact SameRegs.rfl' l d.regs
  | cons x xs ih => exact (h d x).trans (ih (f d x))

/-- The registers that a lost record writes: those of the stores of the engines and the bypass dies. -/
def lossRegs : List Reg := [.OE_EVT_CNT, .BYP_EVT_CNT, .CNT_VAL, .CNT_CTRL]

/-- Counting an event of block OE writes its own register and the programmable counters. -/
theorem sameRegs_evtCnt_OE (d : Dev) (u k : Nat) : SameRegs lossRegs d.regs (d.evtCnt .OE u k).regs :=
  ((sameRegs_fldPut d.regs F.OE_EVT_CNT_events u k _).weaken (by decide)).trans
    ((sameRegs_cntPC (d.inc F.OE_EVT_CNT_events u k 1) _ _ _ _ _).weaken (by decide))

theorem sameRegs_evtCnt_BYP (d : Dev) (u k : Nat) : SameRegs lossRegs d.regs (d.evtCnt .BYP u k).regs :=
  ((sameRegs_fldPut d.regs F.BYP_EVT_CNT_events u k _).weaken (by decide)).trans
    ((sameRegs_cntPC (d.inc F.BYP_EVT_CNT_events u k 1) _ _ _ _ _).weaken (by decide))

theorem sameRegs_holdRec (d : Dev) (unit : Nat) (isErr : Bool) (r : EvRec) :
    SameRegs lossRegs d.regs (d.holdRec unit isErr r).regs := by
  unfold Dev.holdRec
  dsimp only
  split
  · exact SameRegs.rfl' _ _
  · split
    · exact SameRegs.rfl' _ _
    · split
      · exact sameRegs_evtCnt_OE _ _ _
      · split
        · exact sameRegs_evtCnt_BYP _ _ _
        · exact SameRegs.rfl' _ _

theorem sameRegs_raiseRec (d : Dev) (unit : Nat) (isErr : Bool) (e0 e2 e3 : Word) :
    SameRegs lossRegs d.regs (d.raiseRec unit isErr e0 e2 e3).regs := by
  unfold Dev.raiseRec
  generalize (if d.hubRuns = true then unit else d.holder unit) = u
  dsimp only
  split
  · exact SameRegs.rfl' _ _
  · exact sameRegs_holdRec _ _ _ _

theorem sameRegs_event (d : Dev) (b : ErrBlk) (inst code : Nat) (e2 e3 : Word) :
    SameRegs lossRegs d.regs (d.event b inst code e2 e3).regs := sameRegs_raiseRec _ _ _ _ _ _

-- What an error that is logged leaves (R408) -------------------------------------------------------------------------------------------

/-- The registers that recording an error writes, beside those of its block. -/
def recordRegs : List Reg :=
  [.CNT_VAL, .CNT_CTRL, .HUB_ERING_STAT, .MEM_FR_STAT, .HUB_INJ_CTRL, .HUB_INJ_STAT, .OE_EVT_CNT, .BYP_EVT_CNT]

theorem SameRegs.wr {l : List Reg} {m : RegFile} {d : Dev} (h : SameRegs l m d.regs) {f : Fld} (hf : f.reg ∈ l) (u i v : Nat) :
    SameRegs l m (d.wr f u i v).regs :=
  h.trans ((sameRegs_wr d f u i v).weaken (by simpa using hf))

theorem SameRegs.inc {l : List Reg} {m : RegFile} {d : Dev} (h : SameRegs l m d.regs) {f : Fld} (hf : f.reg ∈ l) (u i n : Nat) :
    SameRegs l m (d.inc f u i n).regs :=
  h.wr hf u i _

theorem SameRegs.cntPC {l : List Reg} {m : RegFile} {d : Dev} (h : SameRegs l m d.regs) (hl : ∀ r ∈ [Reg.CNT_VAL, .CNT_CTRL], r ∈ l)
    (c : CntSet) (ev : Nat) (port cls : Option Nat) (n : Nat) : SameRegs l m (d.cntPC c ev port cls n).regs :=
  h.trans ((sameRegs_cntPC d c ev port cls n).weaken hl)

theorem sameRegs_injectHit (d : Dev) (target die words : Nat) :
    SameRegs [.HUB_INJ_CTRL, .HUB_INJ_STAT] d.regs (d.injectHit target die words).1.regs := by
  unfold Dev.injectHit
  split
  · have hcounted := fun left done => ((SameRegs.rfl' [.HUB_INJ_CTRL, .HUB_INJ_STAT] d.regs).wr
      (f := F.HUB_INJ_STAT_remaining) (by decide) 0 0 left).inc (f := F.HUB_INJ_STAT_done) (by decide) 0 0 done
    dsimp only
    split
    · exact (hcounted _ _).wr (by decide) _ _ _
    · exact hcounted _ _
  · exact SameRegs.rfl' _ _

theorem sameRegs_flightWrite (d : Dev) (x : FlightTrig) : SameRegs recordRegs d.regs (d.flightWrite x).regs := by
  unfold Dev.flightWrite
  split
  · exact SameRegs.rfl' _ _
  · extract_lets ws head counted hit struck events entered
    have hcounted : SameRegs recordRegs d.regs counted.regs := by
      simp only [counted]
      split
      · exact (SameRegs.rfl' _ _).inc (by decide) _ _ _
      · exact SameRegs.rfl' _ _
    have hwritten := hcounted.trans ((sameRegs_injectHit counted 8 0 4).weaken (by decide))
    exact SameRegs.cntPC (SameRegs.wr (d := entered) hwritten (by decide) _ _ _) (by decide) _ _ _ _ _

theorem sameRegs_flight (d : Dev) (trigger blk inst code u hold : Nat) (f2 : Word) (c : Concern) (errs : Word × Word)
    (lich : List Word) : SameRegs recordRegs d.regs (d.flight trigger blk inst code u hold f2 c errs lich).regs := by
  unfold Dev.flight
  dsimp only
  split
  · exact sameRegs_flightWrite _ _
  · exact SameRegs.rfl' _ _

theorem sameRegs_ringEnter (d : Dev) (r : EvRec) : SameRegs recordRegs d.regs (d.ringEnter r).regs := by
  unfold Dev.ringEnter
  extract_lets head held entry events entered headed counted
  have hheaded : SameRegs recordRegs d.regs headed.regs := SameRegs.wr (d := entered) (SameRegs.rfl' _ d.regs) (by decide) _ _ _
  refine SameRegs.cntPC ?_ (by decide) _ _ _ _ _
  simp only [counted]
  split
  · exact hheaded.wr (by decide) _ _ _
  · exact hheaded.inc (by decide) _ _ _

theorem sameRegs_recordErr (d : Dev) (hold u blk inst code : Nat) (r : EvRec) (c : Concern) (errs : Word × Word) :
    SameRegs recordRegs d.regs (d.recordErr hold u blk inst code r c errs).regs := by
  have hheld := fun r => (sameRegs_holdRec d hold true r).weaken (l' := recordRegs) (by decide)
  unfold Dev.recordErr
  dsimp only
  split
  · refine SameRegs.trans ?_ (sameRegs_flight _ _ _ _ _ _ _ _ _ _ _)
    exact sameRegs_ringEnter d _
  · split
    · exact SameRegs.trans (hheld _) (sameRegs_flight _ _ _ _ _ _ _ _ _ _ _)
    · exact hheld _

/-- What follows the latching of an error leaves the registers of its block. -/
theorem sameRegs_logErr_latchErr (d : Dev) (b : ErrBlk) (u code : Nat) (detail : Word) :
    SameRegs recordRegs (d.latchErr b u code detail).regs (d.logErr b u code detail).regs := by
  have hcnt := (SameRegs.rfl' recordRegs (d.latchErr b u code detail).regs).cntPC (by decide) (b.set u) (0x300 + code)
    (b.errPort code detail) none 1
  unfold Dev.logErr Dev.logErrC
  dsimp only
  split
  · exact hcnt
  · refine SameRegs.trans ?_ (sameRegs_recordErr _ _ _ _ _ _ _ _ _)
    split
    · exact hcnt
    · exact hcnt

theorem fget_bit (w : Word) (n : Nat) : fget w n n = (wbit w n).toNat := by
  simp [fget, wbit, BitVec.getLsbD, Nat.toNat_testBit, Nat.shiftRight_eq_div_pow]

theorem wbit_wset_same (w : Word) {n : Nat} (h : n < 64) : wbit (wset w n true) n = true := by
  rw [wbit, wset, getLsbD_fput _ _ _ _ _ h]
  simp

theorem fget_errWord_valid (code : Nat) (detail : Word) : fget (errWord code detail) 63 63 = 1 := fget_fput_same _ _ (by decide)

theorem fget_errWord_code {code : Nat} (h : code < 256) (detail : Word) : fget (errWord code detail) 55 48 = code := by
  rw [errWord, fget_fput_disj _ _ (by decide) (by decide), fget_fput_same _ _ (by decide)]
  exact Nat.mod_eq_of_lt h

theorem ErrBlk.regs_ne (b : ErrBlk) : b.first ≠ b.next ∧ b.count ≠ b.first ∧ b.count ≠ b.next := by cases b <;> decide

theorem ErrBlk.regs_not_recordRegs (b : ErrBlk) : b.first ∉ recordRegs ∧ b.next ∉ recordRegs ∧ b.count ∉ recordRegs := by
  cases b <;> decide

/-- A counted field, which stops at its largest value. -/
theorem Dev.rd_inc_same (d : Dev) (f : Fld) (u i n : Nat) (h : f.hi < 64) : (d.inc f u i n).rd f u i = Nat.min f.max (d.rd f u i + n) := by
  refine (fldGet_fldPut_same _ _ _ _ _ h).trans (Nat.mod_eq_of_lt ?_)
  exact Nat.lt_of_le_of_lt (Nat.min_le_left _ _) (Nat.sub_lt (Nat.two_pow_pos _) Nat.one_pos)

/-- Latching counts the error, and then writes the block's first or next errors. -/
theorem sameRegs_inc_latchErr (d : Dev) (b : ErrBlk) (u code : Nat) (detail : Word) :
    SameRegs [b.first, b.next] (d.inc ⟨b.count, 31, 0⟩ u 0 1).regs (d.latchErr b u code detail).regs := by
  have hfirst := fun m w => (sameRegs_rset m b.first u 0 w).weaken (l' := [b.first, b.next]) (by simp)
  have hnext := fun m w => (sameRegs_rset m b.next u 0 w).weaken (l' := [b.first, b.next]) (by simp)
  unfold Dev.latchErr
  dsimp only
  split
  · exact hfirst _ _
  · split
    · exact (hfirst _ _).trans (hnext _ _)
    · exact hnext _ _

theorem Dev.rd_count_latchErr (d : Dev) (b : ErrBlk) (u code : Nat) (detail : Word) :
    (d.latchErr b u code detail).rd ⟨b.count, 31, 0⟩ u 0 = Nat.min (Fld.max ⟨b.count, 31, 0⟩) (d.rd ⟨b.count, 31, 0⟩ u 0 + 1) := by
  obtain ⟨-, hfirst, hnext⟩ := b.regs_ne
  rw [Dev.rd_of_sameRegs (sameRegs_inc_latchErr d b u code detail) (by simp [hfirst, hnext])]
  exact d.rd_inc_same _ u 0 1 (show 31 < 64 by decide)

/-- An error that is latched stands in ERR_FIRST, or is a bit of ERR_NEXT beside the one that stands there. -/
theorem Dev.latchErr_cases (d : Dev) (b : ErrBlk) (u code : Nat) (detail : Word) :
    (d.latchErr b u code detail).rdw b.first u 0 = errWord code detail ∨
    wbit ((d.latchErr b u code detail).rdw b.first u 0) 63 = true ∧
      ∃ w, (d.latchErr b u code detail).rdw b.next u 0 = wset w code true := by
  obtain ⟨hne, -, -⟩ := b.regs_ne
  unfold Dev.latchErr
  extract_lets counted old events
  split
  · exact .inl (Dev.rdw_wrw_same _ _ _ _ _)
  next hvalid =>
    split
    · refine .inl ?_
      rw [Dev.rdw_wrw_ne_reg _ _ _ _ _ _ hne, Dev.rdw_wrw_same]
    · refine .inr ⟨?_, _, Dev.rdw_wrw_same _ _ _ _ _⟩
      rw [Dev.rdw_wrw_ne_reg _ _ _ _ _ _ hne]
      simpa [old] using hvalid

theorem Dev.latched_latchErr (d : Dev) (b : ErrBlk) (u : Nat) {code : Nat} (hc : code < 64) (detail : Word) :
    (d.latchErr b u code detail).rd ⟨b.first, 63, 63⟩ u 0 = 1 ∧
    ((d.latchErr b u code detail).rd ⟨b.first, 55, 48⟩ u 0 = code ∨ wbit ((d.latchErr b u code detail).rdw b.next u 0) code = true) := by
  have hrd : ∀ hi lo, (d.latchErr b u code detail).rd ⟨b.first, hi, lo⟩ u 0 =
    fget ((d.latchErr b u code detail).rdw b.first u 0) hi lo := fun _ _ => rfl
  simp only [hrd]
  obtain h | ⟨hvalid, w, h⟩ := d.latchErr_cases b u code detail
  · rw [h]
    exact ⟨fget_errWord_valid _ _, .inl (fget_errWord_code (by omega) _)⟩
  · rw [fget_bit, hvalid, h]
    exact ⟨rfl, .inr (wbit_wset_same _ hc)⟩

/-- An error that is logged is counted and latched (R408). -/
theorem logged_after_logErr {s : State} {f : Dev → Dev} (b : ErrBlk) (u : Nat) {code : Nat} (hc : code < 64) (detail : Word)
    (hf : (f s.dev).rd ⟨b.count, 31, 0⟩ u 0 = s.dev.rd ⟨b.count, 31, 0⟩ u 0) :
    Logged b u code s (s.after fun d => (f d).logErr b u code detail) := by
  have hregs := sameRegs_logErr_latchErr (f s.dev) b u code detail
  obtain ⟨hfirst, hnext, hcount⟩ := b.regs_not_recordRegs
  obtain ⟨hvalid, hcode⟩ := (f s.dev).latched_latchErr b u hc detail
  refine ⟨?_, ?_, ?_⟩
  · refine (Dev.rd_of_sameRegs hregs hcount u 0).trans ?_
    rw [Dev.rd_count_latchErr, hf]
  · exact (Dev.rd_of_sameRegs hregs hfirst u 0).trans hvalid
  · refine hcode.imp (Dev.rd_of_sameRegs hregs hfirst u 0).trans fun h => ?_
    have hword : (s.after fun d => (f d).logErr b u code detail).dev.rdw b.next u 0 = ((f s.dev).latchErr b u code detail).rdw b.next u 0 :=
      hregs b.next u 0 hnext
    rwa [hword]

end Sys2Proof.Machine
end

section
/-! PROOF. Heartbeats (O22). -/

namespace Sys2Proof.Machine

-- Fields of a port --------------------------------------------------------------------------------------------------------------------

theorem laneDie_lt (port : LaneId) : laneDie port.val < 32 := by
  have := port.isLt
  simp only [laneDie]
  omega

theorem Dev.prd_pwr_same (d : Dev) (f : Fld) (port v : Nat) (h : f.hi < 64) :
    (d.pwr f port v).prd f port = v % 2 ^ (f.hi + 1 - f.lo) := d.rd_wr_same f _ _ v h

/-- A field of a port that shares no bit with the one written stays. -/
theorem Dev.prd_pwr_disj (d : Dev) {f g : Fld} (port : LaneId) (v : Nat) (hg : g.hi < 64) (h : g.hi < f.lo ∨ f.hi < g.lo) :
    (d.pwr f port.val v).prd g port.val = d.prd g port.val :=
  d.rd_wr_disj v (laneDie_lt port) (laneDie_lt port) (by omega) (by omega) hg h

theorem Dev.prd_of_sameRegs {a b : Dev} {l : List Reg} (h : SameRegs l a.regs b.regs) {f : Fld} (hf : f.reg ∉ l) (port : Nat) :
    b.prd f port = a.prd f port := Dev.rd_of_sameRegs h hf _ _

theorem State.prd_after (s : State) (f : Dev → Dev) (g : Fld) (port : Nat) : (s.after f).dev.prd g port = (f s.dev).prd g port := rfl

-- What restoring a port leaves (R396) --------------------------------------------------------------------------------------------------

/-- Two devices differ at most in the registers, the state of the switch and the records. -/
def Dev.SameButRecords (a b : Dev) : Prop := ∃ regs sw ev, b = { a with regs := regs, sw := sw, ev := ev }

theorem Dev.SameButRecords.rfl' (d : Dev) : d.SameButRecords d := ⟨d.regs, d.sw, d.ev, rfl⟩

theorem Dev.SameButRecords.trans {a b c : Dev} (h : a.SameButRecords b) (k : b.SameButRecords c) : a.SameButRecords c := by
  obtain ⟨_, _, _, rfl⟩ := h
  obtain ⟨regs, sw, ev, rfl⟩ := k
  exact ⟨regs, sw, ev, rfl⟩

theorem Dev.sameButRecords_each {α : Type} {f : Dev → α → Dev} (h : ∀ (d : Dev) x, d.SameButRecords (f d x)) (d : Dev) (xs : List α) :
    d.SameButRecords (d.each xs f) := by
  induction xs generalizing d with
  | nil => exact .rfl' d
  | cons x xs ih => exact (h d x).trans (ih (f d x))

theorem Dev.sameButRecords_pwr (d : Dev) (f : Fld) (port v : Nat) : d.SameButRecords (d.pwr f port v) := ⟨_, d.sw, d.ev, rfl⟩

theorem Dev.sameButRecords_cntPC (d : Dev) (c : CntSet) (ev : Nat) (port cls : Option Nat) (n : Nat) :
    d.SameButRecords (d.cntPC c ev port cls n) := by
  unfold Dev.cntPC
  split
  · exact ⟨_, d.sw, d.ev, rfl⟩
  · exact .rfl' d

theorem Dev.sameButRecords_evtCnt (d : Dev) (b : ErrBlk) (u k : Nat) : d.SameButRecords (d.evtCnt b u k) :=
  .trans ⟨_, d.sw, d.ev, rfl⟩ (Dev.sameButRecords_cntPC (d.inc _ u k 1) ..)

theorem Dev.sameButRecords_holdRec (d : Dev) (unit : Nat) (isErr : Bool) (r : EvRec) : d.SameButRecords (d.holdRec unit isErr r) := by
  have lost : d.SameButRecords { d with ev := { d.ev with lost := d.ev.lost + 1, lostErr := d.ev.lostErr + b2n isErr } } :=
    ⟨d.regs, d.sw, _, rfl⟩
  unfold Dev.holdRec
  dsimp only
  split
  · exact ⟨d.regs, d.sw, _, rfl⟩
  · split
    · exact lost
    · split
      · exact lost.trans (Dev.sameButRecords_evtCnt ..)
      · split
        · exact lost.trans (Dev.sameButRecords_evtCnt ..)
        · exact lost

theorem Dev.sameButRecords_event (d : Dev) (b : ErrBlk) (inst code : Nat) (e2 e3 : Word) :
    d.SameButRecords (d.event b inst code e2 e3) := by
  unfold Dev.event Dev.raiseRec
  generalize (if d.hubRuns = true then b.unit inst else d.holder (b.unit inst)) = u
  dsimp only
  split
  · exact ⟨d.regs, d.sw, _, rfl⟩
  · exact Dev.sameButRecords_holdRec ..

/-- Settling keeps old mappings, which are the switch's. -/
theorem Dev.settle_eq (d : Dev) (die b : Nat) (old : Word) : ∃ sw, d.settle die b old = { d with sw := sw } := by
  unfold Dev.settle
  split
  · exact ⟨d.sw, rfl⟩
  · refine List.foldlRecOn (motive := fun e : Dev => ∃ sw, e = { d with sw := sw }) _ _ ⟨d.sw, rfl⟩ ?_
    rintro _ ⟨sw, rfl⟩ o _
    dsimp only
    split
    · exact ⟨sw, rfl⟩
    · exact ⟨_, rfl⟩

theorem Dev.settlePort_eq (d before : Dev) (port : Nat) : ∃ sw, d.settlePort before port = { d with sw := sw } := by
  refine List.foldlRecOn (motive := fun e : Dev => ∃ sw, e = { d with sw := sw }) _ _ ⟨d.sw, rfl⟩ ?_
  rintro _ ⟨sw, rfl⟩ b _
  obtain ⟨sw₀, h₀⟩ := Dev.settle_eq { d with sw := sw } 0 b (before.selMask 0 b)
  obtain ⟨sw₁, h₁⟩ := Dev.settle_eq { d with sw := sw₀ } 1 b (before.selMask 1 b)
  exact ⟨sw₁, by rw [h₀, h₁]⟩

@[simp] theorem Dev.settlePort_regs (d before : Dev) (port : Nat) : (d.settlePort before port).regs = d.regs := by
  obtain ⟨sw, h⟩ := d.settlePort_eq before port
  rw [h]

theorem Dev.sameButRecords_settlePort (d before : Dev) (port : Nat) : d.SameButRecords (d.settlePort before port) := by
  obtain ⟨sw, h⟩ := d.settlePort_eq before port
  exact ⟨d.regs, sw, d.ev, h⟩

theorem Dev.sameButRecords_reachRecords (d : Dev) (port : Nat) (reach byLink : Bool) :
    d.SameButRecords (d.reachRecords port reach byLink) :=
  (Dev.sameButRecords_each (fun d _ => d.sameButRecords_event ..) d _).trans (Dev.sameButRecords_pwr ..)

theorem Dev.sameButRecords_liveRestore (d : Dev) (port : Nat) : d.SameButRecords (d.liveRestore port) :=
  ((((d.sameButRecords_pwr ..).trans (Dev.sameButRecords_pwr ..)).trans (Dev.sameButRecords_settlePort ..)).trans
    (Dev.sameButRecords_event ..)).trans (Dev.sameButRecords_reachRecords ..)

/-- After its records the port shows how many it did not list. -/
theorem Dev.reachRecords_eq (d : Dev) (port : Nat) (reach byLink : Bool) : ∃ (e : Dev) (n : Nat), SameRegs lossRegs d.regs e.regs ∧
    d.reachRecords port reach byLink = e.pwr F.LANE_LIVE_unlisted port n :=
  ⟨_, _, Dev.sameRegs_each (fun d _ => sameRegs_event d _ _ _ _ _) d _, rfl⟩

/-- The registers of a restored port: removed and streak are cleared, and the unlisted records shown. -/
theorem Dev.liveRestore_eq (d : Dev) (port : Nat) : ∃ (e : Dev) (n : Nat),
    SameRegs lossRegs ((d.pwr F.LANE_LIVE_removed port 0).pwr F.LANE_LIVE_streak port 0).regs e.regs ∧
    d.liveRestore port = e.pwr F.LANE_LIVE_unlisted port n := by
  obtain ⟨e, n, hregs, heq⟩ := Dev.reachRecords_eq _ port true false
  refine ⟨e, n, SameRegs.trans ?_ hregs, heq⟩
  have hsettle := Dev.settlePort_regs ((d.pwr F.LANE_LIVE_removed port 0).pwr F.LANE_LIVE_streak port 0) d port
  exact hsettle ▸ sameRegs_event _ _ _ _ _ _

theorem sameRegs_liveRestore (d : Dev) (port : Nat) : SameRegs (.LANE_LIVE :: lossRegs) d.regs (d.liveRestore port).regs := by
  obtain ⟨e, n, hregs, heq⟩ := d.liveRestore_eq port
  have hcleared := ((sameRegs_pwr d F.LANE_LIVE_removed port 0).trans (sameRegs_pwr _ F.LANE_LIVE_streak port 0)).weaken
    (l' := .LANE_LIVE :: lossRegs) (by decide)
  have hshown := (sameRegs_pwr e F.LANE_LIVE_unlisted port n).weaken (l' := .LANE_LIVE :: lossRegs) (by decide)
  rw [heq]
  exact (hcleared.trans (hregs.weaken (by decide))).trans hshown

theorem Dev.prd_liveRestore_removed (d : Dev) (port : LaneId) : (d.liveRestore port.val).prd F.LANE_LIVE_removed port.val = 0 := by
  obtain ⟨e, n, hregs, heq⟩ := d.liveRestore_eq port.val
  rw [heq, Dev.prd_pwr_disj _ _ _ (by decide) (by decide), Dev.prd_of_sameRegs hregs (by decide),
    Dev.prd_pwr_disj _ _ _ (by decide) (by decide)]
  exact Dev.prd_pwr_same _ _ _ _ (by decide)

theorem Dev.prd_liveRestore_streak (d : Dev) (port : LaneId) : (d.liveRestore port.val).prd F.LANE_LIVE_streak port.val = 0 := by
  obtain ⟨e, n, hregs, heq⟩ := d.liveRestore_eq port.val
  rw [heq, Dev.prd_pwr_disj _ _ _ (by decide) (by decide), Dev.prd_of_sameRegs hregs (by decide)]
  exact Dev.prd_pwr_same _ _ _ _ (by decide)

theorem Dev.prd_liveRestore_misses (d : Dev) (port : LaneId) :
    (d.liveRestore port.val).prd F.LANE_LIVE_misses port.val = d.prd F.LANE_LIVE_misses port.val := by
  obtain ⟨e, n, hregs, heq⟩ := d.liveRestore_eq port.val
  rw [heq, Dev.prd_pwr_disj _ _ _ (by decide) (by decide), Dev.prd_of_sameRegs hregs (by decide),
    Dev.prd_pwr_disj _ _ _ (by decide) (by decide), Dev.prd_pwr_disj _ _ _ (by decide) (by decide)]

-- One answered request ----------------------------------------------------------------------------------------------------------------

theorem Dev.hbGood_of_present {d : Dev} {port : LaneId} (h : d.prd F.LANE_LIVE_removed port.val = 0) :
    d.hbGood port.val = d.pwr F.LANE_LIVE_misses port.val 0 := by
  unfold Dev.hbGood
  dsimp only
  rw [Dev.prd_pwr_disj _ _ _ (by decide) (by decide), if_pos h]

theorem Dev.hbGood_of_removed {d : Dev} {port : LaneId} (h : d.prd F.LANE_LIVE_removed port.val ≠ 0) :
    d.hbGood port.val = if 7 ≤ d.prd F.LANE_LIVE_streak port.val then (d.pwr F.LANE_LIVE_misses port.val 0).liveRestore port.val
      else (d.pwr F.LANE_LIVE_misses port.val 0).pwr F.LANE_LIVE_streak port.val (d.prd F.LANE_LIVE_streak port.val + 1) := by
  unfold Dev.hbGood
  dsimp only
  rw [Dev.prd_pwr_disj _ _ _ (by decide) (by decide), if_neg h, Dev.prd_pwr_disj _ _ _ (by decide) (by decide)]
  simp only [Nat.reduceLeDiff]

/-- An answered request clears the misses, whatever becomes of the streak. -/
theorem Dev.hbGood_cases (d : Dev) (port : LaneId) :
    d.hbGood port.val = d.pwr F.LANE_LIVE_misses port.val 0 ∨
    (∃ n, d.hbGood port.val = (d.pwr F.LANE_LIVE_misses port.val 0).pwr F.LANE_LIVE_streak port.val n) ∨
    d.hbGood port.val = (d.pwr F.LANE_LIVE_misses port.val 0).liveRestore port.val := by
  by_cases h : d.prd F.LANE_LIVE_removed port.val = 0
  · exact .inl (Dev.hbGood_of_present h)
  · rw [Dev.hbGood_of_removed h]
    split
    · exact .inr (.inr rfl)
    · exact .inr (.inl ⟨_, rfl⟩)

theorem Dev.sameButRecords_hbGood (d : Dev) (port : LaneId) : d.SameButRecords (d.hbGood port.val) := by
  have hmiss := d.sameButRecords_pwr F.LANE_LIVE_misses port.val 0
  obtain h | ⟨n, h⟩ | h := d.hbGood_cases port <;> rw [h]
  · exact hmiss
  · exact hmiss.trans (Dev.sameButRecords_pwr ..)
  · exact hmiss.trans (Dev.sameButRecords_liveRestore ..)

theorem sameRegs_hbGood (d : Dev) (port : LaneId) : SameRegs (.LANE_LIVE :: lossRegs) d.regs (d.hbGood port.val).regs := by
  have hmiss := (sameRegs_pwr d F.LANE_LIVE_misses port.val 0).weaken (l' := .LANE_LIVE :: lossRegs) (by decide)
  obtain h | ⟨n, h⟩ | h := d.hbGood_cases port <;> rw [h]
  · exact hmiss
  · exact hmiss.trans ((sameRegs_pwr _ _ _ _).weaken (by decide))
  · exact hmiss.trans (sameRegs_liveRestore _ _)

theorem Dev.prd_hbGood_misses (d : Dev) (port : LaneId) : (d.hbGood port.val).prd F.LANE_LIVE_misses port.val = 0 := by
  have hmiss := d.prd_pwr_same F.LANE_LIVE_misses port.val 0 (by decide)
  obtain h | ⟨n, h⟩ | h := d.hbGood_cases port <;> rw [h]
  · exact hmiss
  · exact (Dev.prd_pwr_disj _ _ _ (by decide) (by decide)).trans hmiss
  · exact (Dev.prd_liveRestore_misses _ _).trans hmiss

/-- Judging stops at a request that has no answer yet. -/
theorem Dev.hbJudge_of_waiting {d : Dev} {port : Nat} (h : ∀ r, (smGet d.ln.hb port []).head? = some r → r.answered = false)
    (n : Nat) : d.hbJudge port n = d := by
  cases n with
  | zero => rfl
  | succ n =>
    unfold Dev.hbJudge
    split
    next hq => exact absurd (h _ (by rw [hq]; rfl)) (by simp)
    · rfl

-- The commands ------------------------------------------------------------------------------------------------------------------------

theorem exec_heartbeatRequestSend (port : LaneId) (s : State) :
    exec (.heartbeatRequestSend port) s = .next (s.after fun d => d.hbSend port.val) := rfl
theorem exec_heartbeatRequestReceive (port : LaneId) (seq stamp : BitVec 32) (s : State) :
    exec (.heartbeatRequestReceive port seq stamp) s = .next (s.after fun d => d.hbRequest port.val seq.toNat stamp.toNat) := rfl
theorem exec_heartbeatAnswerReceive (port : LaneId) (seq stamp hold : BitVec 32) (s : State) :
    exec (.heartbeatAnswerReceive port seq stamp hold) s =
      .next (s.after fun d => d.hbAnswer port.val seq.toNat stamp.toNat hold.toNat) := rfl
theorem exec_heartbeatMiss (port : LaneId) (s : State) :
    exec (.heartbeatMiss port) s = .next (s.after fun d => d.hbMiss port.val) := rfl

/-- A frame of the device depends on the registers by the device's address alone. -/
theorem Dev.mkLinkFrame_eq {a b : Dev} (hc : b.freeCtr = a.freeCtr) {l : List Reg} (h : SameRegs l a.regs b.regs)
    (hl : Reg.FWD_DEV_DFID ∉ l) (die ftype : Nat) (pay : List Byte) : b.mkLinkFrame die ftype pay = a.mkLinkFrame die ftype pay := by
  simp only [Dev.mkLinkFrame, Dev.freeSeq, Dev.freeW3, hc, Dev.rd_of_sameRegs h (f := F.FWD_DEV_DFID_dfid) hl]

/-- The device after a heartbeat request with sequence `seq` is sent. -/
def Dev.requested (d : Dev) (port seq : Nat) : Dev :=
  { d.pwr F.LANE_HB_STAT_sequence port seq with
    freeCtr := d.freeCtr + 1
    ln := { d.ln with hb := smInsert d.ln.hb port (smGet d.ln.hb port [] ++ [⟨seq, false⟩]),
                      ctl := d.ln.ctl ++ [⟨port, d.mkLinkFrame (laneDie port) 8
                        (wordsPay [BitVec.ofNat 64 seq, wmk [(63, 32, d.ticksOf (laneDie port))]]), d.tick⟩] } }

theorem Dev.hbSend_eq {d : Dev} {port : Nat} (hp : d.isPort port = true) (hu : d.linkUp port = true)
    (hr : d.dieRuns (laneDie port) = true) :
    d.hbSend port = d.requested port ((d.prd F.LANE_HB_STAT_sequence port + 1) % 2 ^ 32) := by
  have hframe := fun seq => Dev.mkLinkFrame_eq (a := d) (b := d.pwr F.LANE_HB_STAT_sequence port seq) rfl
    (sameRegs_pwr d F.LANE_HB_STAT_sequence port seq) (by decide)
  unfold Dev.hbSend Dev.requested
  rw [if_neg (by simp [hp, hu, hr]), ← hframe]
  rfl

theorem requested_effect (s : State) (port : LaneId) {seq : Nat} (hs : seq < 2 ^ 32) :
    let t := s.after fun _ => s.dev.requested port.val seq
    t.dev.prd F.LANE_HB_STAT_sequence port.val = seq ∧ t.dev.ln = (s.dev.requested port.val seq).ln ∧
      RegsKeptBut [.LANE_HB_STAT] s t ∧ KeepsBut [.regs, .ln, .freeCtr, .quiesced] s t := by
  refine ⟨?_, rfl, sameRegs_pwr s.dev F.LANE_HB_STAT_sequence port.val seq, fun p hp => ?_⟩
  · exact (s.dev.prd_pwr_same F.LANE_HB_STAT_sequence port.val seq (by decide)).trans (Nat.mod_eq_of_lt hs)
  · cases p with
    | regs | ln | freeCtr | quiesced => exact absurd hp (by decide)
    | _ => rfl

theorem Dev.hbRequest_of_open {d : Dev} {port : Nat} (hu : d.linkUp port = true) (hm : d.prd F.LANE_LIVE_mute port = 0)
    (seq stamp : Nat) : d.hbRequest port seq stamp = d.sendCtl port (d.mkLinkFrame (laneDie port) 8
      (wordsPay [wmk [(63, 63, 1), (31, 0, seq)], wmk [(63, 32, stamp)]])) :=
  if_neg (by simp [hu, hm])

theorem Dev.hbRequest_of_muted {d : Dev} {port : Nat} (hm : d.prd F.LANE_LIVE_mute port = 1) (seq stamp : Nat) :
    d.hbRequest port seq stamp = d :=
  if_pos (by simp [hm])

theorem keepsBut_sendCtl (s : State) (port : Nat) (f : Frame) :
    KeepsBut [.ln, .freeCtr, .quiesced] s (s.after fun _ => s.dev.sendCtl port f) := by
  intro p hp
  cases p with
  | ln | freeCtr | quiesced => exact absurd hp (by decide)
  | _ => rfl

/-- The device with the round trip of an answer and the open request, its only one, off the list. -/
def Dev.heard (d : Dev) (port seq rtt : Nat) : Dev :=
  { d.pwr F.LANE_HB_STAT_rtt port (Nat.min 65535 rtt) with
    ln := { d.ln with hb := smSet (smInsert d.ln.hb port [⟨seq, true⟩]) port [] [] } }

theorem Dev.heard_hb (d : Dev) (port seq rtt : Nat) : smGet (d.heard port seq rtt).ln.hb port [] = [] := by
  simp [Dev.heard]

theorem sameRegs_heard (d : Dev) (port seq rtt : Nat) : SameRegs [.LANE_HB_STAT] d.regs (d.heard port seq rtt).regs :=
  sameRegs_pwr d F.LANE_HB_STAT_rtt port _

theorem Dev.hbAnswer_eq {d : Dev} {port seq : Nat} {b : Bool} (hu : d.linkUp port = true)
    (hq : smGet d.ln.hb port [] = [⟨seq, b⟩]) (stamp hold : Nat) : d.hbAnswer port seq stamp hold =
      (d.heard port seq ((d.ticksOf (laneDie port) + 2 ^ 33 - stamp - hold) % 2 ^ 32)).hbGood port := by
  simp [Dev.hbAnswer, Dev.hbJudge, hu, hq, Dev.heard]

theorem Dev.prd_live_heard (d : Dev) (port seq rtt : Nat) {f : Fld} (hf : f.reg = .LANE_LIVE) :
    (d.heard port seq rtt).prd f port = d.prd f port :=
  Dev.prd_of_sameRegs (sameRegs_heard d port seq rtt) (by simp [hf]) port

theorem answered_effect (s : State) (port : LaneId) (seq rtt : Nat) :
    let t := s.after fun _ => (s.dev.heard port.val seq rtt).hbGood port.val
    smGet t.dev.ln.hb port.val [] = [] ∧ t.dev.prd F.LANE_LIVE_misses port.val = 0 ∧
      t.dev.prd F.LANE_HB_STAT_rtt port.val = Nat.min 65535 rtt ∧ KeepsBut [.regs, .ln, .sw, .ev, .quiesced] s t := by
  obtain ⟨regs, sw, ev, h⟩ := (s.dev.heard port.val seq rtt).sameButRecords_hbGood port
  refine ⟨?_, Dev.prd_hbGood_misses _ port, ?_, ?_⟩
  · rw [State.after_eq h]
    exact s.dev.heard_hb port.val seq rtt
  · rw [State.prd_after, Dev.prd_of_sameRegs (sameRegs_hbGood _ port) (by decide)]
    refine (s.dev.prd_pwr_same F.LANE_HB_STAT_rtt port.val _ (by decide)).trans (Nat.mod_eq_of_lt ?_)
    exact Nat.lt_of_le_of_lt (Nat.min_le_left 65535 rtt) (by decide)
  · rw [State.after_eq h]
    intro p hp
    cases p with
    | regs | ln | sw | ev | quiesced => exact absurd hp (by decide)
    | _ => rfl

theorem answered_of_present {s : State} {port : LaneId} (h : s.dev.prd F.LANE_LIVE_removed port.val = 0) (seq rtt : Nat) :
    let t := s.after fun _ => (s.dev.heard port.val seq rtt).hbGood port.val
    RegsKeptBut [.LANE_HB_STAT, .LANE_LIVE] s t ∧ KeepsBut [.regs, .ln, .quiesced] s t := by
  dsimp only
  rw [State.after_eq (Dev.hbGood_of_present ((s.dev.prd_live_heard port.val seq rtt rfl).trans h))]
  refine ⟨?_, fun p hp => ?_⟩
  · have hheard := (sameRegs_heard s.dev port.val seq rtt).weaken (l' := [.LANE_HB_STAT, .LANE_LIVE]) (by decide)
    exact hheard.trans ((sameRegs_pwr _ F.LANE_LIVE_misses port.val 0).weaken (by decide))
  · cases p with
    | regs | ln | quiesced => exact absurd hp (by decide)
    | _ => rfl

theorem answered_of_removed {s : State} {port : LaneId} (h : s.dev.prd F.LANE_LIVE_removed port.val = 1) (seq rtt : Nat) :
    let t := s.after fun _ => (s.dev.heard port.val seq rtt).hbGood port.val
    (s.dev.prd F.LANE_LIVE_streak port.val < 7 → t.dev.prd F.LANE_LIVE_removed port.val = 1 ∧
      t.dev.prd F.LANE_LIVE_streak port.val = s.dev.prd F.LANE_LIVE_streak port.val + 1) ∧
    (7 ≤ s.dev.prd F.LANE_LIVE_streak port.val → t.dev.prd F.LANE_LIVE_removed port.val = 0 ∧
      t.dev.prd F.LANE_LIVE_streak port.val = 0) := by
  have hlive := fun {f : Fld} => s.dev.prd_live_heard port.val seq rtt (f := f)
  have heq := Dev.hbGood_of_removed (d := s.dev.heard port.val seq rtt) (port := port) (by rw [hlive rfl, h]; decide)
  rw [hlive rfl] at heq
  refine ⟨fun hs => ?_, fun hs => ?_⟩
  · rw [State.after_eq (heq.trans (if_neg (Nat.not_le.mpr hs))), State.prd_after, State.prd_after]
    refine ⟨?_, ?_⟩
    · rw [Dev.prd_pwr_disj _ _ _ (by decide) (by decide), Dev.prd_pwr_disj _ _ _ (by decide) (by decide), hlive rfl, h]
    · rw [Dev.prd_pwr_same _ _ _ _ (by decide)]
      exact Nat.mod_eq_of_lt (show _ < 16 by omega)
  · rw [State.after_eq (heq.trans (if_pos hs)), State.prd_after, State.prd_after]
    exact ⟨Dev.prd_liveRestore_removed _ port, Dev.prd_liveRestore_streak _ port⟩

/-- The device with its oldest request, not answered in time, off the list: the miss is counted and the streak ends. -/
def Dev.missed (d : Dev) (port : Nat) (rest : List HbReq) : Dev :=
  ((({ d with ln := { d.ln with hb := smSet d.ln.hb port rest [] } } : Dev).pinc F.LANE_LIVE_misses port 1).pwr
    F.LANE_LIVE_streak port 0).cntPC ⟨laneDie port, 5⟩ 5 (some port) none 1

@[simp] theorem Dev.missed_hb (d : Dev) (port : Nat) (rest : List HbReq) : smGet (d.missed port rest).ln.hb port [] = rest := by
  simp [Dev.missed]

theorem Dev.hbMiss_eq {d : Dev} {port seq : Nat} {rest : List HbReq} (hq : smGet d.ln.hb port [] = ⟨seq, false⟩ :: rest)
    (hrest : ∀ r, rest.head? = some r → r.answered = false) : d.hbMiss port = d.missed port rest := by
  unfold Dev.hbMiss
  rw [hq]
  exact Dev.hbJudge_of_waiting (d := d.missed port rest) (by rwa [Dev.missed_hb]) _

theorem missed_effect (s : State) (port : LaneId) (rest : List HbReq) :
    let t := s.after fun _ => s.dev.missed port.val rest
    smGet t.dev.ln.hb port.val [] = rest ∧
      t.dev.prd F.LANE_LIVE_misses port.val = Nat.min 255 (s.dev.prd F.LANE_LIVE_misses port.val + 1) ∧
      t.dev.prd F.LANE_LIVE_streak port.val = 0 ∧
      t.dev.prd F.LANE_LIVE_removed port.val = s.dev.prd F.LANE_LIVE_removed port.val ∧
      RegsKeptBut [.LANE_LIVE, .CNT_VAL, .CNT_CTRL] s t ∧ KeepsBut [.regs, .ln, .quiesced] s t := by
  have hcnt := fun d : Dev => sameRegs_cntPC d ⟨laneDie port.val, 5⟩ 5 (some port.val) none 1
  refine ⟨s.dev.missed_hb port.val rest, ?_, ?_, ?_, ?_, fun p hp => ?_⟩
  · rw [State.prd_after, Dev.missed, Dev.prd_of_sameRegs (hcnt _) (by decide), Dev.prd_pwr_disj _ _ _ (by decide) (by decide)]
    refine (s.dev.prd_pwr_same F.LANE_LIVE_misses port.val _ (by decide)).trans (Nat.mod_eq_of_lt ?_)
    exact Nat.lt_of_le_of_lt (Nat.min_le_left 255 _) (by decide)
  · rw [State.prd_after, Dev.missed, Dev.prd_of_sameRegs (hcnt _) (by decide)]
    exact Dev.prd_pwr_same _ F.LANE_LIVE_streak _ _ (by decide)
  · rw [State.prd_after, Dev.missed, Dev.prd_of_sameRegs (hcnt _) (by decide), Dev.prd_pwr_disj _ _ _ (by decide) (by decide)]
    exact s.dev.prd_pwr_disj (f := F.LANE_LIVE_misses) port _ (by decide) (by decide)
  · have hlive := ((sameRegs_pinc s.dev F.LANE_LIVE_misses port.val 1).trans (sameRegs_pwr _ F.LANE_LIVE_streak port.val 0)).weaken
      (l' := [.LANE_LIVE, .CNT_VAL, .CNT_CTRL]) (by decide)
    exact hlive.trans ((hcnt _).weaken (by decide))
  · cases p with
    | regs | ln | quiesced => exact absurd hp (by decide)
    | _ => simp [Part.same, Dev.missed]

/-- Settles O22: each command is one effect on the device, by the guards and the open requests; a restored port's records leave its
other registers. -/
theorem heartbeats : Obligations.Heartbeats := by
  intro s port hu
  refine ⟨fun hp hr => ?_, fun seq stamp => ⟨fun hm => ?_, fun hm => ?_⟩, fun seq stamp hold b hq => ?_, fun seq rest hq hrest => ?_⟩
  · rw [exec_heartbeatRequestSend, State.after_eq (Dev.hbSend_eq hp hu hr)]
    exact ⟨_, rfl, requested_effect s port (Nat.mod_lt _ (by decide))⟩
  · rw [exec_heartbeatRequestReceive, State.after_eq (Dev.hbRequest_of_open hu hm seq.toNat stamp.toNat)]
    exact ⟨_, rfl, rfl, keepsBut_sendCtl s port.val _⟩
  · exact ⟨_, exec_heartbeatRequestReceive port seq stamp s, keepsBut_after_of_eq (Dev.hbRequest_of_muted hm _ _)⟩
  · rw [exec_heartbeatAnswerReceive, State.after_eq (Dev.hbAnswer_eq hu hq stamp.toNat hold.toNat)]
    obtain ⟨hempty, hmisses, hrtt, hkept⟩ := answered_effect s port seq.toNat _
    exact ⟨_, rfl, hempty, hmisses, hrtt, fun h => answered_of_present h _ _, fun h => (answered_of_removed h _ _).1,
      fun h => (answered_of_removed h _ _).2, hkept⟩
  · rw [exec_heartbeatMiss, State.after_eq (Dev.hbMiss_eq hq hrest)]
    exact ⟨_, rfl, missed_effect s port rest⟩

end Sys2Proof.Machine
end

section
/-! PROOF. The operations that an activation runs keep the configuration and the tick. -/

namespace Sys2Proof.Machine

-- The switch and the reductions --------------------------------------------------------------------------------------------------------

@[simp] theorem Dev.dropDeadMaps_still (d : Dev) :
    d.dropDeadMaps.cfg = d.cfg ∧ d.dropDeadMaps.tick = d.tick := by
  exact ⟨rfl, rfl⟩

@[simp] theorem Dev.satSweep_still (d : Dev) :
    d.satSweep.cfg = d.cfg ∧ d.satSweep.tick = d.tick := by
  exact ⟨rfl, rfl⟩

@[simp] theorem Dev.settle_still (d : Dev) (die b : Nat) (old : Word) :
    (d.settle die b old).cfg = d.cfg ∧ (d.settle die b old).tick = d.tick := by
  unfold Dev.settle
  split <;> simp

@[simp] theorem Dev.releaseUnits_still (d : Dev) (r : ChunkRec) :
    (d.releaseUnits r).cfg = d.cfg ∧ (d.releaseUnits r).tick = d.tick := by
  exact ⟨rfl, rfl⟩

@[simp] theorem Dev.closeChunk_still (d : Dev) (r : ChunkRec) :
    (d.closeChunk r).cfg = d.cfg ∧ (d.closeChunk r).tick = d.tick := by
  exact ⟨rfl, rfl⟩

@[simp] theorem Dev.putChunk_still (d : Dev) (r : ChunkRec) :
    (d.putChunk r).cfg = d.cfg ∧ (d.putChunk r).tick = d.tick := by
  exact ⟨rfl, rfl⟩

@[simp] theorem Dev.settleChunk_still (d : Dev) (k : ChunkKey) :
    (d.settleChunk k).cfg = d.cfg ∧ (d.settleChunk k).tick = d.tick := by
  unfold Dev.settleChunk
  split <;> simp

@[simp] theorem Dev.copyDone_still (d : Dev) (k : Option ChunkKey) (left : Bool) :
    (d.copyDone k left).cfg = d.cfg ∧ (d.copyDone k left).tick = d.tick := by
  unfold Dev.copyDone
  split
  · simp
  · split <;> simp

@[simp] theorem Dev.admFall_still (d : Dev) (x : Desc) :
    (d.admFall x).cfg = d.cfg ∧ (d.admFall x).tick = d.tick := by
  unfold Dev.admFall
  split <;> simp

@[simp] theorem Dev.owe_still (d : Dev) (port cls n : Nat) :
    (d.owe port cls n).cfg = d.cfg ∧ (d.owe port cls n).tick = d.tick := by
  unfold Dev.owe
  split <;> simp

@[simp] theorem Dev.creditCell_still (d : Dev) (k : Nat) :
    (d.creditCell k).cfg = d.cfg ∧ (d.creditCell k).tick = d.tick := by
  simp [Dev.creditCell]

@[simp] theorem Dev.freeCell_still (d : Dev) (k : Nat) (port cls : Option Nat) :
    (d.freeCell k port cls).cfg = d.cfg ∧ (d.freeCell k port cls).tick = d.tick := by
  unfold Dev.freeCell
  dsimp only
  split <;> simp

@[simp] theorem Dev.unrefCell_still (d : Dev) (k : Nat) (port cls : Option Nat) :
    (d.unrefCell k port cls).cfg = d.cfg ∧ (d.unrefCell k port cls).tick = d.tick := by
  unfold Dev.unrefCell
  split
  · simp
  · split <;> simp

@[simp] theorem Dev.recordDone_still (d : Dev) (die id : Nat) (port cls : Option Nat) :
    (d.recordDone die id port cls).cfg = d.cfg ∧ (d.recordDone die id port cls).tick = d.tick := by
  unfold Dev.recordDone
  split
  · simp
  · split
    · dsimp only
      split <;> simp
    · simp

@[simp] theorem Dev.releaseCells_still (d : Dev) (x : Desc) :
    (d.releaseCells x).cfg = d.cfg ∧ (d.releaseCells x).tick = d.tick := by
  unfold Dev.releaseCells
  split <;> simp

@[simp] theorem Dev.discard_still (d : Dev) (x : Desc) (reason : Nat) :
    (d.discard x reason).cfg = d.cfg ∧ (d.discard x reason).tick = d.tick := by
  simp [Dev.discard]

@[simp] theorem Dev.flush_still (d : Dev) (pick : Desc → Bool) (reason : Nat) :
    (d.flush pick reason).cfg = d.cfg ∧ (d.flush pick reason).tick = d.tick := by
  simp [Dev.flush]

@[simp] theorem Dev.flushPort_still (d : Dev) (port reason : Nat) :
    (d.flushPort port reason).cfg = d.cfg ∧ (d.flushPort port reason).tick = d.tick := by
  unfold Dev.flushPort
  dsimp only
  split <;> simp

-- Substitutions ------------------------------------------------------------------------------------------------------------------------

@[simp] theorem Dev.setFib_still (d : Dev) (fib v : Nat) :
    (d.setFib fib v).cfg = d.cfg ∧ (d.setFib fib v).tick = d.tick := by
  simp [Dev.setFib]

@[simp] theorem Dev.setReq_still (d : Dev) (fib : Nat) (r : Option SubReq) :
    (d.setReq fib r).cfg = d.cfg ∧ (d.setReq fib r).tick = d.tick := by
  exact ⟨rfl, rfl⟩

@[simp] theorem Dev.setFar_still (d : Dev) (fib : Nat) (r : Option SubFar) :
    (d.setFar fib r).cfg = d.cfg ∧ (d.setFar fib r).tick = d.tick := by
  exact ⟨rfl, rfl⟩

@[simp] theorem Dev.setCarry_still (d : Dev) (lane wl : Nat) :
    (d.setCarry lane wl).cfg = d.cfg ∧ (d.setCarry lane wl).tick = d.tick := by
  exact ⟨rfl, rfl⟩

@[simp] theorem Dev.oeEvent_still (d : Dev) (e k : Nat) (detail : Word) :
    (d.oeEvent e k detail).cfg = d.cfg ∧ (d.oeEvent e k detail).tick = d.tick := by
  simp [Dev.oeEvent]

@[simp] theorem Dev.cmdEnd_still (d : Dev) (e : Nat) (ops : List Nat) :
    (d.cmdEnd e ops).cfg = d.cfg ∧ (d.cmdEnd e ops).tick = d.tick := by
  unfold Dev.cmdEnd
  split <;> simp

@[simp] theorem Dev.subEnd_still (d : Dev) (e : Nat) :
    (d.subEnd e).cfg = d.cfg ∧ (d.subEnd e).tick = d.tick := by
  unfold Dev.subEnd
  dsimp only
  split
  · simp
  · split <;> simp

@[simp] theorem Dev.subRetrain_still (d : Dev) (port : Nat) :
    (d.subRetrain port).cfg = d.cfg ∧ (d.subRetrain port).tick = d.tick := by
  unfold Dev.subRetrain
  dsimp only
  cases smFind d.oe.req (port / 8) with
  | none => dsimp only; split <;> simp
  | some r => dsimp only; split <;> simp

-- Links and training -------------------------------------------------------------------------------------------------------------------

@[simp] theorem Dev.portEvt_still (d : Dev) (port k : Nat) :
    (d.portEvt port k).cfg = d.cfg ∧ (d.portEvt port k).tick = d.tick := by
  simp [Dev.portEvt]

@[simp] theorem Dev.linkEvent_still (d : Dev) (port k : Nat) :
    (d.linkEvent port k).cfg = d.cfg ∧ (d.linkEvent port k).tick = d.tick := by
  simp [Dev.linkEvent]

@[simp] theorem Dev.reachRecords_still (d : Dev) (port : Nat) (reach byLink : Bool) :
    (d.reachRecords port reach byLink).cfg = d.cfg ∧ (d.reachRecords port reach byLink).tick = d.tick := by
  simp [Dev.reachRecords]

@[simp] theorem Dev.endWave_still (d : Dev) (port : Nat) :
    (d.endWave port).cfg = d.cfg ∧ (d.endWave port).tick = d.tick := by
  exact ⟨rfl, rfl⟩

@[simp] theorem Dev.beginWave_still (d : Dev) (exit : Bool) (lane : Nat) :
    (d.beginWave exit lane).cfg = d.cfg ∧ (d.beginWave exit lane).tick = d.tick := by
  exact ⟨rfl, rfl⟩

@[simp] theorem Dev.clearLink_still (d : Dev) (port : Nat) :
    (d.clearLink port).cfg = d.cfg ∧ (d.clearLink port).tick = d.tick := by
  simp [Dev.clearLink]

@[simp] theorem Dev.linkDown_still (d : Dev) (port : Nat) (raise : Bool) :
    (d.linkDown port raise).cfg = d.cfg ∧ (d.linkDown port raise).tick = d.tick := by
  unfold Dev.linkDown
  split
  · simp
  · split <;> simp

@[simp] theorem Dev.trainBegin_still (d : Dev) (port : Nat) :
    (d.trainBegin port).cfg = d.cfg ∧ (d.trainBegin port).tick = d.tick := by
  unfold Dev.trainBegin
  split <;> simp

@[simp] theorem Dev.portHold_still (d : Dev) (port : Nat) :
    (d.portHold port).cfg = d.cfg ∧ (d.portHold port).tick = d.tick := by
  simp [Dev.portHold]

@[simp] theorem Dev.trainAll_still (d : Dev) :
    d.trainAll.cfg = d.cfg ∧ d.trainAll.tick = d.tick := by
  simp [Dev.trainAll]

-- What a loaded register does at once --------------------------------------------------------------------------------------------------

@[simp] theorem Dev.refillMeter_still (d : Dev) (u i : Nat) :
    (d.refillMeter u i).cfg = d.cfg ∧ (d.refillMeter u i).tick = d.tick := by
  exact ⟨rfl, rfl⟩

@[simp] theorem Dev.dirtyShaper_still (d : Dev) (u i : Nat) :
    (d.dirtyShaper u i).cfg = d.cfg ∧ (d.dirtyShaper u i).tick = d.tick := by
  unfold Dev.dirtyShaper
  dsimp only
  split <;> simp

@[simp] theorem Dev.clearWatch_still (d : Dev) (u i : Nat) :
    (d.clearWatch u i).cfg = d.cfg ∧ (d.clearWatch u i).tick = d.tick := by
  exact ⟨rfl, rfl⟩

@[simp] theorem Dev.resetBarrier_still (d : Dev) (u i : Nat) :
    (d.resetBarrier u i).cfg = d.cfg ∧ (d.resetBarrier u i).tick = d.tick := by
  exact ⟨rfl, rfl⟩

@[simp] theorem Dev.flipEnable_still (d : Dev) (u set : Nat) :
    (d.flipEnable u set).cfg = d.cfg ∧ (d.flipEnable u set).tick = d.tick := by
  exact ⟨rfl, rfl⟩

@[simp] theorem Dev.laneCfg_still (d : Dev) (lane : Nat) (was : Bool) :
    (d.laneCfg lane was).cfg = d.cfg ∧ (d.laneCfg lane was).tick = d.tick := by
  unfold Dev.laneCfg
  dsimp only
  split <;> simp

@[simp] theorem Dev.lanePattern_still (d : Dev) (lane : Nat) (gen chk : Bool) :
    (d.lanePattern lane gen chk).cfg = d.cfg ∧ (d.lanePattern lane gen chk).tick = d.tick := by
  unfold Dev.lanePattern
  dsimp only
  split <;> simp

@[simp] theorem Dev.laneInj_still (d : Dev) (lane : Nat) :
    (d.laneInj lane).cfg = d.cfg ∧ (d.laneInj lane).tick = d.tick := by
  exact ⟨rfl, rfl⟩

@[simp] theorem Dev.setpoint_still (d : Dev) (die mv : Nat) :
    (d.setpoint die mv).cfg = d.cfg ∧ (d.setpoint die mv).tick = d.tick := by
  simp [Dev.setpoint]

@[simp] theorem Dev.forcedStep_still (d : Dev) (die : Nat) :
    (d.forcedStep die).cfg = d.cfg ∧ (d.forcedStep die).tick = d.tick := by
  unfold Dev.forcedStep
  dsimp only
  split <;> simp

@[simp] theorem Dev.chooseSource_still (d : Dev) :
    d.chooseSource.cfg = d.cfg ∧ d.chooseSource.tick = d.tick := by
  unfold Dev.chooseSource
  extract_lets cur has new steps shown port changed lost state
  have hshown : shown.cfg = d.cfg ∧ shown.tick = d.tick := by simp [shown]
  have hchanged : changed.cfg = d.cfg ∧ changed.tick = d.tick := by simp [changed, hshown]
  have hlost : lost.cfg = d.cfg ∧ lost.tick = d.tick := by simp [lost, hchanged]
  split
  · exact hshown
  · split
    · exact hchanged
    · split <;> simp [hlost]

@[simp] theorem Dev.restartSources_still (d : Dev) (primary secondary : Bool) :
    (d.restartSources primary secondary).cfg = d.cfg ∧ (d.restartSources primary secondary).tick = d.tick := by
  simp [Dev.restartSources]

@[simp] theorem Dev.afterWrite_still (d : Dev) (before : Dev) (x : RegAt) (i : Nat) (old new : Word) :
    (d.afterWrite before x i old new).cfg = d.cfg ∧ (d.afterWrite before x i old new).tick = d.tick := by
  unfold Dev.afterWrite
  dsimp only
  split <;> simp

-- Tables -------------------------------------------------------------------------------------------------------------------------------

@[simp] theorem Dev.putLog_still (d : Dev) (die pos : Nat) (e : LogEntry) :
    (d.putLog die pos e).cfg = d.cfg ∧ (d.putLog die pos e).tick = d.tick := by
  simp [Dev.putLog]

@[simp] theorem Dev.insertRoute_still (d : Dev) (die bank : Nat) (e : RouteEntry) :
    (d.insertRoute die bank e).1.cfg = d.cfg ∧ (d.insertRoute die bank e).1.tick = d.tick := by
  unfold Dev.insertRoute
  split
  · simp
  · dsimp only
    split
    · simp
    · split <;> simp

@[simp] theorem Dev.insertBack_still (d : Dev) (die : Nat) (e : LogEntry) :
    (d.insertBack die e).1.cfg = d.cfg ∧ (d.insertBack die e).1.tick = d.tick := by
  unfold Dev.insertBack
  dsimp only
  split
  · simp
  · split <;> simp

-- The activation -----------------------------------------------------------------------------------------------------------------------

@[simp] theorem Dev.stage_still (d : Dev) (n : Nat) :
    (d.stage n).cfg = d.cfg ∧ (d.stage n).tick = d.tick := by
  simp [Dev.stage]

@[simp] theorem Dev.setMeas_still (d : Dev) (m : Nat) (bs : List Byte) :
    (d.setMeas m bs).cfg = d.cfg ∧ (d.setMeas m bs).tick = d.tick := by
  simp [Dev.setMeas]

@[simp] theorem Dev.extend_still (d : Dev) (m : Nat) (v : List Byte) :
    (d.extend m v).cfg = d.cfg ∧ (d.extend m v).tick = d.tick := by
  simp [Dev.extend]

@[simp] theorem Dev.applyGuard_still (d : Dev) :
    d.applyGuard.cfg = d.cfg ∧ d.applyGuard.tick = d.tick := by
  unfold Dev.applyGuard
  split <;> simp

@[simp] theorem Dev.holdSite_still (d : Dev) (site : Nat) (hold : Bool) :
    (d.holdSite site hold).cfg = d.cfg ∧ (d.holdSite site hold).tick = d.tick := by
  unfold Dev.holdSite
  split <;> simp

@[simp] theorem Dev.holdSites_still (d : Dev) :
    d.holdSites.cfg = d.cfg ∧ d.holdSites.tick = d.tick := by
  simp [Dev.holdSites]

@[simp] theorem Dev.oeForget_still (d : Dev) (e : Nat) :
    (d.oeForget e).cfg = d.cfg ∧ (d.oeForget e).tick = d.tick := by
  exact ⟨rfl, rfl⟩

@[simp] theorem Dev.calibrate_still (d : Dev) (e : Nat) (s : CalSec) :
    (d.calibrate e s).cfg = d.cfg ∧ (d.calibrate e s).tick = d.tick := by
  unfold Dev.calibrate
  dsimp only
  split <;> simp

@[simp] theorem Dev.bypCalibrate_still (d : Dev) (q : Nat) (s : CalSec) :
    (d.bypCalibrate q s).cfg = d.cfg ∧ (d.bypCalibrate q s).tick = d.tick := by
  unfold Dev.bypCalibrate
  dsimp only
  split <;> simp

@[simp] theorem Dev.bypEvent_still (d : Dev) (q k input output : Nat) :
    (d.bypEvent q k input output).cfg = d.cfg ∧ (d.bypEvent q k input output).tick = d.tick := by
  simp [Dev.bypEvent]

@[simp] theorem Dev.darken_still (d : Dev) (q i : Nat) :
    (d.darken q i).cfg = d.cfg ∧ (d.darken q i).tick = d.tick := by
  simp [Dev.darken]

@[simp] theorem Dev.showCircuit_still (d : Dev) (q i state : Nat) (outs : List Nat) (mask : Word) :
    (d.showCircuit q i state outs mask).cfg = d.cfg ∧ (d.showCircuit q i state outs mask).tick = d.tick := by
  simp [Dev.showCircuit]

@[simp] theorem Dev.biasCommit_still (d : Dev) (q i : Nat) (r : Option BiasRec) :
    (d.biasCommit q i r).cfg = d.cfg ∧ (d.biasCommit q i r).tick = d.tick := by
  simp [Dev.biasCommit]

@[simp] theorem Dev.teardown_still (d : Dev) (q i : Nat) :
    (d.teardown q i).cfg = d.cfg ∧ (d.teardown q i).tick = d.tick := by
  unfold Dev.teardown
  dsimp only
  split <;> simp

@[simp] theorem Dev.beginSetup_still (d : Dev) (q i : Nat) (mask : Word) (image : Bool) :
    (d.beginSetup q i mask image).cfg = d.cfg ∧ (d.beginSetup q i mask image).tick = d.tick := by
  simp [Dev.beginSetup]

@[simp] theorem Dev.nextSetup_still (d : Dev) (q : Nat) :
    (d.nextSetup q).cfg = d.cfg ∧ (d.nextSetup q).tick = d.tick := by
  unfold Dev.nextSetup
  split
  · simp
  · split
    · simp
    · dsimp only
      split
      · simp
      · split <;> simp

@[simp] theorem Dev.nextSetups_still (d : Dev) (q : Nat) :
    (d.nextSetups q).cfg = d.cfg ∧ (d.nextSetups q).tick = d.tick := by
  simp [Dev.nextSetups]

@[simp] theorem Dev.bypActivate_still (d : Dev) (q : Nat) (image : List (Nat × Word)) :
    (d.bypActivate q image).cfg = d.cfg ∧ (d.bypActivate q image).tick = d.tick := by
  simp [Dev.bypActivate]

@[simp] theorem Dev.bypCompare_still (d : Dev) (q : Nat) (image : List (Nat × Word)) :
    (d.bypCompare q image).cfg = d.cfg ∧ (d.bypCompare q image).tick = d.tick := by
  unfold Dev.bypCompare
  split <;> simp

@[simp] theorem Dev.ucieBring_still (d : Dev) :
    d.ucieBring.cfg = d.cfg ∧ d.ucieBring.tick = d.tick := by
  unfold Dev.ucieBring
  dsimp only
  split <;> simp

@[simp] theorem Dev.noteMsg_still (d : Dev) (m : StageMsg) :
    (d.noteMsg m).cfg = d.cfg ∧ (d.noteMsg m).tick = d.tick := by
  exact ⟨rfl, rfl⟩

@[simp] theorem Dev.flood_still (d : Dev) (body : StageBody) :
    (d.flood body).cfg = d.cfg ∧ (d.flood body).tick = d.tick := by
  simp [Dev.flood]

@[simp] theorem Dev.setRole_still (d : Dev) (v : Nat) :
    (d.setRole v).cfg = d.cfg ∧ (d.setRole v).tick = d.tick := by
  simp [Dev.setRole]

@[simp] theorem Dev.stageClaim_still (d : Dev) :
    d.stageClaim.cfg = d.cfg ∧ d.stageClaim.tick = d.tick := by
  unfold Dev.stageClaim
  dsimp only
  split <;> simp

@[simp] theorem Dev.stageJoin_still (d : Dev) :
    d.stageJoin.cfg = d.cfg ∧ d.stageJoin.tick = d.tick := by
  unfold Dev.stageJoin
  split <;> simp

@[simp] theorem Dev.capUpdate_still (d : Dev) :
    d.capUpdate.cfg = d.cfg ∧ d.capUpdate.tick = d.tick := by
  exact ⟨rfl, rfl⟩

@[simp] theorem Dev.configEvent_still (d : Dev) :
    d.configEvent.cfg = d.cfg ∧ d.configEvent.tick = d.tick := by
  simp [Dev.configEvent]

end Sys2Proof.Machine
end

section
/-! PROOF. An image becomes active, and traffic is ready (O51). -/

namespace Sys2Proof.Machine

-- The load of an image (R355) ----------------------------------------------------------------------------------------------------------

theorem Dev.loadPorts_still (d : Dev) (img : Image) : (d.loadPorts img).cfg = d.cfg ∧ (d.loadPorts img).tick = d.tick := by
  simp [Dev.loadPorts]

theorem Dev.loadImgWord_still (d : Dev) (w : ImgWord) : (d.loadImgWord w).cfg = d.cfg ∧ (d.loadImgWord w).tick = d.tick := by
  simp [Dev.loadImgWord]

/-- Two devices of one configuration at one instant. -/
def Dev.Still (a b : Dev) : Prop := b.cfg = a.cfg ∧ b.tick = a.tick

theorem Dev.Still.rfl' (d : Dev) : d.Still d := ⟨rfl, rfl⟩

theorem Dev.Still.trans {a b c : Dev} (h : a.Still b) (k : b.Still c) : a.Still c := ⟨k.1.trans h.1, k.2.trans h.2⟩

theorem Dev.still_foldl_bind {α : Type} {f : Dev → α → Option Dev} (h : ∀ (d : Dev) x e, f d x = some e → d.Still e) (l : List α) :
    ∀ (o : Option Dev) (e : Dev), l.foldl (fun o a => o.bind fun d => f d a) o = some e → ∃ d, o = some d ∧ d.Still e := by
  induction l with
  | nil => exact fun _ e he => ⟨e, he, .rfl' e⟩
  | cons x l ih =>
    intro o e he
    obtain ⟨d', hd', hstill⟩ := ih _ e he
    obtain ⟨d, rfl, hx⟩ := Option.bind_eq_some_iff.mp hd'
    exact ⟨d, rfl, (h d x d' hx).trans hstill⟩

theorem Dev.still_eachOpt {α : Type} {f : Dev → α → Option Dev} (h : ∀ (d : Dev) x e, f d x = some e → d.Still e) {d e : Dev}
    {l : List α} (he : d.eachOpt l f = some e) : d.Still e := by
  obtain ⟨d', hd', hstill⟩ := Dev.still_foldl_bind h l (some d) e he
  cases hd'
  exact hstill

theorem Dev.still_loadReg {d e : Dev} {l : ImgLoad} (h : d.loadReg l = some e) : d.Still e := by
  unfold Dev.loadReg at h
  split at h
  · cases h
  · dsimp only at h
    split at h
    · cases h
    · cases h
      simp [Dev.Still]

theorem Dev.still_placeLog {d e : Dev} {die : Nat} {x : LogEntry} (h : d.placeLog die x = some e) : d.Still e := by
  unfold Dev.placeLog at h
  split at h
  · cases h
    exact Dev.putLog_still ..
  · obtain ⟨p, -, rfl⟩ := Option.map_eq_some_iff.mp h
    exact Dev.putLog_still ..

theorem Dev.still_placeBack {d e : Dev} {x : LogEntry} (h : d.placeBack x = some e) : d.Still e := by
  unfold Dev.placeBack at h
  dsimp only at h
  split at h
  · cases h
  · cases h
    exact Dev.insertBack_still ..

theorem Dev.still_placeBank {d e : Dev} {bank : Nat} {r : ImgRoute} (h : d.placeBank bank r = some e) : d.Still e := by
  unfold Dev.placeBank at h
  dsimp only at h
  split at h
  · cases h
  · cases h
    exact Dev.insertRoute_still ..

theorem Dev.still_placeRoute {d e : Dev} {r : ImgRoute} (h : d.placeRoute r = some e) : d.Still e := by
  obtain ⟨d', h0, h1⟩ := Option.bind_eq_some_iff.mp h
  exact (Dev.still_placeBank h0).trans (Dev.still_placeBank h1)

/-- An image that loads is the configuration in force. -/
theorem Dev.still_loadImage {d e : Dev} {img : Image} {digest : List Byte} {steppings : Nat × Nat}
    (h : d.loadImage img digest steppings = some e) : e.cfg = img.cfg digest ∧ e.tick = d.tick := by
  unfold Dev.loadImage at h
  split at h
  · cases h
  · simp only [Option.bind_eq_some_iff] at h
    obtain ⟨d₄, ⟨d₃, ⟨d₂, ⟨d₁, hloads, hroutes⟩, hlogical⟩, hbacking⟩, hrules⟩ := h
    have h₁ := Dev.still_eachOpt (fun _ _ _ => Dev.still_loadReg) hloads
    have h₂ := h₁.trans (Dev.still_eachOpt (fun _ _ _ => Dev.still_placeRoute) hroutes)
    have h₃ := h₂.trans (Dev.still_eachOpt (fun _ _ _ => Dev.still_placeLog) hlogical)
    have h₄ := h₃.trans (Dev.still_eachOpt (fun _ _ _ => Dev.still_placeBack) hbacking)
    split at hrules
    · cases hrules
      simpa [Dev.Still, Dev.loadPorts_still, Dev.loadImgWord_still] using h₄
    · cases hrules

-- The activation of an image that loads ---------------------------------------------------------------------------------------------------

/-- Two modules of one configuration at one instant, with the same fuses, flash and waiting image. -/
structure Chip.Still (a b : Chip) : Prop where
  fuses : b.fuses = a.fuses
  flash : b.flash = a.flash
  pend : b.pend = a.pend
  dev : a.dev.Still b.dev

theorem Chip.Still.trans {a b c : Chip} (h : a.Still b) (k : b.Still c) : a.Still c :=
  ⟨k.fuses.trans h.fuses, k.flash.trans h.flash, k.pend.trans h.pend, h.dev.trans k.dev⟩

theorem Chip.Still.on {a b : Chip} {f : Dev → Dev} (h : a.Still b) (hf : ∀ d : Dev, d.Still (f d)) : a.Still (b.on f) :=
  ⟨h.fuses, h.flash, h.pend, h.dev.trans (hf b.dev)⟩

theorem Chip.still_showImage (c : Chip) (slot id : Nat) : c.Still (c.showImage slot id) :=
  .on ⟨rfl, rfl, rfl, .rfl' c.dev⟩ fun d => by simp [Dev.Still]

theorem Chip.still_calibrateAll (c : Chip) : c.Still c.calibrateAll :=
  ⟨by simp [Chip.calibrateAll, Chip.measureCal], by simp [Chip.calibrateAll, Chip.measureCal],
    by simp [Chip.calibrateAll, Chip.measureCal], by simp [Dev.Still, Chip.calibrateAll, Chip.measureCal]⟩

/-- The module with the image of a slot in force, before its optics calibrate and its ports train. -/
def Chip.loaded (c : Chip) (slot : Nat) (e : Dev) : Chip :=
  { c with
    pend := none
    dev := { e with fw := { e.fw with written := [] } }
    flash := { c.flash with imgActive := slot, imgStaged := c.flash.imgStaged && slot == c.flash.imgActive, log := [] } }

theorem Chip.activate_of_loaded {c : Chip} {p : Pend} {e : Dev} (hstops : c.dev.bootStops = false)
    (hrec : c.dev.on F.SEC_STAT_recovery 0 0 = false) (hp : c.pend = some p)
    (he : c.dev.loadImage p.content.image p.content.digest c.fuses.steppings = some e) :
    (c.loaded p.slot e).Still c.activate := by
  unfold Chip.activate
  simp only [hstops, hrec, hp, he, Bool.or_self, Bool.false_eq_true, if_false]
  have hguard := (Chip.still_showImage (c.loaded p.slot e) p.slot p.content.image.id).on
    (f := fun d => d.applyGuard.holdSites) fun d => by simp [Dev.Still]
  refine .on (.on (.on (hguard.trans (Chip.still_calibrateAll _)) fun d => ?_) fun d => ?_) fun d => ?_
  · simp [Dev.Still]
  · split <;> simp [Dev.Still]
  · simp [Dev.Still]

theorem Chip.activate_of_refused {c : Chip} {p : Pend} (hstops : c.dev.bootStops = false)
    (hrec : c.dev.on F.SEC_STAT_recovery 0 0 = false) (hp : c.pend = some p)
    (he : c.dev.loadImage p.content.image p.content.digest c.fuses.steppings = none) :
    c.activate = ({ c with pend := none } : Chip).on fun d => (d.stage 10).logErr .HUB 0 3 0 := by
  unfold Chip.activate
  simp only [hstops, hrec, hp, he, Bool.or_self, Bool.false_eq_true, if_false]

theorem Chip.activate_of_none {c : Chip} (h : c.pend = none ∨ c.dev.bootStops = true ∨ c.dev.on F.SEC_STAT_recovery 0 0 = true) :
    c.activate = c := by
  have hnone : (if c.dev.bootStops || c.dev.on F.SEC_STAT_recovery 0 0 then none else c.pend) = none := by
    rcases h with h | h | h <;> simp [h]
  unfold Chip.activate
  rw [hnone]

-- The commands ------------------------------------------------------------------------------------------------------------------------

theorem exec_imageActivation (s : State) : exec .imageActivation s = .next (s.settledOn s.chip.activate) := rfl
theorem exec_trafficReady (s : State) : exec .trafficReady s = .next (s.after Dev.trafficReady) := rfl

theorem imageActivation_idle {s : State} (h : s.chip.pend = none ∨ s.dev.bootStops = true ∨ s.dev.on F.SEC_STAT_recovery 0 0 = true) :
    ∃ t, exec .imageActivation s = .next t ∧ KeepsBut [.quiesced] s t := by
  rw [exec_imageActivation, Chip.activate_of_none h]
  exact ⟨_, rfl, keepsBut_after_of_eq (f := id) rfl⟩

theorem imageActivation_loaded {s : State} {p : Pend} {e : Dev} (hp : s.chip.pend = some p) (hstops : s.dev.bootStops = false)
    (hrec : s.dev.on F.SEC_STAT_recovery 0 0 = false)
    (he : s.dev.loadImage p.content.image p.content.digest s.chip.fuses.steppings = some e) :
    ∃ t, exec .imageActivation s = .next t ∧ t.chip.pend = none ∧ t.dev.cfg = e.cfg ∧ t.dev.cfg.active = true ∧
      t.chip.flash = { s.chip.flash with imgActive := p.slot, imgStaged := s.chip.flash.imgStaged && p.slot == s.chip.flash.imgActive, log := [] } ∧
      t.chip.fuses = s.chip.fuses ∧ t.dev.tick = s.dev.tick := by
  obtain ⟨hfuses, hflash, hpend, hcfg, htick⟩ := Chip.activate_of_loaded hstops hrec hp he
  obtain ⟨himage, hsame⟩ := Dev.still_loadImage he
  refine ⟨_, exec_imageActivation s, hpend, hcfg, ?_, hflash, hfuses, htick.trans hsame⟩
  exact (congrArg Cfg.active (hcfg.trans himage)).trans rfl

theorem imageActivation_refused {s : State} {p : Pend} (hp : s.chip.pend = some p) (hstops : s.dev.bootStops = false)
    (hrec : s.dev.on F.SEC_STAT_recovery 0 0 = false)
    (he : s.dev.loadImage p.content.image p.content.digest s.chip.fuses.steppings = none) :
    ∃ t, exec .imageActivation s = .next t ∧ t.chip.pend = none ∧ t.dev.rd F.HUB_BOOT_STAT_stage 0 0 = 10 ∧
      Logged .HUB 0 3 s t ∧ RegsKeptBut (.HUB_BOOT_STAT :: loggingRegs) s t ∧ KeepsBut [.pend, .regs, .ev, .quiesced] s t := by
  have hlatch := (sameRegs_latchErr (s.dev.stage 10) .HUB 0 3 0).weaken (l' := loggingRegs) (by decide)
  have hlog := hlatch.trans ((sameRegs_logErr_latchErr (s.dev.stage 10) .HUB 0 3 0).weaken (by decide))
  have hstage := sameRegs_wr s.dev F.HUB_BOOT_STAT_stage 0 0 10
  rw [exec_imageActivation, Chip.activate_of_refused hstops hrec hp he]
  refine ⟨({ s with chip := { s.chip with pend := none } } : State).after fun d => (d.stage 10).logErr .HUB 0 3 0, rfl, rfl,
    ?_, ?_, ?_, fun part hpart => ?_⟩
  · exact (Dev.rd_of_sameRegs hlog (by decide) 0 0).trans (s.dev.rd_wr_same F.HUB_BOOT_STAT_stage 0 0 10 (by decide))
  · exact logged_after_logErr (f := fun d => d.stage 10) .HUB 0 (by decide) 0 (Dev.rd_of_sameRegs hstage (by decide) 0 0)
  · exact (hstage.weaken (by decide)).trans (hlog.weaken (by decide))
  · cases part with
    | pend | regs | ev | quiesced => exact absurd hpart (by decide)
    | _ => simp [Part.same, Dev.stage, State.dev]

-- Traffic ready (R307 step 14) --------------------------------------------------------------------------------------------------------

/-- The device as it shows ready. -/
def Dev.readied (d : Dev) : Dev :=
  ((d.stage 14).wr F.HUB_BOOT_STAT_ready 0 0 1).wr F.HUB_BOOT_STAT_boot_ms 0 0 (Nat.min 65535 ((d.tick - d.pw.began) / 156250))

theorem sameRegs_readied (d : Dev) : SameRegs [.HUB_BOOT_STAT] d.regs d.readied.regs :=
  SameRegs.wr (SameRegs.wr (SameRegs.wr (SameRegs.rfl' _ _) (by decide) _ _ _) (by decide) _ _ _) (by decide) _ _ _

theorem Dev.rd_readied (d : Dev) : d.readied.rd F.HUB_BOOT_STAT_ready 0 0 = 1 ∧ d.readied.rd F.HUB_BOOT_STAT_stage 0 0 = 14 := by
  unfold Dev.readied Dev.stage
  constructor
  · rw [Dev.rd_wr_disj _ _ (by decide) (by decide) (by decide) (by decide) (by decide) (by decide), Dev.rd_wr_same _ _ _ _ _ (by decide)]
    rfl
  · rw [Dev.rd_wr_disj _ _ (by decide) (by decide) (by decide) (by decide) (by decide) (by decide),
      Dev.rd_wr_disj _ _ (by decide) (by decide) (by decide) (by decide) (by decide) (by decide), Dev.rd_wr_same _ _ _ _ _ (by decide)]
    rfl

/-- Whether traffic is ready (R307, R308, R296). -/
def Dev.readyNow (d : Dev) : Prop :=
  d.attached = true ∧ d.on F.SEC_STAT_recovery 0 0 = false ∧ d.bootStops = false ∧ d.cfg.active = true ∧
    d.on F.HUB_BOOT_STAT_ready 0 0 = false ∧ d.oe.settling = [] ∧ ∀ p ∈ d.cfg.ports, d.firstTrained p.1 = true

theorem Dev.trafficReady_of_ready {d : Dev} (h : d.readyNow) : d.trafficReady = d.readied.hubEvent 6 d.readied.bootStat 0 := by
  obtain ⟨hatt, hrec, hstops, hact, hready, hsettle, hports⟩ := h
  have hall : (d.cfg.ports.all fun e => d.firstTrained e.1) = true := by simpa using hports
  unfold Dev.trafficReady
  rw [if_neg (by simp [hatt, hrec, hstops, hact, hready, hsettle, hall])]
  rfl

theorem Dev.trafficReady_of_not {d : Dev} (h : ¬ d.readyNow) : d.trafficReady = d := by
  unfold Dev.trafficReady
  refine if_pos ?_
  by_contra hgo
  refine h ?_
  simpa [Dev.readyNow, and_assoc] using hgo

theorem Dev.hubEvent_of_hub {d : Dev} (h : d.hubRuns = true) (code : Nat) (e2 e3 : Word) :
    ∃ r, d.hubEvent code e2 e3 = d.sendRec r := by
  unfold Dev.hubEvent Dev.raiseRec
  rw [if_pos h]
  exact ⟨_, if_pos (by simpa [Dev.hears] using h)⟩

theorem Dev.degraded_iff (d : Dev) (h : d.on F.HUB_BOOT_STAT_ready 0 0 = true) : F.HUB_BOOT_STAT_degraded.isSet d.bootStat = true ↔
    d.dieRuns 0 = false ∨ d.dieRuns 1 = false ∨ ∃ i < 20, d.dieState (2 + i) = 3 := by
  have hbit : ∀ w b, F.HUB_BOOT_STAT_degraded.isSet (fput w 62 62 (b2n b)) = b := by
    intro w b
    rw [Fld.isSet, Fld.of, fget_fput_same _ _ (by decide)]
    cases b <;> rfl
  have hcores : ((List.range 2).any fun i => !d.dieRuns i) = (!d.dieRuns 0 || !d.dieRuns 1) := by simp [List.range_succ]
  rw [Dev.bootStat, hbit, h, hcores]
  simp [or_assoc]

/-- Whether a die runs is read from HUB_STRAP. -/
theorem Dev.dieState_of_sameRegs {a b : Dev} {l : List Reg} (h : SameRegs l a.regs b.regs) (hl : Reg.HUB_STRAP ∉ l) (i : Nat) :
    b.dieState i = a.dieState i := Dev.rd_of_sameRegs h hl 0 i

theorem trafficReady_shown {s : State} (h : s.dev.readyNow) :
    ∃ t, exec .trafficReady s = .next t ∧ t.dev.on F.HUB_BOOT_STAT_ready 0 0 = true ∧ t.dev.rd F.HUB_BOOT_STAT_stage 0 0 = 14 ∧
      (F.HUB_BOOT_STAT_degraded.isSet t.dev.bootStat = true ↔
        s.dev.dieRuns 0 = false ∨ s.dev.dieRuns 1 = false ∨ ∃ i < 20, s.dev.dieState (2 + i) = 3) ∧
      t.dev.ev.seq = (s.dev.ev.seq + 1) % 4294967296 ∧ RegsKeptBut [.HUB_BOOT_STAT] s t ∧ KeepsBut [.regs, .ev, .quiesced] s t := by
  have hdie := Dev.dieState_of_sameRegs (sameRegs_readied s.dev) (by decide)
  have hhub : s.dev.readied.hubRuns = true := by
    obtain ⟨hatt, -⟩ := h
    have := ((Bool.and_eq_true _ _).mp hatt).1
    rwa [Dev.hubRuns, hdie]
  obtain ⟨r, hr⟩ := Dev.hubEvent_of_hub hhub 6 s.dev.readied.bootStat 0
  obtain ⟨hready, hstage⟩ := s.dev.rd_readied
  have hon : s.dev.readied.on F.HUB_BOOT_STAT_ready 0 0 = true := by rw [Dev.on, hready]; rfl
  rw [exec_trafficReady, State.after_eq ((Dev.trafficReady_of_ready h).trans hr)]
  refine ⟨_, rfl, hon, hstage, ?_, rfl, sameRegs_readied s.dev, fun p hp => ?_⟩
  · have := s.dev.readied.degraded_iff hon
    simp only [Dev.dieRuns, hdie] at this
    exact this
  · cases p with
    | regs | ev | quiesced => exact absurd hp (by decide)
    | _ => rfl

/-- Settles O51: what follows the load of an image keeps its configuration, step by step; a refusal is one error logged, and traffic
ready is one record raised. -/
theorem imageActivates : Obligations.ImageActivates := by
  intro s
  refine ⟨imageActivation_idle, fun p hp hstops hrec => ⟨fun e he => ?_, fun he => ?_⟩, trafficReady_shown, fun h => ?_⟩
  · exact imageActivation_loaded hp hstops hrec he
  · exact imageActivation_refused hp hstops hrec he
  · exact ⟨_, exec_trafficReady s, keepsBut_after_of_eq (Dev.trafficReady_of_not h)⟩

end Sys2Proof.Machine
end

section
/-! PROOF. What an operation of the device changes: the parts and the registers outside which it leaves all as it was. -/

namespace Sys2Proof.Machine

-- As in the architect's tests: checked one after another, for every proof that waits for the ones before it holds a thread.
set_option Elab.async false

/-- A machine that holds a device, for the parts of `Part.same` to speak of devices. -/
def State.ofDev (d : Dev) : State := { State.reset with chip := { State.reset.chip with dev := d } }

@[simp] theorem State.ofDev_dev (d : Dev) : (State.ofDev d).dev = d := rfl
@[simp] theorem State.ofDev_around (d : Dev) : (State.ofDev d).pending = State.reset.pending ∧
    (State.ofDev d).chip.fuses = State.reset.chip.fuses ∧ (State.ofDev d).chip.flash = State.reset.chip.flash ∧
    (State.ofDev d).chip.pend = State.reset.chip.pend := ⟨rfl, rfl, rfl, rfl⟩

/-- The device `b` differs from `a` in the parts `ps` and, of the registers, in `rs` alone. -/
structure Dev.Changes (ps : List Part) (rs : List Reg) (a b : Dev) : Prop where
  parts : KeepsBut ps (State.ofDev a) (State.ofDev b)
  regs : SameRegs rs a.regs b.regs

namespace Dev.Changes

variable {ps ps' : List Part} {rs rs' : List Reg} {a b c : Dev}

theorem rfl' (ps : List Part) (rs : List Reg) (d : Dev) : d.Changes ps rs d :=
  ⟨fun p _ => by cases p <;> rfl, SameRegs.rfl' rs d.regs⟩

theorem weaken (h : a.Changes ps rs b) (hp : ∀ p ∈ ps, p ∈ ps' := by decide) (hr : ∀ r ∈ rs, r ∈ rs' := by decide) :
    a.Changes ps' rs' b :=
  ⟨fun p hn => h.parts p fun hm => hn (hp p hm), h.regs.weaken hr⟩

theorem trans (h : a.Changes ps rs b) (k : b.Changes ps rs c) : a.Changes ps rs c := by
  refine ⟨fun p hp => ?_, h.regs.trans k.regs⟩
  have hab := h.parts p hp
  have hbc := k.parts p hp
  cases p <;> exact hbc.trans hab

/-- One more operation, which changes no more than the ones before it may. -/
theorem andThen (h : a.Changes ps rs b) (k : b.Changes ps' rs' c) (hp : ∀ p ∈ ps', p ∈ ps := by decide)
    (hr : ∀ r ∈ rs', r ∈ rs := by decide) : a.Changes ps rs c :=
  h.trans (k.weaken hp hr)

theorem each {α : Type} {f : Dev → α → Dev} (h : ∀ (d : Dev) x, d.Changes ps rs (f d x)) (d : Dev) (xs : List α) :
    d.Changes ps rs (d.each xs f) := by
  induction xs generalizing d with
  | nil => exact rfl' ps rs d
  | cons x xs ih => exact (h d x).trans (ih (f d x))

-- What such an operation leaves -------------------------------------------------------------------------------------------------------

theorem rdw (h : a.Changes ps rs b) {r : Reg} (hr : r ∉ rs := by decide) (u i : Nat) : b.rdw r u i = a.rdw r u i := h.regs r u i hr
theorem rd (h : a.Changes ps rs b) {f : Fld} (hf : f.reg ∉ rs := by decide) (u i : Nat) : b.rd f u i = a.rd f u i :=
  Dev.rd_of_sameRegs h.regs hf u i
theorem on (h : a.Changes ps rs b) {f : Fld} (hf : f.reg ∉ rs := by decide) (u i : Nat) : b.on f u i = a.on f u i := by
  simp only [Dev.on, h.rd hf]

theorem tick (h : a.Changes ps rs b) (hp : Part.tick ∉ ps := by decide) : b.tick = a.tick := h.parts .tick hp
theorem freeCtr (h : a.Changes ps rs b) (hp : Part.freeCtr ∉ ps := by decide) : b.freeCtr = a.freeCtr := h.parts .freeCtr hp
theorem out (h : a.Changes ps rs b) (hp : Part.out ∉ ps := by decide) : b.out = a.out := h.parts .out hp
theorem cfg (h : a.Changes ps rs b) (hp : Part.cfg ∉ ps := by decide) : b.cfg = a.cfg := h.parts .cfg hp
theorem time (h : a.Changes ps rs b) (hp : Part.time ∉ ps := by decide) : b.time = a.time := h.parts .time hp
theorem sw (h : a.Changes ps rs b) (hp : Part.sw ∉ ps := by decide) : b.sw = a.sw := h.parts .sw hp
theorem fw (h : a.Changes ps rs b) (hp : Part.fw ∉ ps := by decide) : b.fw = a.fw := h.parts .fw hp
theorem sy (h : a.Changes ps rs b) (hp : Part.sy ∉ ps := by decide) : b.sy = a.sy := h.parts .sy hp
theorem ln (h : a.Changes ps rs b) (hp : Part.ln ∉ ps := by decide) : b.ln = a.ln := h.parts .ln hp
theorem pw (h : a.Changes ps rs b) (hp : Part.pw ∉ ps := by decide) : b.pw = a.pw := h.parts .pw hp
theorem parserDrops (h : a.Changes ps rs b) (hp : Part.parserDrops ∉ ps := by decide) : b.parserDrops = a.parserDrops :=
  h.parts .parserDrops hp

/-- A command whose effect changes those parts leaves the rest of the machine, the blocks that report quiesced aside. -/
theorem keepsBut {s : State} {e : Dev} (h : s.dev.Changes ps rs e) : KeepsBut (.quiesced :: ps) s (s.after fun _ => e) := by
  intro p hp
  have hsame := h.parts p fun hm => hp (List.mem_cons_of_mem _ hm)
  cases p with
  | quiesced => exact absurd List.mem_cons_self hp
  | pending | fuses | flash | pend => rfl
  | _ => exact hsame

theorem keepsBut_of_subset {s : State} {e : Dev} (h : s.dev.Changes ps rs e) {l : List Part}
    (hl : ∀ p ∈ Part.quiesced :: ps, p ∈ l := by decide) : KeepsBut l s (s.after fun _ => e) :=
  fun p hp => h.keepsBut p fun hm => hp (hl p hm)

theorem regsKeptBut {s : State} {e : Dev} (h : s.dev.Changes ps rs e) : RegsKeptBut rs s (s.after fun _ => e) := h.regs

/-- A count that one operation raises and those before and after it leave. -/
theorem counted {s : State} {d e : Dev} {f : Fld} {u i : Nat} (h : s.dev.Changes ps rs d)
    (k : (d.inc f u i 1).Changes ps' rs' e) (hr : f.reg ∉ rs := by decide) (hr' : f.reg ∉ rs' := by decide)
    (hf : f.hi < 64 := by decide) : Counted f u i s (s.after fun _ => e) := by
  refine (k.rd hr' u i).trans ?_
  rw [Dev.rd_inc_same _ _ _ _ _ hf, h.rd hr]

end Dev.Changes

-- One part --------------------------------------------------------------------------------------------------------------------------------

theorem Dev.changes_only {a b : Dev} (p : Part) (h : ∀ q, q ≠ p → q.same (State.ofDev a) (State.ofDev b)) {rs : List Reg}
    (hr : SameRegs rs a.regs b.regs) : a.Changes [p] rs b :=
  ⟨fun q hq => h q (by simpa using hq), hr⟩

theorem Dev.changes_regs (d : Dev) {rs : List Reg} {m : RegFile} (h : SameRegs rs d.regs m) : d.Changes [.regs] rs { d with regs := m } :=
  Dev.changes_only .regs (fun q _ => by cases q <;> trivial) h

theorem Dev.changes_sw (d : Dev) (x : SwState) : d.Changes [.sw] [] { d with sw := x } :=
  Dev.changes_only .sw (fun q _ => by cases q <;> trivial) (SameRegs.rfl' _ _)

theorem Dev.changes_tm (d : Dev) (x : TmState) : d.Changes [.tm] [] { d with tm := x } :=
  Dev.changes_only .tm (fun q _ => by cases q <;> trivial) (SameRegs.rfl' _ _)

theorem Dev.changes_fw (d : Dev) (x : FwdState) : d.Changes [.fw] [] { d with fw := x } :=
  Dev.changes_only .fw (fun q _ => by cases q <;> trivial) (SameRegs.rfl' _ _)

theorem Dev.changes_ln (d : Dev) (x : LinkState) : d.Changes [.ln] [] { d with ln := x } :=
  Dev.changes_only .ln (fun q _ => by cases q <;> trivial) (SameRegs.rfl' _ _)

theorem Dev.changes_sy (d : Dev) (x : SyncState) : d.Changes [.sy] [] { d with sy := x } :=
  Dev.changes_only .sy (fun q _ => by cases q <;> trivial) (SameRegs.rfl' _ _)

theorem Dev.changes_parserDrops (d : Dev) (x : SMap Nat) : d.Changes [.parserDrops] [] { d with parserDrops := x } :=
  Dev.changes_only .parserDrops (fun q _ => by cases q <;> trivial) (SameRegs.rfl' _ _)

theorem Dev.changes_emit (d : Dev) (o : Output) : d.Changes [.out] [] (d.emit o) :=
  Dev.changes_only .out (fun q _ => by cases q <;> trivial) (SameRegs.rfl' _ _)

theorem Dev.changes_fresh (d : Dev) : d.Changes [.freeCtr] [] d.fresh.1 :=
  Dev.changes_only .freeCtr (fun q _ => by cases q <;> trivial) (SameRegs.rfl' _ _)

-- Registers and records -------------------------------------------------------------------------------------------------------------------

/-- The programmable counters. -/
abbrev cntRegList : List Reg := [.CNT_VAL, .CNT_CTRL]

theorem Dev.changes_wr (d : Dev) (f : Fld) (u i v : Nat) : d.Changes [.regs] [f.reg] (d.wr f u i v) := d.changes_regs (sameRegs_fldPut _ _ _ _ _)

theorem Dev.changes_inc (d : Dev) (f : Fld) (u i n : Nat) : d.Changes [.regs] [f.reg] (d.inc f u i n) := d.changes_wr f u i _

theorem Dev.changes_dec (d : Dev) (f : Fld) (u i n : Nat) : d.Changes [.regs] [f.reg] (d.dec f u i n) := d.changes_wr f u i _

theorem Dev.changes_peak (d : Dev) (f : Fld) (u i v : Nat) : d.Changes [.regs] [f.reg] (d.peak f u i v) := by
  unfold Dev.peak
  split
  · exact d.changes_wr f u i v
  · exact .rfl' _ _ d

theorem Dev.changes_cntPC (d : Dev) (c : CntSet) (ev : Nat) (port cls : Option Nat) (n : Nat) :
    d.Changes [.regs] cntRegList (d.cntPC c ev port cls n) := by
  unfold Dev.cntPC
  split
  · exact d.changes_regs (sameRegs_cntRegs d.regs c ev port cls n)
  · exact .rfl' _ _ d

theorem Dev.changes_injectHit (d : Dev) (target die words : Nat) :
    d.Changes [.regs] [.HUB_INJ_CTRL, .HUB_INJ_STAT] (d.injectHit target die words).1 := by
  refine Dev.changes_only .regs (fun p hp => ?_) (sameRegs_injectHit d target die words)
  cases p with
  | regs => exact absurd rfl hp
  | _ => simp [Part.same]

theorem Dev.changes_logErr (d : Dev) (b : ErrBlk) (u code : Nat) (detail : Word) :
    d.Changes [.regs, .ev] loggingRegs (d.logErr b u code detail) := by
  refine ⟨fun p hp => ?_, ?_⟩
  · cases p with
    | regs | ev => exact absurd hp (by decide)
    | _ => simp [Part.same]
  · have hlatch := (sameRegs_latchErr d b u code detail).weaken (l' := loggingRegs) (by cases b <;> decide)
    exact hlatch.trans ((sameRegs_logErr_latchErr d b u code detail).weaken (by decide))

theorem Dev.changes_event (d : Dev) (b : ErrBlk) (inst code : Nat) (e2 e3 : Word) :
    d.Changes [.regs, .ev] lossRegs (d.event b inst code e2 e3) := by
  refine ⟨fun p hp => ?_, sameRegs_event d b inst code e2 e3⟩
  cases p with
  | regs | ev => exact absurd hp (by decide)
  | _ => simp [Part.same]

end Sys2Proof.Machine
end

section
/-! PROOF. What the switch's operations change: credits, cells, copies, counts, and the end of a transmission. -/

namespace Sys2Proof.Machine

set_option Elab.async false

/-- The registers that the passage of frames through the switch writes, the counters and error registers among them. -/
def passRegs : List Reg :=
  ([.SWC_DROP_CNT, .SWC_REQ_STAT, .SWC_POOL_STAT, .SWC_FREE_STAT, .SWC_STAGE_STAT, .TM_CRD_STAT, .TM_ADM_STAT, .TM_ADM_WAIT_CNT,
   .TM_DROP_CNT, .D2D_DROP_CNT, .FWD_DROP_CNT] : List Reg) ++ loggingRegs

/-- The field in which a block counts its drops (Table 18.1). -/
def ErrBlk.dropFld : ErrBlk → Fld
  | .SWC => F.SWC_DROP_CNT_frames
  | .TM => F.TM_DROP_CNT_frames
  | .FWD => F.FWD_DROP_CNT_frames
  | .SYNC => F.SYNC_DROP_CNT_frames
  | _ => F.MGT_DROP_CNT_frames

theorem Dev.dropCnt_eq (d : Dev) (b : ErrBlk) (u k : Nat) (port cls : Option Nat) :
    d.dropCnt b u k port cls = (d.inc b.dropFld u k 1).cntPC (b.set u) (0x100 + k) port cls 1 := by
  cases b <;> rfl

theorem Dev.changes_dropCnt (d : Dev) (b : ErrBlk) (u k : Nat) (port cls : Option Nat) :
    d.Changes [.regs] (b.dropFld.reg :: cntRegList) (d.dropCnt b u k port cls) := by
  rw [Dev.dropCnt_eq]
  exact ((d.changes_inc _ u k 1).weaken (by simp) (by simp)).andThen (Dev.changes_cntPC ..) (by simp) (by simp)

-- Credits (R107) --------------------------------------------------------------------------------------------------------------------------

theorem Dev.changes_owe (d : Dev) (port cls n : Nat) : d.Changes [.regs] [.TM_CRD_STAT] (d.owe port cls n) := by
  unfold Dev.owe
  split
  · exact .rfl' _ _ d
  · exact d.changes_inc F.TM_CRD_STAT_owed _ _ _

theorem Dev.changes_oweFrame (d : Dev) (o : Origin) (cls len : Nat) : d.Changes [.regs] [.TM_CRD_STAT] (d.oweFrame o cls len) := by
  unfold Dev.oweFrame
  split
  · exact d.changes_owe ..
  · exact .rfl' _ _ d

/-- Credits returned for frames whose last cell went: the frames held elsewhere in the switch stay. -/
theorem Dev.creditCell_eq (d : Dev) (k : Nat) : ∃ (holds : List CreditHold) (gone : List CreditHold),
    d.creditCell k = ({ d with sw := { d.sw with holds := holds } } : Dev).each gone fun d h => d.owe h.port h.cls h.credits :=
  ⟨_, _, rfl⟩

theorem Dev.changes_owes (d : Dev) (gone : List CreditHold) :
    d.Changes [.regs] [.TM_CRD_STAT] (d.each gone fun d h => d.owe h.port h.cls h.credits) :=
  .each (fun d _ => d.changes_owe ..) d gone

theorem Dev.changes_creditCell (d : Dev) (k : Nat) : d.Changes [.regs, .sw] [.TM_CRD_STAT] (d.creditCell k) := by
  obtain ⟨holds, gone, h⟩ := d.creditCell_eq k
  rw [h]
  exact ((d.changes_sw _).weaken).andThen (Dev.changes_owes ..)

/-- What the return of credits leaves of the switch. -/
theorem Dev.creditCell_sw (d : Dev) (k : Nat) : ∃ holds, (d.creditCell k).sw = { d.sw with holds := holds } := by
  obtain ⟨holds, gone, h⟩ := d.creditCell_eq k
  exact ⟨holds, by rw [h, (Dev.changes_owes _ gone).sw]⟩

-- Cells (R73, R79) ------------------------------------------------------------------------------------------------------------------------

/-- A device with a cell off its bitmap, its owner's counts still to fall. -/
def Dev.cellGone (d : Dev) (k : Nat) : Dev :=
  { d with sw := { d.sw with cells := smErase d.sw.cells k, opens := d.sw.opens.filter fun o => o.2.1 != k } }

/-- The owner's counts after one of its cells is freed; a control buffer cell has no owner (R81). -/
def Dev.uncharge (d : Dev) (k owner : Nat) (port cls : Option Nat) : Dev :=
  if isCtl k then d else
    (((d.dec F.SWC_REQ_STAT_in_use (k / 1048576) owner 1).dec F.SWC_POOL_STAT_in_use (k / 1048576)
      (d.rd F.SWC_REQ_CFG_pool (k / 1048576) owner) 1).wr F.SWC_FREE_STAT_free_cells (k / 1048576) 0
        (d.freeCells (k / 1048576) + 1)).cntPC ⟨k / 1048576, 1⟩ 3 port cls 1

theorem Dev.changes_uncharge (d : Dev) (k owner : Nat) (port cls : Option Nat) :
    d.Changes [.regs] passRegs (d.uncharge k owner port cls) := by
  unfold Dev.uncharge
  split
  · exact .rfl' _ _ d
  · exact ((((d.changes_dec ..).weaken).andThen (Dev.changes_dec ..)).andThen (Dev.changes_wr ..)).andThen (Dev.changes_cntPC ..)

theorem Dev.freeCell_of_used {d : Dev} {k : Nat} {i : CellInfo} (h : smFind d.sw.cells k = some i) (port cls : Option Nat) :
    d.freeCell k port cls = ((d.cellGone k).uncharge k i.owner port cls).creditCell k := by
  unfold Dev.freeCell
  rw [h]
  rfl

theorem Dev.freeCell_of_free {d : Dev} {k : Nat} (h : smFind d.sw.cells k = none) (port cls : Option Nat) :
    d.freeCell k port cls = d.logErr .SWC (k / 1048576) 1 (swcDetail 0 (cellNo k)) := by
  unfold Dev.freeCell
  rw [h]

theorem Dev.changes_freeCell (d : Dev) (k : Nat) (port cls : Option Nat) :
    d.Changes [.regs, .sw, .ev] passRegs (d.freeCell k port cls) := by
  cases h : smFind d.sw.cells k with
  | none =>
    rw [Dev.freeCell_of_free h]
    exact (d.changes_logErr ..).weaken
  | some i =>
    rw [Dev.freeCell_of_used h]
    exact (((d.changes_sw _).weaken).andThen ((d.cellGone k).changes_uncharge ..)).andThen (Dev.changes_creditCell ..)

/-- Freeing a cell changes the switch's cells, open cells and credits alone. -/
theorem Dev.freeCell_sw (d : Dev) (k : Nat) (port cls : Option Nat) : ∃ opens holds,
    (d.freeCell k port cls).sw = { d.sw with cells := smErase d.sw.cells k, opens := opens, holds := holds } ∨
    smFind d.sw.cells k = none ∧ (d.freeCell k port cls).sw = d.sw := by
  cases h : smFind d.sw.cells k with
  | none => exact ⟨[], [], .inr ⟨rfl, by rw [Dev.freeCell_of_free h, (d.changes_logErr ..).sw]⟩⟩
  | some i =>
    obtain ⟨holds, hsw⟩ := ((d.cellGone k).uncharge k i.owner port cls).creditCell_sw k
    exact ⟨_, holds, .inl (by rw [Dev.freeCell_of_used h, hsw, ((d.cellGone k).changes_uncharge ..).sw]; rfl)⟩

theorem Dev.changes_unrefCell (d : Dev) (k : Nat) (port cls : Option Nat) :
    d.Changes [.regs, .sw, .ev] passRegs (d.unrefCell k port cls) := by
  unfold Dev.unrefCell
  split
  · exact d.changes_freeCell ..
  · split
    · exact d.changes_freeCell ..
    · exact (d.changes_sw _).weaken

/-- Giving up a cell changes the switch's cells, open cells and credits alone. -/
theorem Dev.unrefCell_sw (d : Dev) (k : Nat) (port cls : Option Nat) : ∃ cells opens holds,
    (d.unrefCell k port cls).sw = { d.sw with cells := cells, opens := opens, holds := holds } := by
  have hfree : ∃ cells opens holds, (d.freeCell k port cls).sw = { d.sw with cells := cells, opens := opens, holds := holds } := by
    obtain ⟨opens, holds, h | ⟨-, h⟩⟩ := d.freeCell_sw k port cls
    · exact ⟨_, opens, holds, h⟩
    · exact ⟨_, _, _, h⟩
  unfold Dev.unrefCell
  split
  · exact hfree
  · split
    · exact hfree
    · exact ⟨_, _, _, rfl⟩

/-- A used cell loses a reader, and is free when that was its last. -/
theorem Dev.smFind_unrefCell {d : Dev} {k : Nat} {i : CellInfo} (h : smFind d.sw.cells k = some i) (port cls : Option Nat) :
    smFind (d.unrefCell k port cls).sw.cells k = if i.refs ≤ 1 then none else some { i with refs := i.refs - 1 } := by
  unfold Dev.unrefCell
  rw [h]
  dsimp only
  split
  · obtain ⟨opens, holds, hsw | ⟨hnone, -⟩⟩ := d.freeCell_sw k port cls
    · rw [hsw]
      exact smFind_smErase_same _ _
    · rw [h] at hnone
      cases hnone
  · exact smFind_smInsert_same _ _ _

theorem Dev.changes_unrefCells (d : Dev) (ks : List Nat) (port cls : Option Nat) :
    d.Changes [.regs, .sw, .ev] passRegs (d.each ks fun d k => d.unrefCell k port cls) :=
  .each (fun d _ => d.changes_unrefCell ..) d ks

theorem Dev.unrefCells_tx (d : Dev) (ks : List Nat) (port cls : Option Nat) :
    (d.each ks fun d k => d.unrefCell k port cls).sw.tx = d.sw.tx := by
  refine Dev.each_same (·.sw.tx) (fun d k => ?_) d ks
  obtain ⟨_, _, _, h⟩ := d.unrefCell_sw k port cls
  rw [h]

-- Multicast records (R89) -----------------------------------------------------------------------------------------------------------------

/-- The requester's count of records after one of them ends. -/
def Dev.unrecord (d : Dev) (r : McRecord) : Dev :=
  match r.requester with
  | some q => d.dec F.SWC_REQ_STAT_rec_in_use r.die q 1
  | none => d

theorem Dev.changes_unrecord (d : Dev) (r : McRecord) : d.Changes [.regs] [.SWC_REQ_STAT] (d.unrecord r) := by
  unfold Dev.unrecord
  split
  · exact d.changes_dec F.SWC_REQ_STAT_rec_in_use _ _ _
  · exact .rfl' _ _ d

/-- A copy of a record is done: the record has none left, ends with its cells, or counts one less. -/
theorem Dev.recordDone_cases (d : Dev) (die id : Nat) (port cls : Option Nat) :
    d.recordDone die id port cls = d.logErr .SWC die 8 0 ∨
    (∃ r, d.recordDone die id port cls =
      (({ d with sw := { d.sw with mrecs := smErase d.sw.mrecs id } } : Dev).unrecord r).each r.cells fun d k => d.unrefCell k port cls) ∨
    ∃ mrecs, d.recordDone die id port cls = { d with sw := { d.sw with mrecs := mrecs } } := by
  unfold Dev.recordDone
  split
  · exact .inl rfl
  next r _ =>
    split
    · exact .inr (.inl ⟨r, rfl⟩)
    · exact .inr (.inr ⟨_, rfl⟩)

theorem Dev.changes_recordDone (d : Dev) (die id : Nat) (port cls : Option Nat) :
    d.Changes [.regs, .sw, .ev] passRegs (d.recordDone die id port cls) := by
  obtain h | ⟨r, h⟩ | ⟨mrecs, h⟩ := d.recordDone_cases die id port cls <;> rw [h]
  · exact (d.changes_logErr ..).weaken
  · exact (((d.changes_sw _).weaken).andThen (Dev.changes_unrecord _ r)).andThen (Dev.changes_unrefCells ..)
  · exact (d.changes_sw _).weaken

theorem Dev.recordDone_tx (d : Dev) (die id : Nat) (port cls : Option Nat) : (d.recordDone die id port cls).sw.tx = d.sw.tx := by
  obtain h | ⟨r, h⟩ | ⟨mrecs, h⟩ := d.recordDone_cases die id port cls <;> rw [h]
  · rw [(d.changes_logErr ..).sw]
  · rw [Dev.unrefCells_tx, (Dev.changes_unrecord _ r).sw]

-- Counts of a frame (R102, R113) ----------------------------------------------------------------------------------------------------------

theorem Dev.changes_admFall (d : Dev) (x : Desc) : d.Changes [.regs, .ev] passRegs (d.admFall x) := by
  unfold Dev.admFall
  split
  · dsimp only
    split
    · exact ((d.changes_wr ..).weaken).andThen (Dev.changes_logErr ..)
    · exact (d.changes_wr ..).weaken
  · exact .rfl' _ _ d

theorem Dev.changes_satSweep (d : Dev) : d.Changes [.tm] [] d.satSweep := d.changes_tm _

end Sys2Proof.Machine
end

section
/-! PROOF. Frames leave: departures, staged cells and acknowledgements (O6). -/

namespace Sys2Proof.Machine

set_option Elab.async false

-- Departure (R64, R69, R73) ---------------------------------------------------------------------------------------------------------------

/-- The frame that a port sends for a descriptor: one that arrived on a port has its hop limit lowered (R64). -/
def Desc.leaving (x : Desc) : Frame := if x.origin.port?.isSome then Frame.departed x.frame else x.frame

theorem Dev.changes_frameOut (d : Dev) (port : Nat) (x : Desc) (stomp : Bool) :
    d.Changes [.regs, .ln, .out] cntRegList (d.frameOut port x stomp) :=
  (((((d.changes_ln _).weaken).andThen (Dev.changes_emit _ _)).andThen (Dev.changes_cntPC ..)).andThen (Dev.changes_cntPC ..))

theorem Dev.frameOut_out (d : Dev) (port : Nat) (x : Desc) (stomp : Bool) :
    (d.frameOut port x stomp).out = d.out ++ [.frame port x.leaving stomp] := by
  simp only [Dev.frameOut, Desc.leaving, Dev.cntPC_keeps]
  rfl

/-- The cells that a port's transmission held on its ingress die are given back. -/
def Dev.giveBack (d : Dev) (port : Nat) (x : Desc) : Dev :=
  match x.mrec with
  | some id => d.recordDone x.die id (some port) (some x.cls)
  | none => if x.die = laneDie port then d.each x.cells fun d k => d.unrefCell k (some port) (some x.cls) else d

theorem Dev.changes_giveBack (d : Dev) (port : Nat) (x : Desc) : d.Changes [.regs, .sw, .ev] passRegs (d.giveBack port x) := by
  unfold Dev.giveBack
  split
  · exact d.changes_recordDone ..
  · split
    · exact d.changes_unrefCells ..
    · exact .rfl' _ _ d

theorem Dev.giveBack_tx (d : Dev) (port : Nat) (x : Desc) : (d.giveBack port x).sw.tx = d.sw.tx := by
  unfold Dev.giveBack
  split
  · exact d.recordDone_tx ..
  · split
    · exact d.unrefCells_tx ..
    · rfl

/-- The device with no transmission at a port and its staging cells free. -/
def Dev.txGone (d : Dev) (port : Nat) (t : Tx) : Dev :=
  ({ d with sw := { d.sw with tx := smErase d.sw.tx port } } : Dev).dec F.SWC_STAGE_STAT_in_use (laneDie port) 0 t.staged

theorem Dev.changes_txGone (d : Dev) (port : Nat) (t : Tx) : d.Changes [.regs, .sw] [.SWC_STAGE_STAT] (d.txGone port t) :=
  ((d.changes_sw _).weaken).andThen (Dev.changes_dec _ F.SWC_STAGE_STAT_in_use _ _ _)

theorem Dev.endTx_eq (d : Dev) (port : Nat) (t : Tx) :
    d.endTx port t = (((d.txGone port t).giveBack port t.desc).admFall t.desc).satSweep := rfl

theorem Dev.changes_endTx (d : Dev) (port : Nat) (t : Tx) : d.Changes [.regs, .sw, .tm, .ev] passRegs (d.endTx port t) :=
  ((((d.changes_txGone port t).weaken).andThen (Dev.changes_giveBack ..)).andThen (Dev.changes_admFall ..)).andThen
    (Dev.changes_satSweep _)

/-- A port whose transmission ended is idle. -/
theorem Dev.smFind_endTx (d : Dev) (port : Nat) (t : Tx) : smFind (d.endTx port t).sw.tx port = none := by
  rw [Dev.endTx_eq, (Dev.changes_satSweep _).sw, (Dev.changes_admFall ..).sw, Dev.giveBack_tx]
  exact smFind_smErase_same _ _

/-- An intact frame that is no result leaves as it is, and its transmission ends. -/
theorem Dev.frameDeparture_of_intact {d : Dev} {port : Nat} {x : Tx} (hx : smFind d.sw.tx port = some x)
    (hcells : x.desc.die = laneDie port ∨ x.desc.cells.length ≤ x.staged) (hflip : x.desc.flip = 0) (hres : x.desc.result = none)
    (hshed : d.shed < 5) : d.frameDeparture port .none = (d.frameOut port x.desc x.stomp).endTx port x := by
  have hgo : ¬ (5 ≤ d.shed ∨ ¬ x.desc.die = laneDie port ∧ x.staged < x.desc.cells.length) := by omega
  unfold Dev.frameDeparture
  simpa [hx, hflip, hres, Dev.copyDone] using fun h => absurd h hgo

theorem exec_frameDeparture (port : LaneId) (fault : CellFault) (s : State) :
    exec (.frameDeparture port fault) s = .next (s.after fun d => d.frameDeparture port.val fault) := rfl

theorem frameDeparture_leaves {s : State} {port : LaneId} {x : Tx} (hx : smFind s.dev.sw.tx port.val = some x)
    (hcells : x.desc.die = laneDie port.val ∨ x.desc.cells.length ≤ x.staged) (hflip : x.desc.flip = 0) (hres : x.desc.result = none)
    (hshed : s.dev.shed < 5) : ∃ t, exec (.frameDeparture port .none) s = .next t ∧ smFind t.dev.sw.tx port.val = none ∧
      t.dev.out = s.dev.out ++ [.frame port.val x.desc.leaving x.stomp] ∧
      KeepsBut [.regs, .out, .sw, .tm, .ln, .ev, .quiesced] s t := by
  have hout := s.dev.changes_frameOut port.val x.desc x.stomp
  have hend := (s.dev.frameOut port.val x.desc x.stomp).changes_endTx port.val x
  have hall : s.dev.Changes [.regs, .out, .sw, .tm, .ln, .ev] passRegs _ := hout.weaken.andThen hend
  rw [exec_frameDeparture, State.after_eq (Dev.frameDeparture_of_intact hx hcells hflip hres hshed)]
  exact ⟨_, rfl, Dev.smFind_endTx .., hend.out.trans (Dev.frameOut_out ..), hall.keepsBut_of_subset⟩

-- Staging (R82, R83) ----------------------------------------------------------------------------------------------------------------------

theorem Dev.changes_commitRead (d : Dev) (x : Desc) (c : Nat) : d.Changes [.sw] [] (d.commitRead x c) := by
  unfold Dev.commitRead
  split
  · exact d.changes_sw _
  · exact .rfl' _ _ d

/-- Reading a cell may commit it (R23); nothing else of the switch changes. -/
theorem Dev.commitRead_sw (d : Dev) (x : Desc) (c : Nat) : ∃ opens, (d.commitRead x c).sw = { d.sw with opens := opens } := by
  unfold Dev.commitRead
  split
  · exact ⟨_, rfl⟩
  · exact ⟨_, rfl⟩

/-- The counts of a cell that enters staging at a port (R82, Table 18.1). -/
def Dev.countStaged (d : Dev) (port cls : Nat) : Dev :=
  let e := laneDie port
  let n := d.rd F.SWC_STAGE_STAT_in_use e 0 + 1
  let d := (d.wr F.SWC_STAGE_STAT_in_use e 0 n).peak F.SWC_STAGE_STAT_peak e 0 n
  (d.cntPC ⟨e, 1⟩ 5 (some port) (some cls) 1).cntPC ⟨e, 6⟩ 3 (some port) (some cls) 1

theorem Dev.changes_countStaged (d : Dev) (port cls : Nat) :
    d.Changes [.regs] [.SWC_STAGE_STAT, .CNT_VAL, .CNT_CTRL] (d.countStaged port cls) :=
  ((((d.changes_wr F.SWC_STAGE_STAT_in_use _ _ _).weaken).andThen (Dev.changes_peak _ F.SWC_STAGE_STAT_peak _ _ _)).andThen
    (Dev.changes_cntPC ..)).andThen (Dev.changes_cntPC ..)

/-- What the switch holds once cell `c` of the frame in transmission at a port has entered staging. -/
def Dev.stagedSw (d : Dev) (port : Nat) (x : Tx) (c : Nat) : SwState :=
  { (d.commitRead x.desc c).sw with
    tx := smInsert d.sw.tx port { x with staged := x.staged + 1 }
    acks := if x.desc.mrec.isSome then d.sw.acks
      else d.sw.acks ++ [⟨x.desc.die, x.desc.id, x.desc.frame.block, c, some port, x.desc.cls⟩] }

section Staging

variable {d : Dev} {port : Nat} {x : Tx} {c : Nat}

theorem Dev.stagingArrival_of_apart (hx : smFind d.sw.tx port = some x) (hpeer : d.peerOk = false) : d.stagingArrival port = d := by
  unfold Dev.stagingArrival
  simp [hx, hpeer]

theorem Dev.stagingArrival_of_full (hx : smFind d.sw.tx port = some x) (hdie : x.desc.die ≠ laneDie port)
    (hc : x.desc.cells[x.staged]? = some c) (hroom : d.stageWindow port x.desc.cls ≤ x.staged) (hpeer : d.peerOk = true) :
    d.stagingArrival port = d.logErr .SWC (laneDie port) 7 (swcDetail (errReq x.desc.origin x.desc.cls) (cellNo c)) := by
  unfold Dev.stagingArrival
  simp [hx, hpeer, hdie, hc, hroom]

theorem Dev.stagingArrival_of_room (hx : smFind d.sw.tx port = some x) (hdie : x.desc.die ≠ laneDie port)
    (hc : x.desc.cells[x.staged]? = some c) (hroom : x.staged < d.stageWindow port x.desc.cls) (hpeer : d.peerOk = true) :
    d.stagingArrival port = { (d.commitRead x.desc c).countStaged port x.desc.cls with sw := d.stagedSw port x c } := by
  have hsw := ((d.commitRead x.desc c).changes_countStaged port x.desc.cls).sw
  obtain ⟨opens, hopens⟩ := d.commitRead_sw x.desc c
  have heq : d.stagingArrival port = { (d.commitRead x.desc c).countStaged port x.desc.cls with
      sw := { ((d.commitRead x.desc c).countStaged port x.desc.cls).sw with
        tx := smInsert ((d.commitRead x.desc c).countStaged port x.desc.cls).sw.tx port { x with staged := x.staged + 1 }
        acks := if x.desc.mrec.isSome then ((d.commitRead x.desc c).countStaged port x.desc.cls).sw.acks
          else ((d.commitRead x.desc c).countStaged port x.desc.cls).sw.acks ++
            [⟨x.desc.die, x.desc.id, x.desc.frame.block, c, some port, x.desc.cls⟩] } } := by
    unfold Dev.stagingArrival
    simp only [hx, hpeer, hdie, hc, Nat.not_le.mpr hroom, if_false, Bool.not_true, Bool.or_false, decide_false, Bool.false_eq_true]
    rfl
  rw [heq, hsw]
  simp only [Dev.stagedSw, hopens]

end Staging

/-- An error that is all a command does. -/
theorem logged_after (s : State) (b : ErrBlk) (u : Nat) {code : Nat} (hc : code < 64) (detail : Word) :
    Logged b u code s (s.after fun _ => s.dev.logErr b u code detail) := by
  have h := logged_after_logErr (s := s) (f := fun d => d) b u hc detail rfl
  rwa [State.after_eq (f := fun d => d.logErr b u code detail) rfl] at h

theorem exec_stagingCellArrival (port : LaneId) (s : State) :
    exec (.stagingCellArrival port) s = .next (s.after fun d => d.stagingArrival port.val) := rfl

theorem stagingCellArrival_enters {s : State} {port : LaneId} {x : Tx} {c : Nat} (hx : smFind s.dev.sw.tx port.val = some x)
    (hdie : x.desc.die ≠ laneDie port.val) (hc : x.desc.cells[x.staged]? = some c)
    (hroom : x.staged < s.dev.stageWindow port.val x.desc.cls) (hpeer : s.dev.peerOk = true) :
    ∃ t, exec (.stagingCellArrival port) s = .next t ∧ t.dev.sw = s.dev.stagedSw port.val x c ∧
      RegsKeptBut [.SWC_STAGE_STAT, .CNT_VAL, .CNT_CTRL] s t ∧ KeepsBut [.regs, .sw, .quiesced] s t := by
  have hcounted : s.dev.Changes [.regs, .sw] [.SWC_STAGE_STAT, .CNT_VAL, .CNT_CTRL] _ :=
    ((s.dev.changes_commitRead x.desc c).weaken).andThen (Dev.changes_countStaged _ port.val x.desc.cls)
  have hall := hcounted.andThen (Dev.changes_sw _ (s.dev.stagedSw port.val x c))
  rw [exec_stagingCellArrival, State.after_eq (Dev.stagingArrival_of_room hx hdie hc hroom hpeer)]
  exact ⟨_, rfl, rfl, hall.regsKeptBut, hall.keepsBut_of_subset⟩

theorem stagingCellArrival_overruns {s : State} {port : LaneId} {x : Tx} {c : Nat} (hx : smFind s.dev.sw.tx port.val = some x)
    (hdie : x.desc.die ≠ laneDie port.val) (hc : x.desc.cells[x.staged]? = some c)
    (hroom : s.dev.stageWindow port.val x.desc.cls ≤ x.staged) (hpeer : s.dev.peerOk = true) :
    ∃ t, exec (.stagingCellArrival port) s = .next t ∧ Logged .SWC (laneDie port.val) 7 s t ∧
      RegsKeptBut loggingRegs s t ∧ KeepsBut [.regs, .ev, .quiesced] s t := by
  have hlog := s.dev.changes_logErr .SWC (laneDie port.val) 7 (swcDetail (errReq x.desc.origin x.desc.cls) (cellNo c))
  rw [exec_stagingCellArrival, State.after_eq (Dev.stagingArrival_of_full hx hdie hc hroom hpeer)]
  exact ⟨_, rfl, logged_after s .SWC _ (by decide) _, hlog.regsKeptBut, hlog.keepsBut_of_subset⟩

-- Acknowledgements (R24) ------------------------------------------------------------------------------------------------------------------

/-- The device with the oldest acknowledgement to a die taken. -/
def Dev.ackTaken (d : Dev) (die : Nat) : Dev := { d with sw := { d.sw with acks := d.sw.acks.eraseP fun b => b.die == die } }

theorem Dev.pullAck_eq {d : Dev} {die : Nat} {a : Ack} (h : d.sw.acks.find? (fun a => a.die == die) = some a) :
    d.pullAck die = ((d.ackTaken die).unrefCell a.cell a.port (some a.cls)).satSweep := by
  unfold Dev.pullAck
  rw [h]
  rfl

theorem exec_pullAcknowledge (die : DieId) (s : State) :
    exec (.pullAcknowledge die) s = .next (s.after fun d => d.pullAck die.val) := rfl

theorem pullAcknowledge_takes {s : State} {die : DieId} {a : Ack} (h : s.dev.sw.acks.find? (fun a => a.die == die.val) = some a) :
    ∃ t, exec (.pullAcknowledge die) s = .next t ∧ t.dev.sw.acks = s.dev.sw.acks.eraseP (fun b => b.die == die.val) ∧
      (∀ i, smFind s.dev.sw.cells a.cell = some i → smFind t.dev.sw.cells a.cell =
        if i.refs ≤ 1 then none else some { i with refs := i.refs - 1 }) ∧
      KeepsBut [.regs, .sw, .tm, .ev, .quiesced] s t := by
  obtain ⟨cells, opens, holds, hsw⟩ := (s.dev.ackTaken die.val).unrefCell_sw a.cell a.port (some a.cls)
  have hall : s.dev.Changes [.regs, .sw, .tm, .ev] passRegs _ :=
    (((s.dev.changes_sw _).weaken).andThen ((s.dev.ackTaken die.val).changes_unrefCell a.cell a.port (some a.cls))).andThen
      (Dev.changes_satSweep _)
  rw [exec_pullAcknowledge, State.after_eq (Dev.pullAck_eq h)]
  refine ⟨_, rfl, ?_, fun i hi => ?_, hall.keepsBut_of_subset⟩
  · simp only [State.after_dev, Dev.requiesce_keeps, (Dev.changes_satSweep _).sw, hsw]
    rfl
  · simp only [State.after_dev, Dev.requiesce_keeps, (Dev.changes_satSweep _).sw]
    exact Dev.smFind_unrefCell (d := s.dev.ackTaken die.val) hi _ _

/-- Settles O6: a departure is the frame going out and the end of its transmission, a staged cell is read, counted and acknowledged or
overruns its window, and an acknowledgement gives up one cell. -/
theorem framesLeave : Obligations.FramesLeave := by
  refine ⟨fun s port x hx hcells hflip hres hshed => frameDeparture_leaves hx hcells hflip hres hshed,
    fun s port x c hx hdie hc hroom hpeer => stagingCellArrival_enters hx hdie hc hroom hpeer,
    fun s port x c hx hdie hc hroom hpeer => stagingCellArrival_overruns hx hdie hc hroom hpeer,
    fun s port x hx _ hpeer => ?_, fun s die a h => pullAcknowledge_takes h⟩
  exact ⟨_, exec_stagingCellArrival port s, keepsBut_after_of_eq (Dev.stagingArrival_of_apart hx hpeer)⟩

end Sys2Proof.Machine
end

section
/-! PROOF. What a lookup leaves as it was: every answer that the path of a frame asks of the device (R74, R92, R123). -/

namespace Sys2Proof.Machine

set_option Elab.async false

/-- The device `b` is `a` after lookups, counts and errors alone: the switch and the configuration stay. -/
abbrev Dev.Looked (a b : Dev) : Prop := a.Changes [.regs, .ln, .fw, .ev] loggingRegs b

namespace Dev.Looked

variable {a b : Dev}

theorem rdAt (h : a.Looked b) {f : Fld} (hf : f.reg ∉ loggingRegs) (u i : Nat) : b.rd f u i = a.rd f u i := h.rd hf u i

theorem onAt (h : a.Looked b) {f : Fld} (hf : f.reg ∉ loggingRegs) (u i : Nat) : b.on f u i = a.on f u i := h.on hf u i

theorem rdwAt (h : a.Looked b) {r : Reg} (hr : r ∉ loggingRegs) (u i : Nat) : b.rdw r u i = a.rdw r u i := h.rdw hr u i

theorem linkUp (h : a.Looked b) (p : Nat) : b.linkUp p = a.linkUp p := by
  simp (disch := decide) only [Dev.linkUp, Dev.portState, h.rdAt]

theorem alone (h : a.Looked b) : b.alone = a.alone := by simp only [Dev.alone, h.time]

theorem admitted (h : a.Looked b) (die block : Nat) : b.admitted die block = a.admitted die block := by
  simp (disch := decide) only [Dev.admitted, h.alone, h.pw, h.rdwAt]

theorem peerOk (h : a.Looked b) : b.peerOk = a.peerOk := by simp (disch := decide) only [Dev.peerOk, h.onAt]

theorem portOpen (h : a.Looked b) (die p : Nat) : b.portOpen die p = a.portOpen die p := by
  simp (disch := decide) only [Dev.portOpen, Dev.reach, Dev.isPort, h.peerOk, h.cfg, h.linkUp, h.onAt]

theorem lossless (h : a.Looked b) (die req cls : Nat) : b.lossless die req cls = a.lossless die req cls := by
  simp (disch := decide) only [Dev.lossless, h.onAt, h.rdAt]

theorem meterOf (h : a.Looked b) (port cls : Nat) : b.meterOf port cls = a.meterOf port cls := by
  simp (disch := decide) only [Dev.meterOf, h.onAt, h.rdAt]

theorem liveMember (h : a.Looked b) (n m : Nat) : b.liveMember n m = a.liveMember n m := by
  simp (disch := decide) only [Dev.liveMember, h.cfg, h.linkUp, h.onAt]

theorem reachMask (h : a.Looked b) (die n : Nat) : b.reachMask die n = a.reachMask die n := by
  simp only [Dev.reachMask, Dev.liveMask, h.peerOk, h.cfg, h.liveMember]

theorem selMask (h : a.Looked b) (die n : Nat) : b.selMask die n = a.selMask die n := by
  simp (disch := decide) only [Dev.selMask, h.reachMask, h.rdwAt]

theorem pinMask (h : a.Looked b) (o : Origin) (n : Nat) : b.pinMask o n = a.pinMask o n := by
  simp (disch := decide) only [Dev.pinMask, h.sw, h.reachMask, h.selMask]

/-- The same member of a bundle is chosen (R93). -/
theorem chooseMember_snd (h : a.Looked b) (o : Origin) (n : Nat) (f : Frame) (dest0 : Nat) (avoid : Option Nat) :
    (b.chooseMember o n f dest0 avoid).2 = (a.chooseMember o n f dest0 avoid).2 := by
  unfold Dev.chooseMember
  simp (disch := decide) only [h.cfg, h.sw, h.selMask, h.pinMask, h.rdAt]
  split
  · rfl
  · split <;> split <;> simp only [*]

end Dev.Looked

/-- The choice of a member moves a round-robin pointer at most (R93). -/
theorem Dev.chooseMember_fst (d : Dev) (o : Origin) (n : Nat) (f : Frame) (dest0 : Nat) (avoid : Option Nat) :
    ∃ rr, (d.chooseMember o n f dest0 avoid).1 = { d with sw := { d.sw with rr := rr } } := by
  unfold Dev.chooseMember
  dsimp only
  split
  · exact ⟨d.sw.rr, rfl⟩
  · split <;> split
    · exact ⟨_, rfl⟩
    all_goals exact ⟨d.sw.rr, rfl⟩

-- Reading stored route entries (R143) -----------------------------------------------------------------------------------------------------

theorem Dev.looked_cnt (d : Dev) (c : CntSet) (ev : Nat) : d.Looked (d.cnt c ev) := (d.changes_cntPC c ev none none 1).weaken

/-- The routes after one stored entry was read: an error it held is corrected or poisons it. -/
def routesRead (m : SMap RouteEntry) (k : Nat) : SMap RouteEntry :=
  match smFind m k with
  | none => m
  | some e => if e.flip = 0 then m else smInsert m k { e with flip := 0, poisoned := e.poisoned || e.flip == 2 }

/-- Reading a stored entry puts its error right in the routes, and counts or logs it. -/
theorem Dev.readRoute_effect (d : Dev) (die k dfid : Nat) :
    ({ d with fw := { d.fw with routes := routesRead d.fw.routes k } } : Dev).Changes [.regs, .ev] loggingRegs
      (d.readRoute die k dfid) := by
  unfold Dev.readRoute routesRead
  cases h : smFind d.fw.routes k with
  | none => exact .rfl' _ _ _
  | some e =>
    dsimp only
    by_cases hflip : e.flip = 0
    · rw [if_pos hflip, if_pos hflip]
      exact .rfl' _ _ _
    · rw [if_neg hflip, if_neg hflip]
      split
      · exact (Dev.changes_cntPC ..).weaken
      · exact Dev.changes_logErr ..

theorem Dev.readRoute_fw (d : Dev) (die k dfid : Nat) : (d.readRoute die k dfid).fw = { d.fw with routes := routesRead d.fw.routes k } :=
  (d.readRoute_effect die k dfid).fw

theorem Dev.changes_readRoute (d : Dev) (die k dfid : Nat) : d.Changes [.regs, .fw, .ev] loggingRegs (d.readRoute die k dfid) :=
  ((d.changes_fw _).weaken).andThen (d.readRoute_effect die k dfid)

/-- The places that the lookup of one prefix length reads (R121). -/
def Dev.probeKeys (d : Dev) (die bank dfid n : Nat) : List Nat :=
  (d.rtBuckets die (dfid / 2 ^ (24 - n) * 2 ^ (24 - n)) n).flatMap fun b => (List.range 8).map fun s => rtKey die bank b s

/-- The entry that stands at those places for a prefix. -/
def routeAt (m : SMap RouteEntry) (ks : List Nat) (n p : Nat) : Option RouteEntry :=
  ks.findSome? fun k => match smFind m k with
    | some e => if e.len = n && e.pfx = p then some e else none
    | none => none

/-- What an entry says of its prefix. -/
def routeRes : Option RouteEntry → RouteRes
  | some e => if e.poisoned then .poisoned else .target e.kind e.target
  | none => .none

theorem Dev.probe_eq (d : Dev) (die bank dfid n : Nat) :
    d.probe die bank dfid n = (d.each (d.probeKeys die bank dfid n) fun d k => d.readRoute die k dfid,
      routeRes (routeAt (d.each (d.probeKeys die bank dfid n) fun d k => d.readRoute die k dfid).fw.routes
        (d.probeKeys die bank dfid n) n (dfid / 2 ^ (24 - n) * 2 ^ (24 - n)))) := by
  delta Dev.probe Dev.probeKeys
  generalize dfid / 2 ^ (24 - n) * 2 ^ (24 - n) = p
  dsimp only
  generalize (List.flatMap _ _) = ks
  generalize d.each ks _ = e
  split
  next x hfound => rw [show routeAt e.fw.routes ks n p = some x from hfound]; rfl
  next hfound => rw [show routeAt e.fw.routes ks n p = none from hfound]; rfl

theorem Dev.probe_fst (d : Dev) (die bank dfid n : Nat) :
    (d.probe die bank dfid n).1 = d.each (d.probeKeys die bank dfid n) fun d k => d.readRoute die k dfid := by
  rw [Dev.probe_eq]

theorem Dev.probe_snd (d : Dev) (die bank dfid n : Nat) : (d.probe die bank dfid n).2 =
    routeRes (routeAt (d.probe die bank dfid n).1.fw.routes (d.probeKeys die bank dfid n) n (dfid / 2 ^ (24 - n) * 2 ^ (24 - n))) := by
  rw [Dev.probe_eq]

theorem Dev.lpm_zero (d : Dev) (die bank dfid : Nat) :
    d.lpm die bank dfid 0 = if d.filterBit die bank dfid 0 then d.probe die bank dfid 0 else (d, .none) := rfl

/-- The lookup of a length, and of the shorter ones when it finds nothing. -/
theorem Dev.lpm_succ (d : Dev) (die bank dfid n : Nat) : d.lpm die bank dfid (n + 1) =
    if d.filterBit die bank dfid (n + 1) then
      if (d.probe die bank dfid (n + 1)).2 = .none then (d.probe die bank dfid (n + 1)).1.lpm die bank dfid n
      else d.probe die bank dfid (n + 1)
    else d.lpm die bank dfid n := by
  show (if d.filterBit die bank dfid (n + 1) then _ else _) = _
  generalize d.probe die bank dfid (n + 1) = r
  obtain ⟨e, found⟩ := r
  cases found with
  | none => rfl
  | target | poisoned => rfl

/-- Two devices with the same tables, whose registers differ in the counters and error registers alone. -/
def Dev.SameTables (a b : Dev) : Prop := b.fw = a.fw ∧ SameRegs loggingRegs a.regs b.regs

namespace Dev.SameTables

variable {a b : Dev}

theorem of_changes {ps : List Part} {rs : List Reg} (h : a.Changes ps rs b) (hp : Part.fw ∉ ps := by decide)
    (hr : ∀ r ∈ rs, r ∈ loggingRegs := by decide) : a.SameTables b := ⟨h.fw hp, h.regs.weaken hr⟩

/-- Two devices with the same tables have the same ones after an operation that does the same to both. -/
theorem after (h : a.SameTables b) {a' b' : Dev} {ps : List Part} (ha : a.Changes ps loggingRegs a') (hb : b.Changes ps loggingRegs b')
    (hfw : b'.fw = a'.fw) : a'.SameTables b' :=
  ⟨hfw, fun r u i hr => (hb.regs r u i hr).trans ((h.2 r u i hr).trans (ha.regs r u i hr).symm)⟩

theorem rdAt (h : a.SameTables b) {f : Fld} (hf : f.reg ∉ loggingRegs) (u i : Nat) : b.rd f u i = a.rd f u i :=
  Dev.rd_of_sameRegs h.2 hf u i

theorem onAt (h : a.SameTables b) {f : Fld} (hf : f.reg ∉ loggingRegs) (u i : Nat) : b.on f u i = a.on f u i := by
  simp only [Dev.on, h.rdAt hf]

theorem filterBit (h : a.SameTables b) (die bank dfid n : Nat) : b.filterBit die bank dfid n = a.filterBit die bank dfid n := by
  simp (disch := decide) only [Dev.filterBit, h.onAt, h.1]

theorem probeKeys (h : a.SameTables b) (die bank dfid n : Nat) : b.probeKeys die bank dfid n = a.probeKeys die bank dfid n := by
  simp (disch := decide) only [Dev.probeKeys, Dev.rtBuckets, Dev.hash1, Dev.hash2, h.rdAt]

theorem readRoute (h : a.SameTables b) (die k dfid : Nat) : (a.readRoute die k dfid).SameTables (b.readRoute die k dfid) :=
  h.after (a.changes_readRoute die k dfid) (b.changes_readRoute die k dfid) (by rw [Dev.readRoute_fw, Dev.readRoute_fw, h.1])

theorem readRoutes (h : a.SameTables b) (die dfid : Nat) (ks : List Nat) :
    (a.each ks fun d k => d.readRoute die k dfid).SameTables (b.each ks fun d k => d.readRoute die k dfid) := by
  induction ks generalizing a b with
  | nil => exact h
  | cons k ks ih => exact ih (h.readRoute die k dfid)

theorem probe_fst (h : a.SameTables b) (die bank dfid n : Nat) : (a.probe die bank dfid n).1.SameTables (b.probe die bank dfid n).1 := by
  rw [Dev.probe_fst, Dev.probe_fst, h.probeKeys]
  exact h.readRoutes ..

/-- The lookup of one length finds the same in both. -/
theorem probe_snd (h : a.SameTables b) (die bank dfid n : Nat) : (b.probe die bank dfid n).2 = (a.probe die bank dfid n).2 := by
  rw [Dev.probe_snd, Dev.probe_snd, h.probeKeys, (h.probe_fst die bank dfid n).1]

/-- So does the longest-prefix lookup. -/
theorem lpm (h : a.SameTables b) (die bank dfid n : Nat) : (b.lpm die bank dfid n).2 = (a.lpm die bank dfid n).2 := by
  induction n generalizing a b with
  | zero =>
    rw [Dev.lpm_zero, Dev.lpm_zero, h.filterBit]
    by_cases hbit : a.filterBit die bank dfid 0 = true
    · rw [if_pos hbit, if_pos hbit, h.probe_snd]
    · rw [if_neg hbit, if_neg hbit]
  | succ n ih =>
    rw [Dev.lpm_succ, Dev.lpm_succ, h.filterBit, h.probe_snd]
    by_cases hbit : a.filterBit die bank dfid (n + 1) = true
    · rw [if_pos hbit, if_pos hbit]
      by_cases hnone : (a.probe die bank dfid (n + 1)).2 = .none
      · rw [if_pos hnone, if_pos hnone, ih (h.probe_fst die bank dfid (n + 1))]
      · rw [if_neg hnone, if_neg hnone, h.probe_snd]
    · rw [if_neg hbit, if_neg hbit, ih h]

end Dev.SameTables

/-- What every read of a stored entry keeps, a whole lookup keeps. -/
theorem Dev.lpm_keeps {P : Dev → Dev → Prop} (hrfl : ∀ d, P d d) (htrans : ∀ {a b c}, P a b → P b c → P a c) {die bank dfid : Nat}
    (hread : ∀ (d : Dev) k, P d (d.readRoute die k dfid)) (d : Dev) (n : Nat) : P d (d.lpm die bank dfid n).1 := by
  have heach : ∀ (ks : List Nat) (d : Dev), P d (d.each ks fun d k => d.readRoute die k dfid) := by
    intro ks
    induction ks with
    | nil => exact hrfl
    | cons k ks ih => exact fun d => htrans (hread d k) (ih _)
  have hprobe : ∀ (d : Dev) n, P d (d.probe die bank dfid n).1 := fun d n => by
    rw [Dev.probe_fst]
    exact heach _ d
  induction n generalizing d with
  | zero =>
    rw [Dev.lpm_zero]
    split
    · exact hprobe d 0
    · exact hrfl d
  | succ n ih =>
    rw [Dev.lpm_succ]
    split
    · split
      · exact htrans (hprobe d (n + 1)) (ih _)
      · exact hprobe d (n + 1)
    · exact ih d

theorem Dev.changes_lpm (d : Dev) (die bank dfid n : Nat) : d.Changes [.regs, .fw, .ev] loggingRegs (d.lpm die bank dfid n).1 :=
  Dev.lpm_keeps (.rfl' _ _) .trans (fun d k => d.changes_readRoute die k dfid) d n

/-- A lookup puts stored errors of routes right and leaves the logical tables. -/
theorem Dev.lpm_logical (d : Dev) (die bank dfid n : Nat) : (d.lpm die bank dfid n).1.fw.logical = d.fw.logical :=
  Dev.lpm_keeps (P := fun a b => b.fw.logical = a.fw.logical) (fun _ => rfl) (fun h k => k.trans h)
    (fun d k => by rw [Dev.readRoute_fw]) d n

theorem Dev.looked_lpm (d : Dev) (die bank dfid n : Nat) : d.Looked (d.lpm die bank dfid n).1 := (d.changes_lpm die bank dfid n).weaken

end Sys2Proof.Machine
end

section
/-! PROOF. What sending a frame changes: the meters and RED, the reservation of cells, the queue, and the route of a frame. -/

namespace Sys2Proof.Machine

set_option Elab.async false

/-- The device `b` is `a` after the switch took, sent on or dropped a frame. -/
abbrev Dev.Switches (a b : Dev) : Prop := a.Changes [.regs, .sw, .ev, .tm, .freeCtr, .parserDrops] passRegs b

namespace Dev.Changes

variable {α β : Type} {ps : List Part} {rs : List Reg} {a : Dev}

theorem foldl {f : Dev × β → α → Dev × β} (h : ∀ (acc : Dev × β) x, acc.1.Changes ps rs (f acc x).1) (xs : List α) (acc : Dev × β) :
    acc.1.Changes ps rs (xs.foldl f acc).1 := by
  induction xs generalizing acc with
  | nil => exact .rfl' ps rs acc.1
  | cons x xs ih => exact (h acc x).trans (ih (f acc x))

/-- A choice between two operations changes what either may. -/
theorem ite {c : Prop} [Decidable c] {x y : Dev} (hx : a.Changes ps rs x) (hy : a.Changes ps rs y) :
    a.Changes ps rs (if c then x else y) := by
  split
  · exact hx
  · exact hy

/-- The same for operations that answer with the device. -/
theorem ite_fst {c : Prop} [Decidable c] {x y : Dev × β} (hx : a.Changes ps rs x.1) (hy : a.Changes ps rs y.1) :
    a.Changes ps rs (if c then x else y).1 := by
  split
  · exact hx
  · exact hy

theorem of_fst {r : Dev × β} {e : Dev} {b : β} (h : a.Changes ps rs r.1) (hr : r = (e, b)) : a.Changes ps rs e := by
  subst hr
  exact h

end Dev.Changes

@[simp] theorem Dev.copyDone_none (d : Dev) (sent : Bool) : d.copyDone none sent = d := rfl

-- Drops (R60, R61, R119, R311) ------------------------------------------------------------------------------------------------------------

theorem Dev.switches_dropFrame (d : Dev) {b : ErrBlk} (hb : b.dropFld.reg ∈ passRegs) (u k : Nat) (egress : Option Nat) (o : Origin)
    (cls len : Nat) : d.Switches ((d.dropCnt b u k egress (some cls)).oweFrame o cls len) :=
  ((d.changes_dropCnt b u k egress (some cls)).weaken (by decide) (by
    intro r hr
    rcases List.mem_cons.1 hr with rfl | hr
    · exact hb
    · exact (by decide : ∀ r ∈ cntRegList, r ∈ passRegs) r hr)).andThen (Dev.changes_oweFrame ..)

theorem Dev.switches_dropFwd (d : Dev) (die k : Nat) (o : Origin) (f : Frame) : d.Switches (d.dropFwd die k o f) :=
  d.switches_dropFrame (by decide) ..

theorem Dev.switches_dropSwc (d : Dev) (die k : Nat) (o : Origin) (egress : Option Nat) (f : Frame) :
    d.Switches (d.dropSwc die k o egress f) :=
  d.switches_dropFrame (by decide) ..

theorem Dev.switches_dropAdmit (d : Dev) (die : Nat) (o : Origin) (f : Frame) : d.Switches (d.dropAdmit die o f) :=
  ((d.changes_inc F.D2D_DROP_CNT_frames die 0 1).weaken).andThen (Dev.changes_oweFrame ..)

theorem Dev.changes_dropParser (d : Dev) (port reason cls len : Nat) (here : Bool) :
    d.Changes [.regs, .parserDrops] [.TM_CRD_STAT, .CNT_VAL, .CNT_CTRL] (d.dropParser port reason cls len here) := by
  have hcount := ((d.changes_parserDrops (smInsert d.parserDrops (port * 16 + reason)
    (smGet d.parserDrops (port * 16 + reason) 0 + 1))).weaken (ps' := [.regs, .parserDrops])
      (rs' := [.TM_CRD_STAT, .CNT_VAL, .CNT_CTRL])).andThen
    (Dev.changes_cntPC _ ⟨laneDie port, 5⟩ (0x10 + reason) (some port) (some cls) 1)
  exact .ite hcount (hcount.andThen (Dev.changes_owe ..))

/-- A frame dropped under a check counts once under it (Table 2.8). -/
theorem Dev.parserDrops_dropParser (d : Dev) (port reason cls len : Nat) (here : Bool) :
    smGet (d.dropParser port reason cls len here).parserDrops (port * 16 + reason) 0 =
      smGet d.parserDrops (port * 16 + reason) 0 + 1 := by
  unfold Dev.dropParser
  dsimp only
  split
  · rw [(Dev.changes_cntPC ..).parserDrops]
    exact smGet_smInsert_same ..
  · rw [(Dev.changes_owe ..).parserDrops, (Dev.changes_cntPC ..).parserDrops]
    exact smGet_smInsert_same ..

theorem Dev.switches_dropHop (d : Dev) (o : Origin) (f : Frame) : d.Switches (d.dropHop o f) := by
  unfold Dev.dropHop
  split
  · exact (d.changes_dropParser ..).weaken
  · exact .rfl' _ _ d

-- Meters and RED (R99, R102) --------------------------------------------------------------------------------------------------------------

theorem Dev.changes_meter (d : Dev) (port : Nat) (f : Frame) : d.Changes [.regs, .tm] passRegs (d.meter port f).1 := by
  unfold Dev.meter
  cases d.meterOf port f.cls with
  | none => exact .rfl' _ _ d
  | some m =>
    have hcount := fun x c => ((d.changes_tm x).weaken (ps' := [.regs, .tm]) (rs' := passRegs)).andThen
      (Dev.changes_cntPC _ ⟨laneDie port, 2⟩ (3 + c) (some port) (some f.cls) 1)
    exact .ite_fst ((hcount _ _).andThen (Dev.changes_dropCnt _ .TM _ _ _ _)) (hcount _ _)

theorem Dev.changes_red (d : Dev) (die port : Nat) (f : Frame) (from_ : Option Nat) :
    d.Changes [.regs, .tm] passRegs (d.red die port f from_).1 := by
  have htm : ∀ (d : Dev) x, d.Changes [.regs, .tm] passRegs { d with tm := x } := fun d x => (d.changes_tm x).weaken
  have hdrop : ∀ (d : Dev) k, d.Changes [.regs, .tm] passRegs (d.dropCnt .TM die k from_ (some f.cls)) := fun d k =>
    (d.changes_dropCnt .TM ..).weaken
  unfold Dev.red
  dsimp only
  exact .ite_fst (.rfl' _ _ d) (.ite_fst (htm d _) (.ite_fst ((htm d _).trans (hdrop _ _))
    (.ite_fst (((htm d _).trans (htm _ _)).trans (hdrop _ _)) ((htm d _).trans (htm _ _)))))

-- Reserving cells (R77, R79) --------------------------------------------------------------------------------------------------------------

theorem Dev.changes_charge (d : Dev) (die req n : Nat) : d.Changes [.regs] passRegs (d.charge die req n) := by
  unfold Dev.charge
  exact (((d.changes_wr ..).weaken.andThen (Dev.changes_peak ..)).andThen (Dev.changes_wr ..)).andThen (Dev.changes_peak ..)

/-- The counts of cells that were taken (R77, R79). -/
def Dev.chargeCells (d : Dev) (die : Nat) (o : Origin) (cls need : Nat) : Dev :=
  let d := d.charge die (Machine.requester o cls) need
  let f := d.freeCells die - need
  let d := d.wr F.SWC_FREE_STAT_free_cells die 0 f
  let d := if f < d.rd F.SWC_FREE_STAT_min_free die 0 then d.wr F.SWC_FREE_STAT_min_free die 0 f else d
  d.cntPC ⟨die, 1⟩ 2 o.port? (some cls) need

theorem Dev.changes_chargeCells (d : Dev) (die : Nat) (o : Origin) (cls need : Nat) :
    d.Changes [.regs] passRegs (d.chargeCells die o cls need) := by
  have hfree := (d.changes_charge die (Machine.requester o cls) need).andThen (Dev.changes_wr _ F.SWC_FREE_STAT_free_cells die 0
    ((d.charge die (Machine.requester o cls) need).freeCells die - need))
  exact (Dev.Changes.ite (hfree.andThen (Dev.changes_wr ..)) hfree).andThen (Dev.changes_cntPC ..)

/-- Why a reservation fails, or the cells that it takes and the cells in use after it. -/
def Dev.reserving (d : Dev) (die : Nat) (o : Origin) (cls need : Nat) (mc : Bool) : Except AdmFail (List Nat × SMap CellInfo) :=
  let req := Machine.requester o cls
  let p := d.rd F.SWC_REQ_CFG_pool die req
  let ctl := decide (cls = 7)
  if !ctl && d.rd F.SWC_REQ_CFG_quota die req < d.rd F.SWC_REQ_STAT_in_use die req + need then .error .quota
  else if !ctl && d.rd F.SWC_POOL_CFG_size die p < d.rd F.SWC_POOL_STAT_in_use die p + need then .error .pool
  else if mc && (32768 ≤ d.mrecsOf die ||
      (!ctl && d.rd F.SWC_REQ_CFG_rec_quota die req ≤ d.rd F.SWC_REQ_STAT_rec_in_use die req)) then .error .record
  else match takeCells die (Config.pipeline d.freeCtr).val (if ctl then 0 else req) ctl need d.sw.cells with
    | none => .error .noCell
    | some taken => .ok taken

/-- A reservation takes its cells and counts them, or changes nothing but the free choice it used. -/
theorem Dev.reserve_eq (d : Dev) (die : Nat) (o : Origin) (cls need : Nat) (mc : Bool) : d.reserve die o cls need mc =
    match d.reserving die o cls need mc with
    | .error why => (d.fresh.1, .error why)
    | .ok (ks, m) =>
      let e : Dev := { d.fresh.1 with sw := { d.sw with cells := m } }
      (if cls = 7 then e else e.chargeCells die o cls need, .ok ks) := by
  have hrd : ∀ f u i, d.fresh.1.rd f u i = d.rd f u i := fun _ _ _ => rfl
  have hrec : d.fresh.1.mrecsOf die = d.mrecsOf die := rfl
  have hsw : d.fresh.1.sw = d.sw := rfl
  unfold Dev.reserve Dev.reserving
  rw [show d.fresh = (d.fresh.1, d.freeCtr) from rfl]
  simp only [hrd, hrec, hsw]
  split
  · rfl
  · split
    · rfl
    · split
      · rfl
      · split
        next hcells => rw [hcells]
        next ks m hcells =>
          rw [hcells]
          by_cases hctl : cls = 7
          · rw [if_pos (decide_eq_true hctl)]
            exact Prod.ext (if_pos hctl).symm rfl
          · rw [if_neg (by simpa using hctl)]
            exact Prod.ext (if_neg hctl).symm rfl

theorem Dev.reserve_snd (d : Dev) (die : Nat) (o : Origin) (cls need : Nat) (mc : Bool) :
    (d.reserve die o cls need mc).2 = (d.reserving die o cls need mc).map Prod.fst := by
  rw [Dev.reserve_eq]
  cases d.reserving die o cls need mc <;> rfl

theorem Dev.changes_reserve (d : Dev) (die : Nat) (o : Origin) (cls need : Nat) (mc : Bool) :
    d.Changes [.regs, .sw, .freeCtr] passRegs (d.reserve die o cls need mc).1 := by
  have hfresh : d.Changes [.regs, .sw, .freeCtr] passRegs d.fresh.1 := d.changes_fresh.weaken
  rw [Dev.reserve_eq]
  cases d.reserving die o cls need mc with
  | error why => exact hfresh
  | ok taken =>
    have htaken := hfresh.andThen (Dev.changes_sw _ { d.sw with cells := taken.2 })
    exact .ite htaken (htaken.andThen (Dev.changes_chargeCells ..))

/-- A reservation changes of the switch the cells alone. -/
theorem Dev.reserve_sw (d : Dev) (die : Nat) (o : Origin) (cls need : Nat) (mc : Bool) :
    ∃ cells, (d.reserve die o cls need mc).1.sw = { d.sw with cells := cells } := by
  rw [Dev.reserve_eq]
  cases d.reserving die o cls need mc with
  | error why => exact ⟨d.sw.cells, rfl⟩
  | ok taken =>
    refine ⟨taken.2, ?_⟩
    dsimp only
    split
    · rfl
    · exact (Dev.changes_chargeCells ..).sw

/-- Two devices of the same free choice, cells, records and counts reserve the same cells. -/
theorem Dev.reserve_snd_congr {a b : Dev} (hfree : b.freeCtr = a.freeCtr) (hcells : b.sw.cells = a.sw.cells)
    (hmrecs : b.sw.mrecs = a.sw.mrecs) (hregs : SameRegs loggingRegs a.regs b.regs) (die : Nat) (o : Origin) (cls need : Nat)
    (mc : Bool) : (b.reserve die o cls need mc).2 = (a.reserve die o cls need mc).2 := by
  have hrd : ∀ {f : Fld} (_ : f.reg ∉ loggingRegs) u i, b.rd f u i = a.rd f u i := fun hf u i => Dev.rd_of_sameRegs hregs hf u i
  have hrec : b.mrecsOf die = a.mrecsOf die := by simp only [Dev.mrecsOf, hmrecs]
  rw [Dev.reserve_snd, Dev.reserve_snd]
  simp (disch := decide) only [Dev.reserving, hrec, hrd, hfree, hcells]

-- The queue (R73, R113) -------------------------------------------------------------------------------------------------------------------

/-- A frame enters its queue last, accepted or not, and its acceptance or its wait is counted. -/
theorem Dev.enqueue_eq (d : Dev) (x : Desc) : ∃ (e : Dev) (stamp : Option Nat), d.Changes [.regs] passRegs e ∧
    d.enqueue x = { e with sw := { e.sw with queue := e.sw.queue ++ [{ x with stamp := stamp }] } } := by
  have hwait := (d.changes_inc F.TM_ADM_WAIT_CNT_frames x.die 0 1).weaken (ps' := [.regs]) (rs' := passRegs)
  unfold Dev.enqueue
  dsimp only
  split
  · exact ⟨d, x.stamp, .rfl' _ _ d, rfl⟩
  · split
    · exact ⟨_, x.stamp, hwait, rfl⟩
    · split
      next r hr =>
        unfold Dev.tryAccept at hr
        split at hr
        · cases hr
        · dsimp only at hr
          split at hr
          · cases hr
            exact ⟨_, some _, ((d.changes_wr ..).weaken.andThen (Dev.changes_peak ..)).andThen (Dev.changes_cntPC ..), rfl⟩
          · cases hr
      · exact ⟨_, x.stamp, hwait, rfl⟩

theorem Dev.changes_enqueue (d : Dev) (x : Desc) : d.Changes [.regs, .sw] passRegs (d.enqueue x) := by
  obtain ⟨e, stamp, he, heq⟩ := d.enqueue_eq x
  rw [heq]
  exact he.weaken.andThen (e.changes_sw _)

/-- Of the switch, the queue alone is longer by the frame. -/
theorem Dev.enqueue_sw (d : Dev) (x : Desc) :
    ∃ stamp, (d.enqueue x).sw = { d.sw with queue := d.sw.queue ++ [{ x with stamp := stamp }] } := by
  obtain ⟨e, stamp, he, heq⟩ := d.enqueue_eq x
  exact ⟨stamp, by rw [heq, he.sw]⟩

-- Admission (R71, R77, R81, R89) ----------------------------------------------------------------------------------------------------------

theorem Dev.changes_failAdmit (d : Dev) (die : Nat) (o : Origin) (cls len : Nat) (why : AdmFail) (lossless : Bool) :
    d.Changes [.regs, .ev] passRegs (d.failAdmit die o cls len why lossless) := by
  have hdrop : ∀ k, d.Changes [.regs, .ev] passRegs (d.dropCnt .SWC die k o.port? (some cls)) := fun k =>
    (d.changes_dropCnt .SWC ..).weaken
  have howe := fun k => Dev.Changes.ite (c := lossless = true) ((hdrop k).andThen (Dev.changes_oweFrame _ o cls len)) (hdrop k)
  exact .ite ((howe _).andThen (Dev.changes_logErr ..)) (.ite ((howe _).andThen (Dev.changes_logErr ..)) (howe _))

/-- The write of a frame into its cells is counted, and may meet an injected error (R415). -/
def Dev.writeIn (d : Dev) (die : Nat) (o : Origin) (cls len : Nat) : Dev :=
  let d := (d.injectHit (if cls = 7 then 2 else 1) die ((len + 7) / 8)).1
  if cls = 7 then d else d.cntPC ⟨die, 1⟩ 1 o.port? (some cls) 1

theorem Dev.changes_writeIn (d : Dev) (die : Nat) (o : Origin) (cls len : Nat) :
    d.Changes [.regs] passRegs (d.writeIn die o cls len) := by
  have hhit := (d.changes_injectHit (if cls = 7 then 2 else 1) die ((len + 7) / 8)).weaken (ps' := [.regs]) (rs' := passRegs)
  exact .ite hhit (hhit.andThen (Dev.changes_cntPC ..))

/-- The credit that the cells of a frame from a port hold back (R107). -/
def Origin.hold (o : Origin) (id cls len : Nat) (cells : List Nat) : List CreditHold :=
  match o with
  | .port p => [⟨id, p, cls, creditsFor len, cells⟩]
  | _ => []

/-- The open cell of a VOQ and how far it is filled (R23). -/
def Dev.openCell (d : Dev) (vk : Nat) : List Nat × Nat :=
  match smFind d.sw.opens vk with
  | some (c, n) => ([c], n)
  | none => ([], 0)

/-- New cells that a frame needs behind what an open cell is filled with. -/
def cellsBehind (fill len : Nat) : Nat := (fill + len + 255) / 256 - (if fill = 0 then 0 else 1)

/-- A frame whose cells are reserved is written, held and queued; `c` is the open cell it begins in. -/
def Dev.takeIn (d : Dev) (die : Nat) (o : Origin) (p : Nat) (f : Frame) (followed : Bool) (c : List Nat × Nat) (ks : List Nat) : Dev :=
  let vk := voqKey o (.port p) f.cls
  let used := c.1 ++ ks
  let last := (c.2 + f.len) % 256
  let hit := (d.injectHit (if f.cls = 7 then 2 else 1) die ((f.len + 7) / 8)).2
  let d := d.writeIn die o f.cls f.len
  { d with sw := { d.sw with
      cells := refCells d.sw.cells used, nextId := d.sw.nextId + 1,
      opens := if followed && last != 0 then smInsert d.sw.opens vk (used.getLastD 0, last) else smErase d.sw.opens vk,
      holds := d.sw.holds ++ o.hold d.sw.nextId f.cls f.len used } }.enqueue
    ⟨d.sw.nextId, die, o, .port p, f.cls, f, used, c.2, none, none, d.tick, hit.1, hit.2, none, none⟩

/-- A frame toward a port finds no room, or takes its cells and enters its queue. -/
theorem Dev.admitUnicast_eq (d : Dev) (die : Nat) (o : Origin) (p : Nat) (f : Frame) (followed : Bool) :
    d.admitUnicast die o (.port p) f none followed =
      let c := d.openCell (voqKey o (.port p) f.cls)
      match d.reserve die o f.cls (cellsBehind c.2 f.len) false with
      | (e, .error why) => e.failAdmit die o f.cls f.len why (e.lossless die (Machine.requester o f.cls) f.cls)
      | (e, .ok ks) => e.takeIn die o p f followed c ks := by
  unfold Dev.admitUnicast Dev.openCell
  dsimp only [cellsBehind]
  generalize smFind d.sw.opens (voqKey o (.port p) f.cls) = open_
  obtain _ | ⟨c, n⟩ := open_ <;>
  · dsimp only
    generalize d.reserve die o f.cls _ false = r
    obtain ⟨e, why | ks⟩ := r
    · rfl
    · cases o <;> simp only [Dev.takeIn, Origin.hold, List.append_nil] <;> rfl

theorem Dev.changes_takeIn (d : Dev) (die : Nat) (o : Origin) (p : Nat) (f : Frame) (followed : Bool) (c : List Nat × Nat)
    (ks : List Nat) : d.Changes [.regs, .sw] passRegs (d.takeIn die o p f followed c ks) :=
  ((d.changes_writeIn die o f.cls f.len).weaken.andThen (Dev.changes_sw _ _)).andThen (Dev.changes_enqueue ..)

theorem Dev.switches_admitUnicast (d : Dev) (die : Nat) (o : Origin) (p : Nat) (f : Frame) (followed : Bool) :
    d.Switches (d.admitUnicast die o (.port p) f none followed) := by
  have hres := fun need => (d.changes_reserve die o f.cls need false).weaken
    (ps' := [.regs, .sw, .ev, .tm, .freeCtr, .parserDrops]) (rs' := passRegs)
  rw [Dev.admitUnicast_eq]
  dsimp only
  split
  next e why h => exact ((hres _).of_fst h).andThen (Dev.changes_failAdmit ..)
  next e ks h => exact ((hres _).of_fst h).andThen (Dev.changes_takeIn ..)

/-- One copy for each port of a list enters the queue; `x` is the copy of a tick toward a port. -/
def Dev.copies (d : Dev) (die cls : Nat) (ports : List Nat) (x : Nat → Nat → Desc) : Dev :=
  d.each ports fun d p => (d.cntPC ⟨die, 1⟩ 4 (some p) (some cls) 1).enqueue (x d.tick p)

theorem Dev.changes_copies (d : Dev) (die cls : Nat) (ports : List Nat) (x : Nat → Nat → Desc) :
    d.Changes [.regs, .sw] passRegs (d.copies die cls ports x) :=
  .each (fun d p => (d.changes_cntPC ..).weaken.andThen (Dev.changes_enqueue ..)) d ports

/-- The copies stand last in the queue, in the order of the ports. -/
theorem Dev.copies_sw (d : Dev) (die cls : Nat) (ports : List Nat) (x : Nat → Nat → Desc) :
    ∃ xs, (d.copies die cls ports x).sw = { d.sw with queue := d.sw.queue ++ xs } ∧
      List.Forall₂ (fun y p => ∃ tick stamp, y = { x tick p with stamp := stamp }) xs ports := by
  induction ports generalizing d with
  | nil => exact ⟨[], by simp [Dev.copies, Dev.each], .nil⟩
  | cons p ports ih =>
    obtain ⟨stamp, hfirst⟩ := (d.cntPC ⟨die, 1⟩ 4 (some p) (some cls) 1).enqueue_sw (x d.tick p)
    obtain ⟨xs, hrest, hxs⟩ := ih ((d.cntPC ⟨die, 1⟩ 4 (some p) (some cls) 1).enqueue (x d.tick p))
    refine ⟨_ :: xs, hrest.trans ?_, .cons ⟨d.tick, stamp, rfl⟩ hxs⟩
    rw [hfirst, (Dev.changes_cntPC ..).sw]
    simp

/-- The one write of a multicast frame and its record are counted, and the write may meet an injected error. -/
def Dev.writeCopied (d : Dev) (die : Nat) (o : Origin) (cls len : Nat) : Dev :=
  let d := (d.injectHit (if cls = 7 then 2 else 1) die ((len + 7) / 8)).1
  if cls = 7 then d
  else (d.inc F.SWC_REQ_STAT_rec_in_use die (Machine.requester o cls) 1).cntPC ⟨die, 1⟩ 1 o.port? (some cls) 1

theorem Dev.changes_writeCopied (d : Dev) (die : Nat) (o : Origin) (cls len : Nat) :
    d.Changes [.regs] passRegs (d.writeCopied die o cls len) := by
  have hhit := (d.changes_injectHit (if cls = 7 then 2 else 1) die ((len + 7) / 8)).weaken (ps' := [.regs]) (rs' := passRegs)
  exact .ite hhit ((hhit.andThen (Dev.changes_inc _ F.SWC_REQ_STAT_rec_in_use _ _ _)).andThen (Dev.changes_cntPC ..))

/-- A frame whose cells and record are reserved is written once, held, recorded and queued toward each port. -/
def Dev.takeInCopies (d : Dev) (die : Nat) (o : Origin) (ports : List Nat) (f : Frame) (ks : List Nat) : Dev :=
  let id := d.sw.nextId
  let hit := (d.injectHit (if f.cls = 7 then 2 else 1) die ((f.len + 7) / 8)).2
  let d := d.writeCopied die o f.cls f.len
  { d with sw := { d.sw with
      cells := refCells d.sw.cells ks, holds := d.sw.holds ++ o.hold id f.cls f.len ks, nextId := id + 1,
      mrecs := smInsert d.sw.mrecs id
        ⟨die, if f.cls = 7 then none else some (Machine.requester o f.cls), ks, ports.length⟩ } }.copies die f.cls ports
    fun tick p => ⟨id, die, o, .port p, f.cls, f, ks, 0, some id, none, tick, hit.1, hit.2, none, none⟩

theorem Dev.admitMulticast_eq (d : Dev) (die : Nat) (o : Origin) (ports : List Nat) (f : Frame) :
    d.admitMulticast die o ports f none =
      if ports.isEmpty then d.oweFrame o f.cls f.len else
      match d.reserve die o f.cls ((f.len + 255) / 256) true with
      | (e, .error why) => e.failAdmit die o f.cls f.len why (e.lossless die (Machine.requester o f.cls) f.cls)
      | (e, .ok ks) => e.takeInCopies die o ports f ks := by
  unfold Dev.admitMulticast
  split
  · rfl
  · dsimp only
    generalize d.reserve die o f.cls _ true = r
    obtain ⟨e, why | ks⟩ := r
    · rfl
    · have hid : (e.injectHit (if f.cls = 7 then 2 else 1) die ((f.len + 7) / 8)).1.sw.nextId = e.sw.nextId := by
        rw [(e.changes_injectHit ..).sw]
      dsimp only
      rw [hid]
      cases o <;> simp only [Dev.takeInCopies, Origin.hold, List.append_nil] <;> rfl

theorem Dev.changes_takeInCopies (d : Dev) (die : Nat) (o : Origin) (ports : List Nat) (f : Frame) (ks : List Nat) :
    d.Changes [.regs, .sw] passRegs (d.takeInCopies die o ports f ks) := by
  have hsw : ∀ x, d.Changes [.regs, .sw] passRegs { d.writeCopied die o f.cls f.len with sw := x } := fun x =>
    (d.changes_writeCopied die o f.cls f.len).weaken.andThen (Dev.changes_sw _ x)
  unfold Dev.takeInCopies
  exact (hsw _).trans (Dev.changes_copies ..)

theorem Dev.switches_admitMulticast (d : Dev) (die : Nat) (o : Origin) (ports : List Nat) (f : Frame) :
    d.Switches (d.admitMulticast die o ports f none) := by
  have hres := fun need => (d.changes_reserve die o f.cls need true).weaken
    (ps' := [.regs, .sw, .ev, .tm, .freeCtr, .parserDrops]) (rs' := passRegs)
  rw [Dev.admitMulticast_eq]
  refine .ite (d.changes_oweFrame ..).weaken ?_
  split
  next e why h => exact ((hres _).of_fst h).andThen (Dev.changes_failAdmit ..)
  next e ks h => exact ((hres _).of_fst h).andThen (Dev.changes_takeInCopies ..)

end Sys2Proof.Machine
end

section
/-! PROOF. What the sending of a frame toward a port, a bundle, a group or a route changes. -/

namespace Sys2Proof.Machine

set_option Elab.async false

theorem Dev.changes_chooseMember (d : Dev) (o : Origin) (n : Nat) (f : Frame) (dest0 : Nat) (avoid : Option Nat) :
    d.Changes [.sw] [] (d.chooseMember o n f dest0 avoid).1 := by
  obtain ⟨rr, h⟩ := d.chooseMember_fst o n f dest0 avoid
  rw [h]
  exact d.changes_sw _

/-- A frame from a port is metered there (R99); any other is not. -/
def Dev.meterAt (d : Dev) (o : Origin) (f : Frame) : Dev × Option Frame :=
  match o with
  | .port i => d.meter i f
  | _ => (d, some f)

theorem Dev.changes_meterAt (d : Dev) (o : Origin) (f : Frame) : d.Changes [.regs, .tm] passRegs (d.meterAt o f).1 := by
  cases o with
  | port i => exact d.changes_meter i f
  | array _ | other _ => exact .rfl' _ _ d

-- Toward one port -------------------------------------------------------------------------------------------------------------------------

/-- RED judges a frame of a lossy class alone (R102). -/
def Dev.redFor (d : Dev) (die : Nat) (o : Origin) (p : Nat) (f : Frame) (lossless : Bool) : Dev × Bool :=
  if lossless then (d, true) else d.red die p f o.port?

theorem Dev.changes_redFor (d : Dev) (die : Nat) (o : Origin) (p : Nat) (f : Frame) (lossless : Bool) :
    d.Changes [.regs, .tm] passRegs (d.redFor die o p f lossless).1 :=
  .ite_fst (.rfl' _ _ d) (d.changes_red ..)

theorem Dev.sendPort_eq (d : Dev) (die : Nat) (o : Origin) (p : Nat) (f : Frame) (followed : Bool) :
    d.sendPort die o p f none followed = match d.meterAt o f with
      | (e, none) => e
      | (e, some f) =>
        let r := e.redFor die o p f (e.lossless die (Machine.requester o f.cls) f.cls)
        if r.2 then r.1.admitUnicast die o (.port p) f none followed else r.1 := by
  unfold Dev.sendPort Dev.meterAt
  cases o with
  | port i =>
    dsimp only
    generalize d.meter i f = r
    obtain ⟨e, _ | g⟩ := r <;> rfl
  | array _ | other _ => rfl

theorem Dev.switches_sendPort (d : Dev) (die : Nat) (o : Origin) (p : Nat) (f : Frame) (followed : Bool) :
    d.Switches (d.sendPort die o p f none followed) := by
  have hmeter : d.Switches (d.meterAt o f).1 := (d.changes_meterAt o f).weaken
  rw [Dev.sendPort_eq]
  split
  next e h => exact hmeter.of_fst h
  next e g h =>
    have hred := (hmeter.of_fst h).andThen (e.changes_redFor die o p g (e.lossless die (Machine.requester o g.cls) g.cls))
    exact .ite (hred.trans (Dev.switches_admitUnicast ..)) hred

/-- The member that a target names: a bundle's choice, or the port itself. -/
def Dev.pickOf (d : Dev) (o : Origin) (kind tgt : Nat) (f : Frame) (dest0 : Nat) : Dev × Option Nat :=
  if kind = 2 then d.chooseMember o tgt f dest0 none else (d, some tgt)

theorem Dev.changes_pickOf (d : Dev) (o : Origin) (kind tgt : Nat) (f : Frame) (dest0 : Nat) :
    d.Changes [.sw] [] (d.pickOf o kind tgt f dest0).1 :=
  .ite_fst (d.changes_chooseMember ..) (.rfl' _ _ d)

theorem Dev.sendTarget_eq (d : Dev) (die : Nat) (o : Origin) (kind tgt : Nat) (f : Frame) (dest0 : Nat) (followed : Bool) :
    d.sendTarget die o kind tgt f dest0 none followed =
      if hopDead o f then d.dropHop o f
      else match d.pickOf o kind tgt f dest0 with
        | (e, none) => e.dropSwc die 3 o none f
        | (e, some p) =>
          if !e.admitted (laneDie p) f.block then e.dropAdmit (laneDie p) o f
          else if kind ≠ 2 && !e.portOpen die p then e.dropSwc die 5 o (some p) f
          else e.sendPort die o p f none followed := by
  unfold Dev.sendTarget Dev.pickOf
  dsimp only
  split
  · rfl
  · generalize (if kind = 2 then d.chooseMember o tgt f dest0 none else (d, some tgt)) = r
    obtain ⟨e, _ | p⟩ := r <;> rfl

theorem Dev.switches_sendTarget (d : Dev) (die : Nat) (o : Origin) (kind tgt : Nat) (f : Frame) (dest0 : Nat) (followed : Bool) :
    d.Switches (d.sendTarget die o kind tgt f dest0 none followed) := by
  have hpick : d.Switches (d.pickOf o kind tgt f dest0).1 := (d.changes_pickOf ..).weaken
  rw [Dev.sendTarget_eq]
  refine .ite (d.switches_dropHop o f) ?_
  split
  next e h => exact (hpick.of_fst h).trans (e.switches_dropSwc ..)
  next e p h =>
    have he := hpick.of_fst h
    exact .ite (he.trans (e.switches_dropAdmit ..)) (.ite (he.trans (e.switches_dropSwc ..)) (he.trans (e.switches_sendPort ..)))

-- By a route (R119 step 6) ----------------------------------------------------------------------------------------------------------------

/-- The device `b` is `a` after a frame was looked up and sent: the logical tables stay. -/
structure Dev.Sends (a b : Dev) : Prop where
  changes : a.Changes [.regs, .sw, .ev, .tm, .fw, .freeCtr, .parserDrops] passRegs b
  logical : b.fw.logical = a.fw.logical

theorem Dev.Sends.trans {a b c : Dev} (h : a.Sends b) (k : b.Sends c) : a.Sends c :=
  ⟨h.changes.trans k.changes, k.logical.trans h.logical⟩

theorem Dev.Switches.sends {a b : Dev} (h : a.Switches b) : a.Sends b := ⟨h.weaken, by rw [h.fw]⟩

theorem Dev.sends_cntPC (d : Dev) (c : CntSet) (ev : Nat) (port cls : Option Nat) (n : Nat) : d.Sends (d.cntPC c ev port cls n) :=
  Dev.Switches.sends (d.changes_cntPC c ev port cls n).weaken

theorem Dev.sends_lpm (d : Dev) (die bank dfid n : Nat) : d.Sends (d.lpm die bank dfid n).1 :=
  ⟨(d.changes_lpm ..).weaken, d.lpm_logical ..⟩

/-- A frame that its lookup drops: by check 11 first, when its hop limit is 0 (R65). -/
def Dev.dropRoute (d : Dev) (die k : Nat) (o : Origin) (f : Frame) : Dev := if hopDead o f then d.dropHop o f else d.dropFwd die k o f

theorem Dev.sends_dropRoute (d : Dev) (die k : Nat) (o : Origin) (f : Frame) : d.Sends (d.dropRoute die k o f) :=
  Dev.Switches.sends (.ite (d.switches_dropHop o f) (d.switches_dropFwd ..))

/-- What becomes of a frame by what its lookup found. -/
def Dev.routed (d : Dev) (die : Nat) (o : Origin) (f : Frame) (dest0 : Nat) (followed : Bool) : RouteRes → Dev
  | .none => d.dropRoute die 1 o f
  | .poisoned => d.dropRoute die 4 o f
  | .target kind tgt => if kind = 3 then d.dropRoute die 3 o f else d.sendTarget die o kind tgt f dest0 none followed

theorem Dev.sends_routed (d : Dev) (die : Nat) (o : Origin) (f : Frame) (dest0 : Nat) (followed : Bool) (r : RouteRes) :
    d.Sends (d.routed die o f dest0 followed r) := by
  cases r with
  | none | poisoned => exact d.sends_dropRoute ..
  | target kind tgt =>
    unfold Dev.routed
    dsimp only
    split
    · exact d.sends_dropRoute ..
    · exact (d.switches_sendTarget ..).sends

theorem Dev.route_of_no_bank {d : Dev} {die : Nat} {f : Frame} (h : d.bankFor die f.epoch = none) (o : Origin) (dest0 : Nat)
    (followed : Bool) : d.route die o f dest0 none followed = d.dropRoute die 2 o f := by
  unfold Dev.route
  rw [h]
  rfl

/-- The count of a route lookup, and the lookup (R123). -/
def Dev.lookRoute (d : Dev) (die bank : Nat) (o : Origin) (f : Frame) : Dev × RouteRes :=
  (d.cntPC ⟨die, 0⟩ 2 o.port? (some f.cls) 1).lpm die bank f.dest 24

theorem Dev.route_of_bank {d : Dev} {die bank : Nat} {f : Frame} (h : d.bankFor die f.epoch = some bank) (o : Origin) (dest0 : Nat)
    (followed : Bool) : d.route die o f dest0 none followed =
      (d.lookRoute die bank o f).1.routed die o f dest0 followed (d.lookRoute die bank o f).2 := by
  unfold Dev.route Dev.lookRoute
  rw [h]
  dsimp only
  generalize Dev.lpm _ die bank f.dest 24 = r
  obtain ⟨e, ⟨kind, tgt⟩ | _ | _⟩ := r
  · dsimp only [Dev.routed]
    by_cases hkind : kind = 3
    · subst hkind
      rfl
    · rw [if_neg hkind]
      split
      next heq => cases heq
      next heq => cases heq
      next heq =>
        cases heq
        exact absurd rfl hkind
      next heq =>
        cases heq
        rfl
  all_goals rfl

theorem Dev.sends_lookRoute (d : Dev) (die bank : Nat) (o : Origin) (f : Frame) : d.Sends (d.lookRoute die bank o f).1 :=
  (d.sends_cntPC ..).trans (Dev.sends_lpm ..)

theorem Dev.sends_route (d : Dev) (die : Nat) (o : Origin) (f : Frame) (dest0 : Nat) (followed : Bool) :
    d.Sends (d.route die o f dest0 none followed) := by
  cases h : d.bankFor die f.epoch with
  | none =>
    rw [Dev.route_of_no_bank h]
    exact d.sends_dropRoute ..
  | some bank =>
    rw [Dev.route_of_bank h]
    exact (d.sends_lookRoute ..).trans (Dev.sends_routed ..)

-- To a group (R88 to R91) -----------------------------------------------------------------------------------------------------------------

/-- One bundle reference of a group adds the member it chooses, or the drop of a copy without one. -/
def Dev.mcRef (die : Nat) (o : Origin) (f : Frame) (dest0 : Nat) (acc : Dev × List Nat) (b : Nat) : Dev × List Nat :=
  match acc.1.chooseMember o b f dest0 o.port? with
  | (d, some p) => (d, acc.2 ++ [p])
  | (d, none) =>
    let ms := smGet d.cfg.bundles b []
    let only := (List.range ms.length).any fun m => ms[m]? == o.port? && wbit (acc.1.selMask o.die b) m
    (if only then d else d.dropCnt .SWC die 3 none (some f.cls), acc.2)

theorem Dev.changes_mcRef (die : Nat) (o : Origin) (f : Frame) (dest0 : Nat) (acc : Dev × List Nat) (b : Nat) :
    acc.1.Changes [.regs, .sw] passRegs (Dev.mcRef die o f dest0 acc b).1 := by
  have hchoose : acc.1.Changes [.regs, .sw] passRegs (acc.1.chooseMember o b f dest0 o.port?).1 := (acc.1.changes_chooseMember ..).weaken
  unfold Dev.mcRef
  split
  next d p h => exact hchoose.of_fst h
  next d h => exact .ite (hchoose.of_fst h) ((hchoose.of_fst h).andThen (d.changes_dropCnt .SWC ..))

theorem Dev.changes_mcPorts (d : Dev) (die : Nat) (o : Origin) (f : Frame) (dest0 : Nat) :
    d.Changes [.regs, .sw] passRegs (d.mcPorts die o f dest0).1 := by
  have hrfl : d.Changes [.regs, .sw] passRegs d := .rfl' _ _ d
  have hrefs : ∀ refs : List Nat, d.Changes [.regs, .sw] passRegs (refs.foldl (Dev.mcRef die o f dest0) (d, [])).1 := fun refs =>
    .foldl (Dev.changes_mcRef die o f dest0) refs (d, [])
  exact .ite_fst hrfl (.ite_fst hrfl (.ite_fst hrfl (.ite_fst hrfl (hrefs _))))

/-- One port of a group keeps its copy, or the copy is dropped and counted (R88, R311). -/
def Dev.mcCopy (die : Nat) (o : Origin) (f : Frame) (lossless : Bool) (acc : Dev × List Nat) (p : Nat) : Dev × List Nat :=
  let d := acc.1
  if !d.admitted (laneDie p) f.block then (d.inc F.D2D_DROP_CNT_frames (laneDie p) 0 1, acc.2)
  else if !d.portOpen die p then (d.dropCnt .SWC die 5 (some p) (some f.cls), acc.2)
  else if lossless then (d, acc.2 ++ [p])
  else
    let (d, k) := d.red die p f o.port?
    (d, if k then acc.2 ++ [p] else acc.2)

theorem Dev.changes_mcCopy (die : Nat) (o : Origin) (f : Frame) (lossless : Bool) (acc : Dev × List Nat) (p : Nat) :
    acc.1.Changes [.regs, .tm] passRegs (Dev.mcCopy die o f lossless acc p).1 :=
  .ite_fst (acc.1.changes_inc F.D2D_DROP_CNT_frames _ _ _).weaken
    (.ite_fst (acc.1.changes_dropCnt .SWC ..).weaken (.ite_fst (.rfl' _ _ _) (acc.1.changes_red ..)))

theorem Dev.multicast_eq (d : Dev) (die : Nat) (o : Origin) (f : Frame) :
    d.multicast die o f none = match d.mcPorts die o f f.dest with
      | (e, .error k) => e.dropSwc die k o none f
      | (e, .ok ps) =>
        if hopDead o f then e.dropHop o f
        else match e.meterAt o f with
          | (e, none) => e
          | (e, some f) =>
            let kept := ps.foldl (Dev.mcCopy die o f (e.lossless die (Machine.requester o f.cls) f.cls)) (e, [])
            kept.1.admitMulticast die o kept.2 f none := by
  unfold Dev.multicast
  dsimp only
  generalize d.mcPorts die o f f.dest = r
  obtain ⟨e, k | ps⟩ := r
  · rfl
  · dsimp only
    split
    · rfl
    · unfold Dev.meterAt
      cases o with
      | port i =>
        dsimp only
        obtain ⟨⟨e', mf⟩, hm⟩ : ∃ r, e.meter i f = r := ⟨_, rfl⟩
        simp only [hm]
        cases mf <;> rfl
      | array _ | other _ => rfl

theorem Dev.switches_multicast (d : Dev) (die : Nat) (o : Origin) (f : Frame) : d.Switches (d.multicast die o f none) := by
  have hports : d.Switches (d.mcPorts die o f f.dest).1 := (d.changes_mcPorts ..).weaken
  rw [Dev.multicast_eq]
  split
  next e k h => exact (hports.of_fst h).trans (e.switches_dropSwc ..)
  next e ps h =>
    have he := hports.of_fst h
    have hmeter : d.Switches (e.meterAt o f).1 := he.andThen (e.changes_meterAt o f)
    refine .ite (he.trans (e.switches_dropHop o f)) ?_
    split
    next e' hm => exact hmeter.of_fst hm
    next e' g hm =>
      have hkept : e'.Switches (ps.foldl (Dev.mcCopy die o g (e'.lossless die (Machine.requester o g.cls) g.cls)) (e', [])).1 :=
        (Dev.Changes.foldl (Dev.changes_mcCopy die o g _) ps (e', [])).weaken
      exact ((hmeter.of_fst hm).trans hkept).trans (Dev.switches_admitMulticast ..)

/-- A frame that a die originates is sent as any other (R66). -/
theorem Dev.sends_originate (d : Dev) (die : Nat) (o : Origin) (f : Frame) : d.Sends (d.originate die o f none) := by
  have hfree : d.Sends d.fresh.1.fresh.1 := Dev.Switches.sends (d.changes_fresh.weaken.andThen d.fresh.1.changes_fresh)
  unfold Dev.originate Dev.packFree
  dsimp only
  split
  · exact hfree.trans (Dev.switches_multicast ..).sends
  · exact hfree.trans (Dev.sends_route ..)

end Sys2Proof.Machine
end

section
/-! PROOF. A frame's arrival: the checks it passes, and where the lookup takes it (R60, R119). -/

namespace Sys2Proof.Machine

set_option Elab.async false

theorem exec_frameArrival (port : LaneId) (bytes : List Byte) (followed : Bool) (faults : List MemFault) (s : State) :
    exec (.frameArrival port bytes followed faults) s = .next (s.after fun d => d.frameArrive port.val bytes followed faults) := rfl

theorem exec_homeDieAnswer (die : DieId) (s : State) : exec (.homeDieAnswer die) s = .next (s.after fun d => d.homeAnswer die.val) := rfl

/-- The device with a frame taken from what the link layer delivered. -/
def Dev.handed (d : Dev) (port : Nat) (bytes : List Byte) : Dev :=
  { d with ln := { d.ln with delivered := d.ln.delivered.erase (port, bytes) } }

theorem Dev.changes_handed (d : Dev) (port : Nat) (bytes : List Byte) : d.Changes [.ln] [] (d.handed port bytes) := d.changes_ln _

/-- The device once a frame has been taken and its lookup counted. -/
def Dev.arrived (d : Dev) (port : Nat) (bytes : List Byte) : Dev :=
  (d.handed port bytes).cntPC ⟨laneDie port, 0⟩ 1 (some port) (some (parseFrame bytes).cls) 1

theorem Dev.changes_arrived (d : Dev) (port : Nat) (bytes : List Byte) : d.Changes [.regs, .ln] cntRegList (d.arrived port bytes) :=
  ((d.changes_handed port bytes).weaken).andThen (Dev.changes_cntPC ..)

theorem Dev.arrived_ln (d : Dev) (port : Nat) (bytes : List Byte) :
    (d.arrived port bytes).ln = { d.ln with delivered := d.ln.delivered.erase (port, bytes) } :=
  (Dev.changes_cntPC ..).ln

theorem Dev.looked_handed (d : Dev) (port : Nat) (bytes : List Byte) : d.Looked (d.handed port bytes) := (d.changes_handed port bytes).weaken

theorem Dev.looked_arrived (d : Dev) (port : Nat) (bytes : List Byte) : d.Looked (d.arrived port bytes) :=
  (d.changes_arrived port bytes).weaken

namespace Dev.Looked

variable {a b : Dev}

theorem fenced (h : a.Looked b) (die : Nat) (f : Frame) : b.fenced die f = a.fenced die f := by
  simp (disch := decide) only [Dev.fenced, h.rdwAt]

theorem learns (h : a.Looked b) (port : Nat) (f : Frame) : b.learns port f = a.learns port f := by
  simp (disch := decide) only [Dev.learns, h.onAt]

end Dev.Looked

-- The parser (Table 2.8) ------------------------------------------------------------------------------------------------------------------

/-- A list of checks that all pass passes the first and the rest. -/
theorem rest_of_checks {c : Prop} [Decidable c] {r : Nat} {o : Option Nat} (h : (if c then some r else o) = none) : ¬ c ∧ o = none := by
  split at h
  · cases h
  · exact ⟨‹_›, h⟩

/-- The parser lets no frame pass whose flags break Table 2.6. -/
theorem flagsOk_of_parsed {bytes : List Byte} {blocks : Word} (h : parserReason bytes blocks = none) :
    flagsOk (parseFrame bytes) = true := by
  unfold parserReason at h
  dsimp only at h
  obtain ⟨-, h⟩ := rest_of_checks h
  obtain ⟨-, h⟩ := rest_of_checks h
  obtain ⟨-, h⟩ := rest_of_checks h
  obtain ⟨-, h⟩ := rest_of_checks h
  obtain ⟨-, h⟩ := rest_of_checks h
  obtain ⟨-, h⟩ := rest_of_checks h
  obtain ⟨hflags, -⟩ := rest_of_checks h
  simpa using hflags

theorem Passes.flagsOk {d : Dev} {port : Nat} {bytes : List Byte} (h : Passes d port bytes) : flagsOk (parseFrame bytes) = true := by
  obtain ⟨-, -, hparse, -, -⟩ := h
  exact flagsOk_of_parsed hparse

/-- A contribution or a barrier frame that the parser lets pass is not addressed by rank. -/
theorem flag_zero_of_flagsOk {f : Frame} (h : flagsOk f = true) (ht : f.ftype = 1 ∨ f.ftype = 3) : f.flag 0 = false := by
  rcases ht with ht | ht <;>
  · simp [flagsOk, linkLocal, ht] at h
    obtain ⟨⟨⟨⟨⟨hrank, -⟩, -⟩, -⟩, -⟩, -⟩ := h
    exact hrank

/-- A contribution that the parser lets pass is not multicast. -/
theorem flag_two_of_flagsOk {f : Frame} (h : flagsOk f = true) (ht : f.ftype = 1) : f.flag 2 = false := by
  simp [flagsOk, linkLocal, ht] at h
  obtain ⟨⟨⟨⟨⟨-, hgroup⟩, -⟩, -⟩, -⟩, -⟩ := h
  exact hgroup

/-- No type but data and contributions is learned from (R129). -/
theorem Dev.learns_of_ftype {f : Frame} (h0 : f.ftype ≠ 0) (h1 : f.ftype ≠ 1) (d : Dev) (port : Nat) : d.learns port f = false := by
  simp [Dev.learns, h0, h1]

theorem Dev.learn_of_not {d : Dev} {port : Nat} {f : Frame} (h : d.learns port f = false) : d.learn port f = d := by
  unfold Dev.learn
  rw [if_pos h]

-- The way of a frame (R60, R119) ----------------------------------------------------------------------------------------------------------

section Way

variable {d : Dev} {port : Nat} {bytes : List Byte} {followed : Bool}

theorem Dev.frameArrive_of_runs (hp : d.isPort port = true) (hr : d.dieRuns (laneDie port) = true) :
    d.frameArrive port bytes followed [] = (d.handed port bytes).parse port bytes followed := by
  unfold Dev.frameArrive
  rw [hp, hr]
  rfl

theorem Dev.portBlocks_handed (d : Dev) (port : Nat) (bytes : List Byte) : (d.handed port bytes).portBlocks port = d.portBlocks port := rfl

theorem Dev.frameArrive_of_bad (hp : d.isPort port = true) (hr : d.dieRuns (laneDie port) = true) {r : Nat}
    (hbad : parserReason bytes (d.portBlocks port) = some r) : d.frameArrive port bytes followed [] =
      (d.handed port bytes).dropParser port r (parseFrame bytes).cls bytes.length (linkLocal (parseFrame bytes).ftype) := by
  rw [Dev.frameArrive_of_runs hp hr]
  unfold Dev.parse
  rw [Dev.portBlocks_handed, hbad]

theorem Dev.frameArrive_of_passes (h : Passes d port bytes) :
    d.frameArrive port bytes followed [] =
      if (parseFrame bytes).ftype = 5 then (d.handed port bytes).crozier (laneDie port) port (parseFrame bytes) followed
      else (d.handed port bytes).lookup (laneDie port) port (parseFrame bytes) followed := by
  obtain ⟨hp, hr, hparse, hlocal, hadm⟩ := h
  rw [Dev.frameArrive_of_runs hp hr]
  unfold Dev.parse
  rw [Dev.portBlocks_handed, hparse]
  dsimp only
  rw [hlocal, if_neg Bool.false_ne_true]
  unfold Dev.accept
  rw [(d.looked_handed port bytes).admitted, hadm]
  rfl

/-- A frame whose source is not fenced may be learned from and goes its way. -/
theorem Dev.frameArrive_of_unfenced (h : Passes d port bytes) (h5 : (parseFrame bytes).ftype ≠ 5)
    (hfence : d.fenced (laneDie port) (parseFrame bytes) = false) : d.frameArrive port bytes followed [] =
      let e := (d.arrived port bytes).learn port (parseFrame bytes)
      if (parseFrame bytes).flag 2 then e.multicast (laneDie port) (.port port) (parseFrame bytes) none
      else if (parseFrame bytes).flag 0 then e.resolve (laneDie port) port (parseFrame bytes) followed
      else e.byDfid (laneDie port) port (parseFrame bytes) followed := by
  rw [Dev.frameArrive_of_passes h, if_neg h5]
  unfold Dev.lookup
  have hfence' := ((d.looked_arrived port bytes).fenced (laneDie port) (parseFrame bytes)).trans hfence
  dsimp only [Dev.arrived] at hfence' ⊢
  rw [hfence', if_neg Bool.false_ne_true]

/-- A unicast frame by DFID from which nothing is learned. -/
theorem Dev.frameArrive_of_unlearned (h : Passes d port bytes) (h5 : (parseFrame bytes).ftype ≠ 5)
    (hfence : d.fenced (laneDie port) (parseFrame bytes) = false) (hlearn : d.learns port (parseFrame bytes) = false)
    (h0 : (parseFrame bytes).flag 0 = false) (h2 : (parseFrame bytes).flag 2 = false) :
    d.frameArrive port bytes followed [] = (d.arrived port bytes).byDfid (laneDie port) port (parseFrame bytes) followed := by
  rw [Dev.frameArrive_of_unfenced h h5 hfence]
  dsimp only
  rw [h0, h2, Dev.learn_of_not (((d.looked_arrived port bytes).learns port _).trans hlearn)]
  rfl

/-- The DFID of the device reads the same once a frame has arrived. -/
theorem Dev.byDfid_arrived_toDevice (hd : (parseFrame bytes).dest = d.rd F.FWD_DEV_DFID_dfid (laneDie port) 0) :
    (d.arrived port bytes).byDfid (laneDie port) port (parseFrame bytes) followed =
      (d.arrived port bytes).toDevice (laneDie port) port (parseFrame bytes) followed := by
  unfold Dev.byDfid
  rw [(d.changes_arrived port bytes).rd, if_pos hd]

theorem Dev.byDfid_arrived_route (hd : (parseFrame bytes).dest ≠ d.rd F.FWD_DEV_DFID_dfid (laneDie port) 0) :
    (d.arrived port bytes).byDfid (laneDie port) port (parseFrame bytes) followed =
      (d.arrived port bytes).route (laneDie port) (.port port) (parseFrame bytes) (parseFrame bytes).dest none followed := by
  unfold Dev.byDfid
  rw [(d.changes_arrived port bytes).rd, if_neg hd]

end Way

-- The home die of a contribution (R175) ---------------------------------------------------------------------------------------------------

/-- A contribution whose home is the other die waits for its answer. -/
theorem Dev.contribute_of_far {d : Dev} {die : Nat} {f : Frame} (hv : d.on F.SYNC_HOME_DATA_valid die f.slotGroup = true)
    (hfar : d.rd F.SYNC_HOME_DATA_die die f.slotGroup ≠ die) (port : Nat) (followed : Bool) :
    d.contribute die port f followed = { d with fw := { d.fw with homeWait := d.fw.homeWait ++ [⟨die, port, 0, f⟩] } } := by
  unfold Dev.contribute
  rw [hv]
  simp only [Bool.not_true, Bool.false_eq_true, if_false, hfar]

theorem frameArrival_waits {s : State} {port : LaneId} {bytes : List Byte} (hpass : Passes s.dev port.val bytes)
    (h1 : (parseFrame bytes).ftype = 1) (hfence : s.dev.fenced (laneDie port.val) (parseFrame bytes) = false)
    (hlearn : s.dev.learns port.val (parseFrame bytes) = false)
    (hdest : (parseFrame bytes).dest = s.dev.rd F.FWD_DEV_DFID_dfid (laneDie port.val) 0)
    (hv : s.dev.on F.SYNC_HOME_DATA_valid (laneDie port.val) (parseFrame bytes).slotGroup = true)
    (hfar : s.dev.rd F.SYNC_HOME_DATA_die (laneDie port.val) (parseFrame bytes).slotGroup ≠ laneDie port.val) (followed : Bool) :
    ∃ t, exec (.frameArrival port bytes followed []) s = .next t ∧
      t.dev.fw = { s.dev.fw with homeWait := s.dev.fw.homeWait ++ [⟨laneDie port.val, port.val, 0, parseFrame bytes⟩] } ∧
      t.dev.ln.delivered = s.dev.ln.delivered.erase (port.val, bytes) ∧
      RegsKeptBut [.CNT_VAL, .CNT_CTRL] s t ∧ KeepsBut [.regs, .fw, .ln, .quiesced] s t := by
  have harr := s.dev.changes_arrived port.val bytes
  have hflags := hpass.flagsOk
  have hgo : s.dev.frameArrive port.val bytes followed [] = { s.dev.arrived port.val bytes with
      fw := { s.dev.fw with homeWait := s.dev.fw.homeWait ++ [⟨laneDie port.val, port.val, 0, parseFrame bytes⟩] } } := by
    rw [Dev.frameArrive_of_unlearned hpass (by rw [h1]; decide) hfence hlearn (flag_zero_of_flagsOk hflags (.inl h1))
      (flag_two_of_flagsOk hflags h1), Dev.byDfid_arrived_toDevice hdest]
    unfold Dev.toDevice
    rw [if_pos h1, Dev.contribute_of_far ((harr.on (f := F.SYNC_HOME_DATA_valid) (by decide) _ _).trans hv)
        (fun h => hfar ((harr.rd (f := F.SYNC_HOME_DATA_die) (by decide) _ _).symm.trans h)), harr.fw]
  have hall := (harr.weaken (ps' := [.regs, .fw, .ln]) (rs' := [.CNT_VAL, .CNT_CTRL])).andThen (Dev.changes_fw _
    { s.dev.fw with homeWait := s.dev.fw.homeWait ++ [⟨laneDie port.val, port.val, 0, parseFrame bytes⟩] })
  rw [exec_frameArrival, State.after_eq hgo]
  refine ⟨_, rfl, rfl, ?_, hall.regsKeptBut, hall.keepsBut_of_subset⟩
  simp only [State.after_dev, Dev.requiesce_keeps, Dev.arrived_ln]

theorem frameArrival_drops {s : State} {port : LaneId} {bytes : List Byte} {r : Nat} (hp : s.dev.isPort port.val = true)
    (hr : s.dev.dieRuns (laneDie port.val) = true) (hbad : parserReason bytes (s.dev.portBlocks port.val) = some r)
    (followed : Bool) : ∃ t, exec (.frameArrival port bytes followed []) s = .next t ∧
      smGet t.dev.parserDrops (port.val * 16 + r) 0 = smGet s.dev.parserDrops (port.val * 16 + r) 0 + 1 ∧
      KeepsBut [.regs, .ln, .parserDrops, .quiesced] s t := by
  have hall := ((s.dev.changes_handed port.val bytes).weaken (ps' := [.regs, .ln, .parserDrops])
    (rs' := [.TM_CRD_STAT, .CNT_VAL, .CNT_CTRL])).andThen
    (Dev.changes_dropParser _ port.val r (parseFrame bytes).cls bytes.length (linkLocal (parseFrame bytes).ftype))
  rw [exec_frameArrival, State.after_eq (Dev.frameArrive_of_bad hp hr hbad)]
  refine ⟨_, rfl, ?_, hall.keepsBut_of_subset⟩
  simp only [State.after_dev, Dev.requiesce_keeps, Dev.parserDrops_dropParser, (s.dev.changes_handed port.val bytes).parserDrops]

/-- The device with the oldest contribution that waits on a die taken. -/
def Dev.answering (d : Dev) (die : Nat) : Dev := { d with fw := { d.fw with homeWait := d.fw.homeWait.eraseP fun q => q.die == die } }

/-- The home die's answer to a contribution (R175). -/
def Dev.answered (d : Dev) (die : Nat) (p : Parked) : Dev :=
  (d.answering die).packFree.1.homeDecide (d.rd F.SYNC_HOME_DATA_die die p.frame.slotGroup) die p.port p.frame
    (d.answering die).packFree.2

theorem Dev.homeAnswer_eq {d : Dev} {die : Nat} {p : Parked} (hfind : d.fw.homeWait.find? (fun p => p.die == die) = some p)
    (hv : d.on F.SYNC_HOME_DATA_valid die p.frame.slotGroup = true)
    (hruns : d.dieRuns (d.rd F.SYNC_HOME_DATA_die die p.frame.slotGroup) = true) (hpeer : d.peerOk = true) :
    d.homeAnswer die = d.answered die p := by
  have hlook : d.Looked (d.answering die) := (d.changes_fw _).weaken
  have hvalid := (hlook.onAt (f := F.SYNC_HOME_DATA_valid) (by decide) die p.frame.slotGroup).trans hv
  have hhome := hlook.rdAt (f := F.SYNC_HOME_DATA_die) (by decide) die p.frame.slotGroup
  have hruns' : (d.answering die).dieRuns (d.rd F.SYNC_HOME_DATA_die die p.frame.slotGroup) = true := hruns
  have hpeer' := hlook.peerOk.trans hpeer
  unfold Dev.homeAnswer Dev.answered
  rw [hfind]
  rw [Dev.answering] at *
  dsimp only
  rw [hhome, hvalid, hruns', hpeer', if_neg (by decide), if_neg (by decide)]

theorem homeDieAnswer_decides {s : State} {die : DieId} {p : Parked}
    (hfind : s.dev.fw.homeWait.find? (fun p => p.die == die.val) = some p)
    (hv : s.dev.on F.SYNC_HOME_DATA_valid die.val p.frame.slotGroup = true)
    (hruns : s.dev.dieRuns (s.dev.rd F.SYNC_HOME_DATA_die die.val p.frame.slotGroup) = true) (hpeer : s.dev.peerOk = true) :
    exec (.homeDieAnswer die) s = .next (s.after fun d => d.answered die.val p) := by
  rw [exec_homeDieAnswer, State.after_eq (Dev.homeAnswer_eq hfind hv hruns hpeer)]
  exact congrArg Host.Outcome.next (State.after_eq (f := fun d => d.answered die.val p) rfl).symm

end Sys2Proof.Machine
end

section
/-! PROOF. A unicast frame by its route: dropped under its reason, or last in its queue with its cells (R74, R92, R123). -/

namespace Sys2Proof.Machine

set_option Elab.async false

theorem Dev.SameTables.bankFor {a b : Dev} (h : a.SameTables b) (die epoch : Nat) : b.bankFor die epoch = a.bankFor die epoch := by
  simp (disch := decide) only [Dev.bankFor, h.onAt, h.rdAt, h.1]

theorem Dev.changes_lookRoute (d : Dev) (die bank : Nat) (o : Origin) (f : Frame) :
    d.Changes [.regs, .fw, .ev] loggingRegs (d.lookRoute die bank o f).1 :=
  (d.changes_cntPC ..).weaken.trans (Dev.changes_lpm ..)

theorem Dev.looked_lookRoute (d : Dev) (die bank : Nat) (o : Origin) (f : Frame) : d.Looked (d.lookRoute die bank o f).1 :=
  (d.changes_lookRoute ..).weaken

/-- The route of a frame is found as before it arrived. -/
theorem Dev.lookRoute_arrived_snd (d : Dev) (port : Nat) (bytes : List Byte) (die bank : Nat) (o : Origin) (f : Frame) :
    ((d.arrived port bytes).lookRoute die bank o f).2 = (d.lpm die bank f.dest 24).2 := by
  have hcount : d.SameTables ((d.arrived port bytes).cntPC ⟨die, 0⟩ 2 o.port? (some f.cls) 1) :=
    .of_changes (((d.changes_arrived port bytes).weaken (ps' := [.regs, .ln]) (rs' := loggingRegs)).andThen (Dev.changes_cntPC ..))
  exact hcount.lpm die bank f.dest 24

theorem hopDead_of_live {f : Frame} (h : f.hop ≠ 0) (o : Origin) : hopDead o f = false := by simp [hopDead, h]

theorem hopDead_of_port {f : Frame} (h : f.hop = 0) (port : Nat) : hopDead (.port port) f = true := by simp [hopDead, h, Origin.port?]

-- Drops -----------------------------------------------------------------------------------------------------------------------------------

/-- A frame dropped by a lookup step counts once under its reason and no queue changes. -/
theorem dropFwd_outcome {s : State} {d : Dev} (h : s.dev.Looked d) (die k : Nat) (o : Origin) (f : Frame) :
    Counted F.FWD_DROP_CNT_frames die k s (s.after fun _ => d.dropFwd die k o f) ∧
    (s.after fun _ => d.dropFwd die k o f).dev.sw.queue = s.dev.sw.queue := by
  have hrest : (d.inc F.FWD_DROP_CNT_frames die k 1).Changes [.regs] [.TM_CRD_STAT, .CNT_VAL, .CNT_CTRL] (d.dropFwd die k o f) :=
    ((Dev.changes_cntPC ..).weaken).andThen (Dev.changes_oweFrame ..)
  refine ⟨h.counted hrest, ?_⟩
  simp only [State.after_dev, Dev.requiesce_keeps, hrest.sw]
  exact congrArg SwState.queue h.sw

/-- A frame dropped by check 11 counts once under it at its port and no queue changes. -/
theorem dropHop_outcome {s : State} {d : Dev} (h : s.dev.Looked d) (port : Nat) (f : Frame) :
    smGet (s.after fun _ => d.dropHop (.port port) f).dev.parserDrops (port * 16 + 11) 0 =
      smGet s.dev.parserDrops (port * 16 + 11) 0 + 1 ∧
    (s.after fun _ => d.dropHop (.port port) f).dev.sw.queue = s.dev.sw.queue := by
  simp only [State.after_dev, Dev.requiesce_keeps, Dev.dropHop, Dev.parserDrops_dropParser, (Dev.changes_dropParser ..).sw,
    h.parserDrops, h.sw, and_self]

/-- Whatever its lookup finds, a frame with hop limit 0 is dropped by check 11. -/
theorem Dev.routed_of_dead {o : Origin} {f : Frame} (h : hopDead o f = true) (d : Dev) (die dest0 : Nat) (followed : Bool)
    (r : RouteRes) : d.routed die o f dest0 followed r = d.dropHop o f := by
  have hdrop : ∀ k, d.dropRoute die k o f = d.dropHop o f := fun k => if_pos h
  cases r with
  | none | poisoned => exact hdrop _
  | target kind tgt =>
    unfold Dev.routed
    dsimp only
    rw [hdrop, Dev.sendTarget_eq, if_pos h, ite_self]

theorem Dev.route_of_dead {o : Origin} {f : Frame} (h : hopDead o f = true) (d : Dev) (die dest0 : Nat) (followed : Bool) :
    ∃ e, d.Looked e ∧ d.route die o f dest0 none followed = e.dropHop o f := by
  cases hbank : d.bankFor die f.epoch with
  | none => exact ⟨d, .rfl' _ _ d, (Dev.route_of_no_bank hbank ..).trans (if_pos h)⟩
  | some bank => exact ⟨_, d.looked_lookRoute die bank o f, (Dev.route_of_bank hbank ..).trans (Dev.routed_of_dead h ..)⟩

-- Delivery (R74, R77, R92, R99) -----------------------------------------------------------------------------------------------------------

/-- A frame as it leaves a port that no meter watches: colour 3 becomes 2 (R64). -/
def Frame.unmetered (f : Frame) : Frame := if f.colour = 3 ∧ f.ftype ≤ 2 then Frame.setColour f 2 else f

theorem Frame.setColour_keeps (f : Frame) (c : Nat) : (Frame.setColour f c).cls = f.cls ∧ (Frame.setColour f c).len = f.len :=
  ⟨fget_fput_disj _ _ (by decide) (by decide), rfl⟩

theorem Frame.unmetered_cls (f : Frame) : (Frame.unmetered f).cls = f.cls := by
  unfold Frame.unmetered
  split
  · exact (Frame.setColour_keeps f 2).1
  · rfl

theorem Frame.unmetered_len (f : Frame) : (Frame.unmetered f).len = f.len := by
  unfold Frame.unmetered
  split
  · exact (Frame.setColour_keeps f 2).2
  · rfl

theorem Dev.meterAt_of_none {d : Dev} {port : Nat} {f : Frame} (h : d.meterOf port f.cls = none) :
    d.meterAt (.port port) f = (d, some (Frame.unmetered f)) := by
  unfold Dev.meterAt Dev.meter Frame.unmetered
  simp only [h, Bool.and_eq_true, decide_eq_true_eq]

/-- Without a meter and in a lossless class a frame toward a port is admitted at once. -/
theorem Dev.sendPort_of_lossless {d : Dev} {port : Nat} {f : Frame} (hmeter : d.meterOf port f.cls = none) {die : Nat}
    (hloss : d.lossless die (Machine.requester (.port port) f.cls) f.cls = true) (p : Nat) (followed : Bool) :
    d.sendPort die (.port port) p f none followed = d.admitUnicast die (.port port) (.port p) (Frame.unmetered f) none followed := by
  rw [Dev.sendPort_eq, Dev.meterAt_of_none hmeter]
  dsimp only
  rw [Frame.unmetered_cls, hloss]
  rfl

/-- The device with its round-robin pointers as a choice of a member left them (R93). -/
def Dev.turned (d : Dev) (rr : SMap Nat) : Dev := { d with sw := { d.sw with rr := rr } }

theorem Dev.changes_turned (d : Dev) (rr : SMap Nat) : d.Changes [.sw] [] (d.turned rr) := d.changes_sw _

/-- What names the port of a target: the route itself, with the port open, or the bundle's choice. -/
def Dev.Names (d : Dev) (die : Nat) (o : Origin) (f : Frame) (kind tgt p : Nat) : Prop :=
  kind = 1 ∧ tgt = p ∧ d.portOpen die p = true ∨ kind = 2 ∧ (d.chooseMember o tgt f f.dest none).2 = some p

theorem Dev.Looked.pickOf {d e : Dev} (h : d.Looked e) {die kind tgt p : Nat} {o : Origin} {f : Frame} (hp : d.Names die o f kind tgt p) :
    ∃ rr, e.pickOf o kind tgt f f.dest = (e.turned rr, some p) := by
  rcases hp with ⟨rfl, rfl, -⟩ | ⟨rfl, hchoice⟩
  · exact ⟨e.sw.rr, rfl⟩
  · obtain ⟨rr, hfst⟩ := e.chooseMember_fst o tgt f f.dest none
    exact ⟨rr, Prod.ext hfst ((h.chooseMember_snd ..).trans hchoice)⟩

/-- A frame whose target names an open port of an admitted block is sent toward it. -/
theorem Dev.Looked.routed {d e : Dev} (h : d.Looked e) {die kind tgt p : Nat} {o : Origin} {f : Frame} (hlive : f.hop ≠ 0)
    (hp : d.Names die o f kind tgt p) (hadm : d.admitted (laneDie p) f.block = true) (followed : Bool) :
    ∃ rr, e.routed die o f f.dest followed (.target kind tgt) = (e.turned rr).sendPort die o p f none followed := by
  obtain ⟨rr, hpick⟩ := h.pickOf hp
  have hadm' : (e.turned rr).admitted (laneDie p) f.block = true := (h.admitted ..).trans hadm
  have hopen : (decide (kind ≠ 2) && !(e.turned rr).portOpen die p) = false := by
    rcases hp with ⟨rfl, -, hopen⟩ | ⟨rfl, -⟩
    · rw [show (e.turned rr).portOpen die p = true from (h.portOpen ..).trans hopen]
      rfl
    · rfl
  have h3 : kind ≠ 3 := by rcases hp with ⟨rfl, -⟩ | ⟨rfl, -⟩ <;> decide
  refine ⟨rr, ?_⟩
  unfold Dev.routed
  dsimp only
  rw [if_neg h3, Dev.sendTarget_eq, hopDead_of_live hlive, if_neg Bool.false_ne_true, hpick]
  dsimp only
  rw [hadm', hopen]
  rfl

/-- Of the switch, a frame that is taken in changes the cells, the open cells, the credits held back and the queue, where it is last. -/
theorem Dev.takeIn_sw (d : Dev) (die : Nat) (o : Origin) (p : Nat) (f : Frame) (followed : Bool) (c : List Nat × Nat) (ks : List Nat) :
    ∃ cells opens stamp flip flips, (d.takeIn die o p f followed c ks).sw = { d.sw with
      cells := cells, opens := opens, nextId := d.sw.nextId + 1,
      holds := d.sw.holds ++ o.hold d.sw.nextId f.cls f.len (c.1 ++ ks),
      queue := d.sw.queue ++
        [⟨d.sw.nextId, die, o, .port p, f.cls, f, c.1 ++ ks, c.2, none, stamp, d.tick, flip, flips, none, none⟩] } := by
  have hwrite := d.changes_writeIn die o f.cls f.len
  unfold Dev.takeIn
  dsimp only
  rw [hwrite.sw, hwrite.tick]
  obtain ⟨stamp, h⟩ := Dev.enqueue_sw _ _
  exact ⟨_, _, stamp, _, _, h⟩

theorem Dev.openCell_of_none {d : Dev} {vk : Nat} (h : smFind d.sw.opens vk = none) : d.openCell vk = ([], 0) := by
  unfold Dev.openCell
  rw [h]

theorem cellsBehind_zero (len : Nat) : cellsBehind 0 len = (len + 255) / 256 := by simp [cellsBehind]

/-- Where a reservation finds cells, a frame of a VOQ without an open cell takes them. -/
theorem Dev.admitUnicast_of_reserved {d : Dev} {die : Nat} {o : Origin} {p : Nat} {f : Frame} {ks : List Nat}
    (hopen : smFind d.sw.opens (voqKey o (.port p) f.cls) = none)
    (hres : (d.reserve die o f.cls ((f.len + 255) / 256) false).2 = .ok ks) (followed : Bool) :
    d.admitUnicast die o (.port p) f none followed =
      (d.reserve die o f.cls ((f.len + 255) / 256) false).1.takeIn die o p f followed ([], 0) ks := by
  rw [Dev.admitUnicast_eq, Dev.openCell_of_none hopen]
  dsimp only
  rw [cellsBehind_zero]
  obtain ⟨⟨e, r⟩, hr⟩ : ∃ r, d.reserve die o f.cls ((f.len + 255) / 256) false = r := ⟨_, rfl⟩
  rw [hr] at hres ⊢
  cases hres
  rfl

-- A frame that arrives (R119) -------------------------------------------------------------------------------------------------------------

/-- A unicast frame addressed by a DFID that is not the device's, from which nothing is learned. -/
structure Dev.Forwards (d : Dev) (port : Nat) (bytes : List Byte) : Prop where
  passes : Passes d port bytes
  ftype : (parseFrame bytes).ftype ≠ 5
  unfenced : d.fenced (laneDie port) (parseFrame bytes) = false
  unlearned : d.learns port (parseFrame bytes) = false
  byDfid : (parseFrame bytes).flag 0 = false
  unicast : (parseFrame bytes).flag 2 = false
  away : (parseFrame bytes).dest ≠ d.rd F.FWD_DEV_DFID_dfid (laneDie port) 0

namespace Dev.Forwards

variable {d : Dev} {port : Nat} {bytes : List Byte}

theorem frameArrive (h : d.Forwards port bytes) (followed : Bool) : d.frameArrive port bytes followed [] =
    (d.arrived port bytes).route (laneDie port) (.port port) (parseFrame bytes) (parseFrame bytes).dest none followed := by
  rw [Dev.frameArrive_of_unlearned h.passes h.ftype h.unfenced h.unlearned h.byDfid h.unicast, Dev.byDfid_arrived_route h.away]

theorem bankFor_arrived (d : Dev) (port : Nat) (bytes : List Byte) (epoch : Nat) :
    (d.arrived port bytes).bankFor (laneDie port) epoch = d.bankFor (laneDie port) epoch :=
  (Dev.SameTables.of_changes (d.changes_arrived port bytes)).bankFor ..

theorem frameArrive_of_no_bank (h : d.Forwards port bytes) (hlive : (parseFrame bytes).hop ≠ 0)
    (hbank : d.bankFor (laneDie port) (parseFrame bytes).epoch = none) (followed : Bool) :
    d.frameArrive port bytes followed [] = (d.arrived port bytes).dropFwd (laneDie port) 2 (.port port) (parseFrame bytes) := by
  rw [h.frameArrive, Dev.route_of_no_bank ((bankFor_arrived ..).trans hbank), Dev.dropRoute, hopDead_of_live hlive]
  rfl

/-- What a frame's route leads to. -/
theorem frameArrive_of_bank (h : d.Forwards port bytes) {bank : Nat}
    (hbank : d.bankFor (laneDie port) (parseFrame bytes).epoch = some bank) (followed : Bool) : ∃ e, d.Looked e ∧
      e.ln = (d.arrived port bytes).ln ∧ d.frameArrive port bytes followed [] =
        e.routed (laneDie port) (.port port) (parseFrame bytes) (parseFrame bytes).dest followed
          (d.lpm (laneDie port) bank (parseFrame bytes).dest 24).2 := by
  refine ⟨_, (d.looked_arrived port bytes).trans (Dev.looked_lookRoute _ (laneDie port) bank (.port port) (parseFrame bytes)),
    (Dev.changes_lookRoute ..).ln, ?_⟩
  rw [h.frameArrive, Dev.route_of_bank ((bankFor_arrived ..).trans hbank), Dev.lookRoute_arrived_snd]

theorem frameArrive_of_dead (h : d.Forwards port bytes) (hdead : (parseFrame bytes).hop = 0) (followed : Bool) :
    ∃ e, d.Looked e ∧ d.frameArrive port bytes followed [] = e.dropHop (.port port) (parseFrame bytes) := by
  obtain ⟨e, he, hroute⟩ := Dev.route_of_dead (hopDead_of_port hdead port) (d.arrived port bytes) (laneDie port) (parseFrame bytes).dest
    followed
  exact ⟨e, (d.looked_arrived port bytes).trans he, (h.frameArrive followed).trans hroute⟩

end Dev.Forwards

section Forwarding

variable {s : State} {port : LaneId} {bytes : List Byte}

/-- A frame that its lookup drops, with what it counts. -/
theorem frameArrival_dropFwd {d : Dev} (h : s.dev.Looked d) {k : Nat} {o : Origin} {f : Frame} {followed : Bool}
    (hgo : s.dev.frameArrive port.val bytes followed [] = d.dropFwd (laneDie port.val) k o f) :
    ∃ t, exec (.frameArrival port bytes followed []) s = .next t ∧ Counted F.FWD_DROP_CNT_frames (laneDie port.val) k s t ∧
      t.dev.sw.queue = s.dev.sw.queue := by
  rw [exec_frameArrival, State.after_eq hgo]
  exact ⟨_, rfl, dropFwd_outcome h ..⟩

theorem frameArrival_no_bank (h : s.dev.Forwards port.val bytes) (hlive : (parseFrame bytes).hop ≠ 0)
    (hbank : s.dev.bankFor (laneDie port.val) (parseFrame bytes).epoch = none) (followed : Bool) :
    ∃ t, exec (.frameArrival port bytes followed []) s = .next t ∧ Counted F.FWD_DROP_CNT_frames (laneDie port.val) 2 s t ∧
      t.dev.sw.queue = s.dev.sw.queue :=
  frameArrival_dropFwd (s.dev.looked_arrived port.val bytes) (h.frameArrive_of_no_bank hlive hbank followed)

theorem frameArrival_no_route (h : s.dev.Forwards port.val bytes) (hlive : (parseFrame bytes).hop ≠ 0) {bank : Nat}
    (hbank : s.dev.bankFor (laneDie port.val) (parseFrame bytes).epoch = some bank)
    (hfound : (s.dev.lpm (laneDie port.val) bank (parseFrame bytes).dest 24).2 = .none) (followed : Bool) :
    ∃ t, exec (.frameArrival port bytes followed []) s = .next t ∧ Counted F.FWD_DROP_CNT_frames (laneDie port.val) 1 s t ∧
      t.dev.sw.queue = s.dev.sw.queue := by
  obtain ⟨e, he, -, hgo⟩ := h.frameArrive_of_bank hbank followed
  rw [hfound, Dev.routed, Dev.dropRoute, hopDead_of_live hlive, if_neg Bool.false_ne_true] at hgo
  exact frameArrival_dropFwd he hgo

theorem frameArrival_poisoned (h : s.dev.Forwards port.val bytes) (hlive : (parseFrame bytes).hop ≠ 0) {bank : Nat}
    (hbank : s.dev.bankFor (laneDie port.val) (parseFrame bytes).epoch = some bank)
    (hfound : (s.dev.lpm (laneDie port.val) bank (parseFrame bytes).dest 24).2 = .poisoned) (followed : Bool) :
    ∃ t, exec (.frameArrival port bytes followed []) s = .next t ∧ Counted F.FWD_DROP_CNT_frames (laneDie port.val) 4 s t ∧
      t.dev.sw.queue = s.dev.sw.queue := by
  obtain ⟨e, he, -, hgo⟩ := h.frameArrive_of_bank hbank followed
  rw [hfound, Dev.routed, Dev.dropRoute, hopDead_of_live hlive, if_neg Bool.false_ne_true] at hgo
  exact frameArrival_dropFwd he hgo

theorem frameArrival_dead (h : s.dev.Forwards port.val bytes) (hdead : (parseFrame bytes).hop = 0) (followed : Bool) :
    ∃ t, exec (.frameArrival port bytes followed []) s = .next t ∧
      smGet t.dev.parserDrops (port.val * 16 + 11) 0 = smGet s.dev.parserDrops (port.val * 16 + 11) 0 + 1 ∧
      t.dev.sw.queue = s.dev.sw.queue := by
  obtain ⟨e, he, hgo⟩ := h.frameArrive_of_dead hdead followed
  rw [exec_frameArrival, State.after_eq hgo]
  exact ⟨_, rfl, dropHop_outcome he ..⟩

/-- A frame whose target names a port, with cells for it, is taken in there. -/
theorem Dev.Forwards.frameArrive_of_room {d : Dev} {port : Nat} (h : d.Forwards port bytes) (hlive : (parseFrame bytes).hop ≠ 0)
    {bank kind tgt p : Nat} {ks : List Nat} (hbank : d.bankFor (laneDie port) (parseFrame bytes).epoch = some bank)
    (hfound : (d.lpm (laneDie port) bank (parseFrame bytes).dest 24).2 = .target kind tgt)
    (hnames : d.Names (laneDie port) (.port port) (parseFrame bytes) kind tgt p)
    (hadm : d.admitted (laneDie p) (parseFrame bytes).block = true) (hmeter : d.meterOf port (parseFrame bytes).cls = none)
    (hloss : d.lossless (laneDie port) (Machine.requester (.port port) (parseFrame bytes).cls) (parseFrame bytes).cls = true)
    (hopen : smFind d.sw.opens (voqKey (.port port) (.port p) (parseFrame bytes).cls) = none)
    (hres : (d.reserve (laneDie port) (.port port) (parseFrame bytes).cls (((parseFrame bytes).len + 255) / 256) false).2 = .ok ks)
    (followed : Bool) : ∃ e cells rr, d.Changes [.regs, .ln, .sw, .fw, .ev, .freeCtr] passRegs e ∧
      e.sw = { d.sw with cells := cells, rr := rr } ∧ e.ln = (d.arrived port bytes).ln ∧
      d.frameArrive port bytes followed [] =
        e.takeIn (laneDie port) (.port port) p (Frame.unmetered (parseFrame bytes)) followed ([], 0) ks := by
  obtain ⟨e, he, hln, hgo⟩ := h.frameArrive_of_bank hbank followed
  obtain ⟨rr, hsend⟩ := he.routed hlive hnames hadm followed
  have hcls := Frame.unmetered_cls (parseFrame bytes)
  have hlen := Frame.unmetered_len (parseFrame bytes)
  have hres' : ((e.turned rr).reserve (laneDie port) (.port port) (Frame.unmetered (parseFrame bytes)).cls
      (((Frame.unmetered (parseFrame bytes)).len + 255) / 256) false).2 = .ok ks := by
    rw [hcls, hlen, ← hres]
    have hcells : (e.turned rr).sw.cells = d.sw.cells := by rw [← he.sw]; rfl
    have hmrecs : (e.turned rr).sw.mrecs = d.sw.mrecs := by rw [← he.sw]; rfl
    exact Dev.reserve_snd_congr (b := e.turned rr) he.freeCtr hcells hmrecs he.regs ..
  have hopen' : smFind (e.turned rr).sw.opens (voqKey (.port port) (.port p) (Frame.unmetered (parseFrame bytes)).cls) = none := by
    rw [hcls, ← hopen, ← he.sw]
    rfl
  have hturned := (he.weaken (ps' := [.regs, .ln, .sw, .fw, .ev, .freeCtr]) (rs' := passRegs)).andThen (e.changes_turned rr)
  have hreserved := (e.turned rr).changes_reserve (laneDie port) (.port port) (Frame.unmetered (parseFrame bytes)).cls
    (((Frame.unmetered (parseFrame bytes)).len + 255) / 256) false
  obtain ⟨cells, hcells⟩ := (e.turned rr).reserve_sw (laneDie port) (.port port) (Frame.unmetered (parseFrame bytes)).cls
    (((Frame.unmetered (parseFrame bytes)).len + 255) / 256) false
  refine ⟨_, cells, rr, hturned.andThen hreserved, ?_, hreserved.ln.trans hln, ?_⟩
  · rw [hcells, Dev.turned, he.sw]
  · rw [hgo, hfound, hsend, Dev.sendPort_of_lossless (d := e.turned rr) ((he.meterOf ..).trans hmeter) ((he.lossless ..).trans hloss),
      Dev.admitUnicast_of_reserved hopen' hres']

/-- Such a frame stands last in its queue with its cells, and its credit is held back until they are free. -/
theorem frameArrival_queues (h : s.dev.Forwards port.val bytes) (hlive : (parseFrame bytes).hop ≠ 0)
    {bank kind tgt p : Nat} {ks : List Nat} (hbank : s.dev.bankFor (laneDie port.val) (parseFrame bytes).epoch = some bank)
    (hfound : (s.dev.lpm (laneDie port.val) bank (parseFrame bytes).dest 24).2 = .target kind tgt)
    (hnames : s.dev.Names (laneDie port.val) (.port port.val) (parseFrame bytes) kind tgt p)
    (hadm : s.dev.admitted (laneDie p) (parseFrame bytes).block = true) (hmeter : s.dev.meterOf port.val (parseFrame bytes).cls = none)
    (hloss : s.dev.lossless (laneDie port.val) (Machine.requester (.port port.val) (parseFrame bytes).cls) (parseFrame bytes).cls = true)
    (hopen : smFind s.dev.sw.opens (voqKey (.port port.val) (.port p) (parseFrame bytes).cls) = none)
    (hres : (s.dev.reserve (laneDie port.val) (.port port.val) (parseFrame bytes).cls (((parseFrame bytes).len + 255) / 256) false).2
      = .ok ks) (followed : Bool) :
    ∃ (t : State) (x : Desc), exec (.frameArrival port bytes followed []) s = .next t ∧ t.dev.sw.queue = s.dev.sw.queue ++ [x] ∧
      x.frame = Frame.unmetered (parseFrame bytes) ∧ x.id = s.dev.sw.nextId ∧ x.die = laneDie port.val ∧ x.origin = .port port.val ∧
      x.dest = .port p ∧ x.cls = (parseFrame bytes).cls ∧ x.cells = ks ∧ x.offset = 0 ∧ x.mrec = none ∧ x.enq = s.dev.tick ∧
      x.result = none ∧ x.chunk = none ∧
      t.dev.sw.holds = s.dev.sw.holds ++
        [(⟨s.dev.sw.nextId, port.val, (parseFrame bytes).cls, creditsFor (parseFrame bytes).len, ks⟩ : CreditHold)] ∧
      t.dev.sw.nextId = s.dev.sw.nextId + 1 ∧ t.dev.ln.delivered = s.dev.ln.delivered.erase (port.val, bytes) ∧
      KeepsBut [.regs, .ln, .sw, .fw, .ev, .freeCtr, .quiesced] s t := by
  obtain ⟨e, cells, rr, hall, hsw, hln, hgo⟩ :=
    h.frameArrive_of_room hlive hbank hfound hnames hadm hmeter hloss hopen hres followed
  have hin := e.changes_takeIn (laneDie port.val) (.port port.val) p (Frame.unmetered (parseFrame bytes)) followed ([], 0) ks
  obtain ⟨_, _, stamp, flip, flips, htaken⟩ :=
    e.takeIn_sw (laneDie port.val) (.port port.val) p (Frame.unmetered (parseFrame bytes)) followed ([], 0) ks
  rw [hsw, hall.tick, Frame.unmetered_cls, Frame.unmetered_len] at htaken
  rw [exec_frameArrival, State.after_eq hgo]
  refine ⟨_, ⟨s.dev.sw.nextId, laneDie port.val, .port port.val, .port p, (parseFrame bytes).cls, Frame.unmetered (parseFrame bytes), ks,
    0, none, stamp, s.dev.tick, flip, flips, none, none⟩, rfl, ?_⟩
  simp only [State.after_dev, Dev.requiesce_keeps, htaken, hin.ln, hln, Dev.arrived_ln, Origin.hold, List.nil_append, true_and]
  exact (hall.andThen hin).keepsBut_of_subset

end Forwarding

end Sys2Proof.Machine
end

section
/-! PROOF. Learning from a frame (R129): the entry it writes, and the event it counts. -/

namespace Sys2Proof.Machine

set_option Elab.async false

-- What leaves a die's logical table and one count of its events as they were ---------------------------------------------------------------

/-- The device `b` has the logical tables of `a`, its registers but those of the passage of frames and the lookup's events, and the
same count of events of index `k` on a die. -/
structure Dev.Quiet (die k : Nat) (a b : Dev) : Prop where
  logical : b.fw.logical = a.fw.logical
  regs : SameRegs (.FWD_EVT_CNT :: passRegs) a.regs b.regs
  count : b.rd F.FWD_EVT_CNT_events die k = a.rd F.FWD_EVT_CNT_events die k

namespace Dev.Quiet

variable {die k : Nat} {a b c : Dev}

theorem rfl' (die k : Nat) (d : Dev) : d.Quiet die k d := ⟨rfl, SameRegs.rfl' _ _, rfl⟩

theorem trans (h : a.Quiet die k b) (g : b.Quiet die k c) : a.Quiet die k c :=
  ⟨g.logical.trans h.logical, h.regs.trans g.regs, g.count.trans h.count⟩

theorem of_changes {ps : List Part} {rs : List Reg} (h : a.Changes ps rs b) (hl : b.fw.logical = a.fw.logical)
    (hr : ∀ r ∈ rs, r ∈ passRegs := by decide) : a.Quiet die k b :=
  ⟨hl, h.regs.weaken fun r hm => List.mem_cons_of_mem _ (hr r hm), h.rd (fun hm => by
    have := hr _ hm
    revert this
    decide) die k⟩

theorem of_sends (h : a.Sends b) : a.Quiet die k b := of_changes h.changes h.logical (fun _ h => h)

end Dev.Quiet

theorem Dev.evtAt_FWD (d : Dev) (die k : Nat) (port cls : Option Nat) :
    d.evtAt .FWD die k port cls 1 = (d.inc F.FWD_EVT_CNT_events die k 1).cntPC ⟨die, 0⟩ (0x200 + k) port cls 1 := rfl

theorem Dev.changes_evtAt_FWD (d : Dev) (die k : Nat) (port cls : Option Nat) :
    d.Changes [.regs] [.FWD_EVT_CNT, .CNT_VAL, .CNT_CTRL] (d.evtAt .FWD die k port cls 1) :=
  (d.changes_inc F.FWD_EVT_CNT_events die k 1).weaken.andThen (Dev.changes_cntPC ..)

theorem Dev.rd_evtAt_FWD_same (d : Dev) (die k : Nat) (port cls : Option Nat) :
    (d.evtAt .FWD die k port cls 1).rd F.FWD_EVT_CNT_events die k =
      Nat.min F.FWD_EVT_CNT_events.max (d.rd F.FWD_EVT_CNT_events die k + 1) := by
  rw [Dev.evtAt_FWD, (Dev.changes_cntPC ..).rd, Dev.rd_inc_same _ _ _ _ _ (by decide)]

/-- An event of another index leaves a count. -/
theorem Dev.quiet_evtAt_FWD (d : Dev) {die k j : Nat} (hd : die < 32) (hk : k < 16) (hj : j < 16) (h : k ≠ j) (port cls : Option Nat) :
    d.Quiet die k (d.evtAt .FWD die j port cls 1) := by
  have hall := d.changes_evtAt_FWD die j port cls
  refine ⟨by rw [hall.fw], hall.regs.weaken (by decide), ?_⟩
  rw [Dev.evtAt_FWD, (Dev.changes_cntPC ..).rd]
  exact Dev.rd_wr_ne _ _ hd hd (by omega) (by omega) (.inr (.inr h))

theorem Dev.quiet_learnRecord (d : Dev) {die k : Nat} (hd : die < 32) (hk : k < 16) (h : k ≠ 5) (kind : Nat) (old new : Option LogEntry)
    (key : Nat) : d.Quiet die k (d.learnRecord die kind old new key) := by
  have hevent := fun e2 e3 => d.changes_event .FWD die 1 e2 e3
  unfold Dev.learnRecord
  dsimp only
  split
  · exact d.quiet_evtAt_FWD hd hk (by decide) h none none
  · exact .of_changes (hevent _ _) (by rw [(hevent _ _).fw])

theorem Dev.sendChange_eq (d : Dev) (die key : Nat) (e : Option LogEntry) (refresh : Bool) :
    ∃ lastChange cross, d.sendChange die key e refresh = { d with fw := { d.fw with lastChange := lastChange, cross := cross } } := by
  unfold Dev.sendChange
  dsimp only
  generalize smInsert d.fw.lastChange _ _ = lastChange
  split
  · exact ⟨lastChange, _, rfl⟩
  · exact ⟨lastChange, d.fw.cross, rfl⟩

theorem Dev.quiet_sendChange (d : Dev) (die k die' key : Nat) (e : Option LogEntry) (refresh : Bool) :
    d.Quiet die k (d.sendChange die' key e refresh) := by
  obtain ⟨_, _, h⟩ := d.sendChange_eq die' key e refresh
  rw [h]
  exact .of_changes (d.changes_fw _) rfl

-- The entry of a key (R121, R124) ---------------------------------------------------------------------------------------------------------

/-- What stands at a position of a die's on-die table, if it is of a key. -/
def logAt (m : SMap LogEntry) (die key p : Nat) : Option (Nat × LogEntry) :=
  match smFind m (lgBase die + p) with
  | some e => if e.key = key then some (p, e) else none
  | none => none

theorem Dev.findLog_eq (d : Dev) (die key : Nat) : d.findLog die key = (d.logPos die key 32768).findSome? (logAt d.fw.logical die key) :=
  rfl

theorem logAt_pos {m : SMap LogEntry} {die key q : Nat} {c : Nat × LogEntry} (h : logAt m die key q = some c) : c.1 = q := by
  unfold logAt at h
  split at h
  · split at h
    · cases h
      rfl
    · cases h
  · cases h

theorem logAt_smInsert_same (m : SMap LogEntry) (die p : Nat) (e : LogEntry) :
    logAt (smInsert m (lgBase die + p) e) die e.key p = some (p, e) := by
  unfold logAt
  rw [smFind_smInsert_same]
  exact if_pos rfl

theorem logAt_smInsert_ne (m : SMap LogEntry) (die key : Nat) {p q : Nat} (e : LogEntry) (h : q ≠ p) :
    logAt (smInsert m (lgBase die + p) e) die key q = logAt m die key q := by
  unfold logAt
  rw [smFind_smInsert_ne _ _ (by omega)]

/-- The first place of a list that passes stays the first when another place's answer changes only there. -/
theorem findSome?_updated {β : Type} {g g' : Nat → Option (Nat × β)} {p : Nat} {b : Nat × β} (hp : g' p = some b)
    (hsame : ∀ q, q ≠ p → g' q = g q) (hpos : ∀ q c, g q = some c → c.1 = q) (l : List Nat) (hl : p ∈ l)
    (hfirst : ∀ c, l.findSome? g = some c → c.1 = p) : l.findSome? g' = some b := by
  induction l with
  | nil => cases hl
  | cons q l ih =>
    by_cases hq : q = p
    · simp [hq, hp]
    · have hnone : g q = none := by
        cases hg : g q with
        | none => rfl
        | some c => exact absurd ((hpos q c hg).symm.trans (hfirst c (by simp [hg]))) hq
      rw [List.findSome?_cons, hsame q hq, hnone]
      exact ih ((List.mem_cons.1 hl).resolve_left (Ne.symm hq)) fun c hc => hfirst c (by simp [hnone, hc])

theorem Dev.logPos_congr {a b : Dev} {die : Nat} (h : b.rd F.FWD_SEED_seed die 0 = a.rd F.FWD_SEED_seed die 0) (key nb : Nat) :
    b.logPos die key nb = a.logPos die key nb := by
  simp only [Dev.logPos, Dev.hash1, Dev.hash2, h]

theorem Dev.findLog_congr {a b : Dev} {die : Nat} (hseed : b.rd F.FWD_SEED_seed die 0 = a.rd F.FWD_SEED_seed die 0)
    (hl : b.fw.logical = a.fw.logical) (key : Nat) : b.findLog die key = a.findLog die key := by
  rw [Dev.findLog_eq, Dev.findLog_eq, hl, Dev.logPos_congr hseed]

theorem Dev.findLog_requiesce (d : Dev) (die key : Nat) : d.requiesce.findLog die key = d.findLog die key := Dev.findLog_congr rfl rfl key

theorem Dev.Quiet.findLog {die k : Nat} {a b : Dev} (h : a.Quiet die k b) (die' key : Nat) : b.findLog die' key = a.findLog die' key :=
  Dev.findLog_congr (Dev.rd_of_sameRegs h.regs (by decide) die' 0) h.logical key

theorem Dev.Quiet.logPos {die k : Nat} {a b : Dev} (h : a.Quiet die k b) (die' key nb : Nat) : b.logPos die' key nb = a.logPos die' key nb :=
  Dev.logPos_congr (Dev.rd_of_sameRegs h.regs (by decide) die' 0) key nb

-- Reading and writing entries (R128, R143, R415) ------------------------------------------------------------------------------------------

/-- A read meets no error where no entry of the key's positions holds one. -/
theorem Dev.readKey_of_clean {d : Dev} {die key : Nat} (h : KeyClean d die key) : d.readKey die key = d := by
  have hread : ∀ p ∈ d.logPos die key 32768, d.readLog die p key = d := fun p hp => by
    unfold Dev.readLog
    split
    · rfl
    next e he => rw [if_pos (h p hp e he)]
  unfold Dev.readKey Dev.each
  generalize d.logPos die key 32768 = ps at hread
  induction ps with
  | nil => rfl
  | cons p ps ih =>
    rw [List.foldl_cons, hread p List.mem_cons_self]
    exact ih fun q hq => hread q (List.mem_cons_of_mem _ hq)

theorem Dev.putLog_effect (d : Dev) (die pos : Nat) (e : LogEntry) : ∃ bits,
    (d.putLog die pos e).fw.logical = smInsert d.fw.logical (lgBase die + pos) { e with flip := bits } ∧
    SameRegs [.HUB_INJ_CTRL, .HUB_INJ_STAT] d.regs (d.putLog die pos e).regs := by
  have hhit := d.changes_injectHit 4 die 2
  refine ⟨(d.injectHit 4 die 2).2.1, ?_, hhit.regs⟩
  show smInsert (d.injectHit 4 die 2).1.fw.logical (lgBase die + pos) { e with flip := (d.injectHit 4 die 2).2.1 } = _
  rw [hhit.fw]

/-- An entry written at the first position of its key, or at one of its positions where it has none yet, is the key's entry. -/
theorem Dev.findLog_putLog (d : Dev) {die p : Nat} (e : LogEntry) (hp : p ∈ d.logPos die e.key 32768)
    (hfirst : ∀ c, d.findLog die e.key = some c → c.1 = p) :
    ∃ bits, (d.putLog die p e).findLog die e.key = some (p, { e with flip := bits }) := by
  obtain ⟨bits, hlog, hregs⟩ := d.putLog_effect die p e
  refine ⟨bits, ?_⟩
  rw [Dev.findLog_eq, Dev.logPos_congr (Dev.rd_of_sameRegs hregs (by decide) die 0), hlog]
  exact findSome?_updated (logAt_smInsert_same d.fw.logical die p { e with flip := bits })
    (fun q hq => logAt_smInsert_ne d.fw.logical die e.key _ hq) (fun q c h => logAt_pos h) _ hp hfirst

/-- What a fold over candidates chooses is one of them. -/
theorem mem_of_foldl_choice {α : Type} {f : Option α → α → Option α} (hf : ∀ acc x, f acc x = acc ∨ f acc x = some x) (l : List α)
    (acc : Option α) {y : α} (h : l.foldl f acc = some y) : acc = some y ∨ y ∈ l := by
  induction l generalizing acc with
  | nil => exact .inl h
  | cons x l ih =>
    rcases ih _ h with hacc | hmem
    · rcases hf acc x with hx | hx
      · exact .inl (hx.symm.trans hacc)
      · rw [hx] at hacc
        cases hacc
        exact .inr List.mem_cons_self
    · exact .inr (List.mem_cons_of_mem _ hmem)

theorem Dev.mem_of_victim {d : Dev} {die p : Nat} {ps : List Nat} (h : d.victim die ps = some p) : p ∈ ps := by
  unfold Dev.victim at h
  obtain ⟨c, hc, rfl⟩ := Option.map_eq_some_iff.1 h
  rcases mem_of_foldl_choice (fun acc x => by
    cases acc with
    | none => exact .inr rfl
    | some b =>
      dsimp only
      split
      · exact .inr rfl
      · exact .inl rfl) _ _ hc with hnone | hmem
  · cases hnone
  · obtain ⟨q, hq, hqc⟩ := List.mem_filterMap.1 hmem
    split at hqc
    · split at hqc
      · cases hqc
        exact List.mem_eraseDups.1 hq
      · cases hqc
    · cases hqc

/-- With room for it, a new key is written at one of its positions; what is evicted for it counts as event 9 (R128). -/
theorem Dev.insertLog_of_room {d : Dev} {die : Nat} (hd : die < 32) {e : LogEntry} (hnone : d.findLog die e.key = none)
    (hroom : d.roomLog die e.key = true) : ∃ c p, d.Quiet die 0 c ∧ p ∈ d.logPos die e.key 32768 ∧
      d.insertLog die e = (c.putLog die p e, 0) := by
  unfold Dev.insertLog
  rw [hnone]
  dsimp only
  cases hfree : (d.logPos die e.key 32768).find? fun p => (smFind d.fw.logical (lgBase die + p)).isNone with
  | some p => exact ⟨d, p, .rfl' _ _ d, List.mem_of_find?_eq_some hfree, rfl⟩
  | none =>
    have hfull : ((d.logPos die e.key 32768).any fun p => (smFind d.fw.logical (lgBase die + p)).isNone) = false := by
      rw [List.any_eq_false]
      exact List.find?_eq_none.1 hfree
    unfold Dev.roomLog at hroom
    dsimp only at hroom
    rw [hnone, hfull] at hroom
    obtain ⟨p, hp⟩ := Option.isSome_iff_exists.1 hroom
    have hcount := d.quiet_evtAt_FWD hd (k := 0) (j := 9) (by decide) (by decide) (by decide) none none
    dsimp only
    rw [hp]
    dsimp only
    split
    next old _ => exact ⟨_, p, hcount.trans (Dev.quiet_sendChange ..), Dev.mem_of_victim hp, rfl⟩
    · exact ⟨_, p, hcount, Dev.mem_of_victim hp, rfl⟩

-- Learning (R129, R132) -------------------------------------------------------------------------------------------------------------------

/-- The entry that a frame teaches the die of its ingress port. -/
def Dev.lesson (d : Dev) (port : Nat) (f : Frame) : LogEntry :=
  ⟨false, 1, d.rd F.FWD_PORT_CFG_tgt_kind (laneDie port) (port % 512), d.rd F.FWD_PORT_CFG_target (laneDie port) (port % 512), f.srcDfid,
    f.block, f.srcRank, d.ageTick (laneDie port), 0⟩

/-- Whether an entry leads elsewhere than a lesson. -/
def LogEntry.Moved (e new : LogEntry) : Prop := e.tkind ≠ new.tkind ∨ e.target ≠ new.target ∨ e.dfid ≠ new.dfid

theorem LogEntry.Moved.bne {e new : LogEntry} (h : e.Moved new) :
    (e.tkind != new.tkind || e.target != new.target || e.dfid != new.dfid) = true := by
  simpa [LogEntry.Moved, or_assoc] using h

/-- An event that a frame causes at its ingress port. -/
def Dev.noted (d : Dev) (port : Nat) (f : Frame) (k : Nat) : Dev := d.evtAt .FWD (laneDie port) k (some port) (some f.cls) 1

section Learn

variable {d : Dev} {port : Nat} {f : Frame}

theorem Dev.learn_of_new (hl : d.learns port f = true) (hclean : KeyClean d (laneDie port) (logKey f.block f.srcRank))
    (hnone : d.findLog (laneDie port) (logKey f.block f.srcRank) = none) {c : Dev}
    (hput : d.insertLog (laneDie port) (d.lesson port f) = (c, 0)) :
    d.learn port f = ((c.noted port f 0).learnRecord (laneDie port) 0 none (some (d.lesson port f))
      (logKey f.block f.srcRank)).sendChange (laneDie port) (logKey f.block f.srcRank) (some (d.lesson port f)) false := by
  unfold Dev.learn
  rw [if_neg (by simp [hl])]
  dsimp only
  rw [Dev.readKey_of_clean hclean, hnone]
  change (match d.insertLog (laneDie port) (d.lesson port f) with | (_, 2) => _ | (d, _) => _) = _
  rw [hput]
  rfl

theorem Dev.learn_of_move (hl : d.learns port f = true) (hclean : KeyClean d (laneDie port) (logKey f.block f.srcRank)) {p : Nat}
    {e : LogEntry} (hfind : d.findLog (laneDie port) (logKey f.block f.srcRank) = some (p, e)) (hkind : e.kind = 1 ∨ e.kind = 2)
    (hmoved : e.Moved (d.lesson port f)) :
    d.learn port f = (((d.putLog (laneDie port) p (d.lesson port f)).noted port f 1).learnRecord (laneDie port) 1 (some e)
      (some (d.lesson port f)) (logKey f.block f.srcRank)).sendChange (laneDie port) (logKey f.block f.srcRank)
        (some (d.lesson port f)) false := by
  have hgo := hmoved.bne
  dsimp only [Dev.lesson] at hgo
  unfold Dev.learn
  rw [if_neg (by simp [hl])]
  dsimp only
  rw [Dev.readKey_of_clean hclean, hfind]
  dsimp only
  rw [if_neg (by omega), if_neg (by omega), if_pos hgo]
  rfl

theorem Dev.learn_of_static (hl : d.learns port f = true) (hclean : KeyClean d (laneDie port) (logKey f.block f.srcRank)) {p : Nat}
    {e : LogEntry} (hfind : d.findLog (laneDie port) (logKey f.block f.srcRank) = some (p, e)) (hkind : e.kind = 0)
    (hmoved : e.Moved (d.lesson port f)) :
    d.learn port f = (d.noted port f 4).learnRecord (laneDie port) 3 (some e) (some (d.lesson port f)) (logKey f.block f.srcRank) := by
  have hgo := hmoved.bne
  dsimp only [Dev.lesson] at hgo
  unfold Dev.learn
  rw [if_neg (by simp [hl])]
  dsimp only
  rw [Dev.readKey_of_clean hclean, hfind]
  dsimp only
  rw [if_neg (by omega), if_pos hkind, if_pos hgo]
  rfl

end Learn

/-- The device `b` is `a` after it learned from a frame: event `k` has counted once and the key's entry is the one found. -/
structure Dev.Learned (die k key : Nat) (a b : Dev) (found : Option (Nat × LogEntry)) : Prop where
  regs : SameRegs (.FWD_EVT_CNT :: passRegs) a.regs b.regs
  count : b.rd F.FWD_EVT_CNT_events die k = Nat.min F.FWD_EVT_CNT_events.max (a.rd F.FWD_EVT_CNT_events die k + 1)
  entry : b.findLog die key = found

/-- The table is written, the event counts, and what follows leaves both. -/
theorem Dev.learned_of {die k key : Nat} {a b c : Dev} {port cls : Option Nat} {found : Option (Nat × LogEntry)}
    (hregs : SameRegs (.FWD_EVT_CNT :: passRegs) a.regs b.regs)
    (hcount : b.rd F.FWD_EVT_CNT_events die k = a.rd F.FWD_EVT_CNT_events die k) (hfind : b.findLog die key = found)
    (hrest : (b.evtAt .FWD die k port cls 1).Quiet die k c) : Dev.Learned die k key a c found := by
  have hevt := b.changes_evtAt_FWD die k port cls
  refine ⟨(hregs.trans (hevt.regs.weaken (by decide))).trans hrest.regs, ?_, ?_⟩
  · rw [hrest.count, Dev.rd_evtAt_FWD_same, hcount]
  · rw [hrest.findLog, Dev.findLog_congr (hevt.rd (by decide) die 0) (by rw [hevt.fw]), hfind]

theorem Dev.Learned.of_quiet {die k key : Nat} {a b c : Dev} {found : Option (Nat × LogEntry)} (h : a.Quiet die k b)
    (g : Dev.Learned die k key b c found) : Dev.Learned die k key a c found :=
  ⟨h.regs.trans g.regs, by rw [g.count, h.count], g.entry⟩

section Lessons

variable {d : Dev} {port : LaneId} {f : Frame}

/-- An entry that is written and counted is learned. -/
theorem Dev.learned_put {die k key : Nat} {a c b : Dev} {p : Nat} {new : LogEntry} {port cls : Option Nat} {found : Option (Nat × LogEntry)}
    (hc : a.Quiet die k c) (hfind : (c.putLog die p new).findLog die key = found)
    (hrest : ((c.putLog die p new).evtAt .FWD die k port cls 1).Quiet die k b) : Dev.Learned die k key a b found := by
  obtain ⟨_, -, hregs⟩ := c.putLog_effect die p new
  exact Dev.learned_of (hc.regs.trans (hregs.weaken (by decide))) ((Dev.rd_of_sameRegs hregs (by decide) _ _).trans hc.count) hfind hrest

theorem Dev.learned_new (hl : d.learns port.val f = true) (hclean : KeyClean d (laneDie port.val) (logKey f.block f.srcRank))
    (hnone : d.findLog (laneDie port.val) (logKey f.block f.srcRank) = none)
    (hroom : d.roomLog (laneDie port.val) (logKey f.block f.srcRank) = true) :
    ∃ p bits, Dev.Learned (laneDie port.val) 0 (logKey f.block f.srcRank) d (d.learn port.val f)
      (some (p, { d.lesson port.val f with flip := bits })) := by
  obtain ⟨c, p, hc, hp, hput⟩ := Dev.insertLog_of_room (laneDie_lt port) (e := d.lesson port.val f) hnone hroom
  have hfirst : ∀ x, c.findLog (laneDie port.val) (d.lesson port.val f).key = some x → x.1 = p := fun x hx => by
    rw [hc.findLog] at hx
    cases hx.symm.trans hnone
  obtain ⟨bits, hfind⟩ := c.findLog_putLog (d.lesson port.val f) (by rwa [hc.logPos]) hfirst
  rw [Dev.learn_of_new hl hclean hnone hput]
  exact ⟨p, bits, Dev.learned_put hc hfind
    ((Dev.quiet_learnRecord _ (laneDie_lt port) (by decide) (by decide) ..).trans (Dev.quiet_sendChange ..))⟩

theorem Dev.mem_logPos_of_findLog {die key p : Nat} {e : LogEntry} (h : d.findLog die key = some (p, e)) : p ∈ d.logPos die key 32768 := by
  obtain ⟨q, hq, hat⟩ := List.exists_of_findSome?_eq_some (d.findLog_eq die key ▸ h)
  rwa [show p = q from logAt_pos hat]

theorem Dev.learned_move (hl : d.learns port.val f = true) (hclean : KeyClean d (laneDie port.val) (logKey f.block f.srcRank)) {p : Nat}
    {e : LogEntry} (hfound : d.findLog (laneDie port.val) (logKey f.block f.srcRank) = some (p, e)) (hkind : e.kind = 1 ∨ e.kind = 2)
    (hmoved : e.Moved (d.lesson port.val f)) :
    ∃ p bits, Dev.Learned (laneDie port.val) 1 (logKey f.block f.srcRank) d (d.learn port.val f)
      (some (p, { d.lesson port.val f with flip := bits })) := by
  have hfirst : ∀ x, d.findLog (laneDie port.val) (d.lesson port.val f).key = some x → x.1 = p := fun x hx => by
    cases hx.symm.trans hfound
    rfl
  obtain ⟨bits, hfind⟩ := d.findLog_putLog (d.lesson port.val f) (Dev.mem_logPos_of_findLog hfound) hfirst
  rw [Dev.learn_of_move hl hclean hfound hkind hmoved]
  exact ⟨p, bits, Dev.learned_put (.rfl' _ _ d) hfind
    ((Dev.quiet_learnRecord _ (laneDie_lt port) (by decide) (by decide) ..).trans (Dev.quiet_sendChange ..))⟩

theorem Dev.learned_static (hl : d.learns port.val f = true) (hclean : KeyClean d (laneDie port.val) (logKey f.block f.srcRank)) {p : Nat}
    {e : LogEntry} (hfound : d.findLog (laneDie port.val) (logKey f.block f.srcRank) = some (p, e)) (hkind : e.kind = 0)
    (hmoved : e.Moved (d.lesson port.val f)) :
    Dev.Learned (laneDie port.val) 4 (logKey f.block f.srcRank) d (d.learn port.val f) (some (p, e)) := by
  rw [Dev.learn_of_static hl hclean hfound hkind hmoved]
  exact Dev.learned_of (SameRegs.rfl' _ _) rfl hfound (Dev.quiet_learnRecord _ (laneDie_lt port) (by decide) (by decide) ..)

end Lessons

-- A frame that teaches (R119, R129) -------------------------------------------------------------------------------------------------------

/-- A unicast frame addressed by a DFID that is not the device's, from which the device learns. -/
structure Dev.Teaches (d : Dev) (port : Nat) (bytes : List Byte) : Prop where
  passes : Passes d port bytes
  ftype : (parseFrame bytes).ftype ≤ 1
  unfenced : d.fenced (laneDie port) (parseFrame bytes) = false
  learned : d.learns port (parseFrame bytes) = true
  byDfid : (parseFrame bytes).flag 0 = false
  unicast : (parseFrame bytes).flag 2 = false
  away : (parseFrame bytes).dest ≠ d.rd F.FWD_DEV_DFID_dfid (laneDie port) 0

theorem Dev.quiet_arrived (d : Dev) (die k port : Nat) (bytes : List Byte) : d.Quiet die k (d.arrived port bytes) :=
  .of_changes (d.changes_arrived port bytes) (by rw [(d.changes_arrived port bytes).fw])

theorem Dev.Looked.lesson {a b : Dev} (h : a.Looked b) (port : Nat) (f : Frame) : b.lesson port f = a.lesson port f := by
  simp (disch := decide) only [Dev.lesson, Dev.ageTick, h.rdAt]

theorem Dev.roomLog_arrived (d : Dev) (port : Nat) (bytes : List Byte) (die key : Nat) :
    (d.arrived port bytes).roomLog die key = d.roomLog die key := by
  have hq := d.quiet_arrived die 0 port bytes
  have hage := (d.looked_arrived port bytes).rdAt (f := F.FWD_AGE_CFG_tick) (by decide) die 0
  simp only [Dev.roomLog, Dev.victim, Dev.ageOf, Dev.ageTick, hq.findLog, hq.logPos, hq.logical, hage]

theorem keyClean_arrived {d : Dev} {die key : Nat} (h : KeyClean d die key) (port : Nat) (bytes : List Byte) :
    KeyClean (d.arrived port bytes) die key := by
  have hq := d.quiet_arrived die 0 port bytes
  intro p hp y hy
  rw [hq.logPos] at hp
  rw [hq.logical] at hy
  exact h p hp y hy

section Teaching

variable {s : State} {port : LaneId} {bytes : List Byte}

/-- What a frame teaches stays while it is sent on. -/
theorem frameArrival_learned (h : s.dev.Teaches port.val bytes) {k : Nat} {found : Option (Nat × LogEntry)}
    (hl : Dev.Learned (laneDie port.val) k (logKey (parseFrame bytes).block (parseFrame bytes).srcRank) (s.dev.arrived port.val bytes)
      ((s.dev.arrived port.val bytes).learn port.val (parseFrame bytes)) found) (followed : Bool) :
    ∃ t, exec (.frameArrival port bytes followed []) s = .next t ∧
      t.dev.findLog (laneDie port.val) (logKey (parseFrame bytes).block (parseFrame bytes).srcRank) = found ∧
      Counted F.FWD_EVT_CNT_events (laneDie port.val) k s t := by
  have harr := s.dev.quiet_arrived (laneDie port.val) k port.val bytes
  have hall := Dev.Learned.of_quiet harr hl
  have hown : (parseFrame bytes).dest ≠
      ((s.dev.arrived port.val bytes).learn port.val (parseFrame bytes)).rd F.FWD_DEV_DFID_dfid (laneDie port.val) 0 := by
    rw [Dev.rd_of_sameRegs hall.regs (by decide)]
    exact h.away
  have hgo : s.dev.frameArrive port.val bytes followed [] =
      ((s.dev.arrived port.val bytes).learn port.val (parseFrame bytes)).route (laneDie port.val) (.port port.val) (parseFrame bytes)
        (parseFrame bytes).dest none followed := by
    have h5 : (parseFrame bytes).ftype ≠ 5 := by have := h.ftype; omega
    rw [Dev.frameArrive_of_unfenced h.passes h5 h.unfenced]
    dsimp only
    rw [h.unicast, h.byDfid]
    unfold Dev.byDfid
    rw [if_neg hown]
    rfl
  have hsent := Dev.Quiet.of_sends (die := laneDie port.val) (k := k) (Dev.sends_route
    ((s.dev.arrived port.val bytes).learn port.val (parseFrame bytes)) (laneDie port.val) (.port port.val) (parseFrame bytes)
    (parseFrame bytes).dest followed)
  rw [exec_frameArrival, State.after_eq hgo]
  refine ⟨_, rfl, ?_, hsent.count.trans hall.count⟩
  rw [State.after_dev, Dev.findLog_requiesce, hsent.findLog, hall.entry]

/-- The entry that a die's table holds for a key is the one that a frame teaches, whatever injected error its word met. -/
def Dev.HoldsLesson (d : Dev) (port : Nat) (f : Frame) (t : Dev) : Prop :=
  ∃ p e, t.findLog (laneDie port) (logKey f.block f.srcRank) = some (p, e) ∧ { e with flip := 0 } = d.lesson port f

theorem frameArrival_teaches (h : s.dev.Teaches port.val bytes) {k : Nat}
    (hl : ∃ p bits, Dev.Learned (laneDie port.val) k (logKey (parseFrame bytes).block (parseFrame bytes).srcRank)
      (s.dev.arrived port.val bytes) ((s.dev.arrived port.val bytes).learn port.val (parseFrame bytes))
      (some (p, { (s.dev.arrived port.val bytes).lesson port.val (parseFrame bytes) with flip := bits }))) (followed : Bool) :
    ∃ t, exec (.frameArrival port bytes followed []) s = .next t ∧ s.dev.HoldsLesson port.val (parseFrame bytes) t.dev ∧
      Counted F.FWD_EVT_CNT_events (laneDie port.val) k s t := by
  obtain ⟨p, bits, hl⟩ := hl
  obtain ⟨t, hgo, hfind, hcount⟩ := frameArrival_learned h hl followed
  exact ⟨t, hgo, ⟨p, _, hfind, (s.dev.looked_arrived port.val bytes).lesson port.val (parseFrame bytes)⟩, hcount⟩

variable (h : s.dev.Teaches port.val bytes)
  (hclean : KeyClean s.dev (laneDie port.val) (logKey (parseFrame bytes).block (parseFrame bytes).srcRank))
include h hclean

theorem frameArrival_learns_new
    (hnone : s.dev.findLog (laneDie port.val) (logKey (parseFrame bytes).block (parseFrame bytes).srcRank) = none)
    (hroom : s.dev.roomLog (laneDie port.val) (logKey (parseFrame bytes).block (parseFrame bytes).srcRank) = true) (followed : Bool) :
    ∃ t, exec (.frameArrival port bytes followed []) s = .next t ∧ s.dev.HoldsLesson port.val (parseFrame bytes) t.dev ∧
      Counted F.FWD_EVT_CNT_events (laneDie port.val) 0 s t :=
  frameArrival_teaches h (Dev.learned_new (((s.dev.looked_arrived port.val bytes).learns ..).trans h.learned)
    (keyClean_arrived hclean _ _) (((s.dev.quiet_arrived 0 0 port.val bytes).findLog ..).trans hnone)
    ((s.dev.roomLog_arrived ..).trans hroom)) followed

theorem frameArrival_learns_move {p : Nat} {e : LogEntry}
    (hfound : s.dev.findLog (laneDie port.val) (logKey (parseFrame bytes).block (parseFrame bytes).srcRank) = some (p, e))
    (hkind : e.kind = 1 ∨ e.kind = 2) (hmoved : e.Moved (s.dev.lesson port.val (parseFrame bytes))) (followed : Bool) :
    ∃ t, exec (.frameArrival port bytes followed []) s = .next t ∧ s.dev.HoldsLesson port.val (parseFrame bytes) t.dev ∧
      Counted F.FWD_EVT_CNT_events (laneDie port.val) 1 s t := by
  have hlook := s.dev.looked_arrived port.val bytes
  rw [← hlook.lesson] at hmoved
  exact frameArrival_teaches h (Dev.learned_move ((hlook.learns ..).trans h.learned) (keyClean_arrived hclean _ _)
    (((s.dev.quiet_arrived 0 0 port.val bytes).findLog ..).trans hfound) hkind hmoved) followed

theorem frameArrival_meets_static {p : Nat} {e : LogEntry}
    (hfound : s.dev.findLog (laneDie port.val) (logKey (parseFrame bytes).block (parseFrame bytes).srcRank) = some (p, e))
    (hkind : e.kind = 0) (hmoved : e.Moved (s.dev.lesson port.val (parseFrame bytes))) (followed : Bool) :
    ∃ t, exec (.frameArrival port bytes followed []) s = .next t ∧
      t.dev.findLog (laneDie port.val) (logKey (parseFrame bytes).block (parseFrame bytes).srcRank) = some (p, e) ∧
      Counted F.FWD_EVT_CNT_events (laneDie port.val) 4 s t := by
  have hlook := s.dev.looked_arrived port.val bytes
  rw [← hlook.lesson] at hmoved
  exact frameArrival_learned h (Dev.learned_static ((hlook.learns ..).trans h.learned) (keyClean_arrived hclean _ _)
    (((s.dev.quiet_arrived 0 0 port.val bytes).findLog ..).trans hfound) hkind hmoved) followed

end Teaching

end Sys2Proof.Machine
end

section
/-! PROOF. A multicast frame by its group: dropped outside its block's region, or one record and a copy for each port (R88, R89). -/

namespace Sys2Proof.Machine

set_option Elab.async false

/-- The table entry of a frame's group, and its words (Table 3.2). -/
def Dev.groupAt (d : Dev) (die : Nat) (f : Frame) : Nat := (d.rd F.SWC_MC_REGION_base die f.block + f.dest % 65536) % 65536
def Dev.groupWord (d : Dev) (die : Nat) (f : Frame) (i : Nat) : Word := d.rdw .VM_MC die (d.groupAt die f * 19 + i)

/-- A group without a stage kind and without bundle references. -/
def Dev.PlainGroup (d : Dev) (die : Nat) (f : Frame) : Prop :=
  f.dest % 65536 < d.rd F.SWC_MC_REGION_size die f.block ∧ fget (d.groupWord die f 16) 1 0 = 0 ∧
  ∀ i < 8, wbit (d.groupWord die f (17 + i / 4)) (16 * (i % 4) + 15) = false

/-- The ports of a group's copies: those of its bitmap but the arrival port. -/
def Dev.groupPorts (d : Dev) (die port : Nat) (f : Frame) : List Nat := (d.bitmapPorts (d.groupWord die f)).filter fun p => p != port

theorem Dev.mcPorts_of_outside {d : Dev} {die : Nat} {f : Frame} (h : d.rd F.SWC_MC_REGION_size die f.block ≤ f.dest % 65536) (o : Origin)
    (dest0 : Nat) : d.mcPorts die o f dest0 = (d, .error 6) := if_pos h

theorem Dev.mcPorts_of_plain {d : Dev} {die : Nat} {f : Frame} (h : d.PlainGroup die f) (hlive : f.hop ≠ 0) (port dest0 : Nat) :
    d.mcPorts die (.port port) f dest0 = (d, .ok (d.groupPorts die port f)) := by
  obtain ⟨hin, hkind, hrefs⟩ := h
  have hnone : ((List.range 8).filterMap fun i => if wbit (d.groupWord die f (17 + i / 4)) (16 * (i % 4) + 15) then
      some (fget (d.groupWord die f (17 + i / 4)) (16 * (i % 4) + 9) (16 * (i % 4))) else none) = [] := by
    rw [List.filterMap_eq_nil_iff]
    intro i hi
    rw [hrefs i (List.mem_range.1 hi)]
    rfl
  unfold Dev.groupWord Dev.groupAt at hkind hnone
  unfold Dev.mcPorts
  simp only [Nat.not_le.mpr hin, if_false, hkind, hopDead_of_live hlive, hnone, bne_self_eq_false, Bool.false_and, Bool.not_false,
    Bool.and_true, Bool.false_eq_true, ite_self, List.foldl_nil, List.append_nil]
  rfl

/-- Ports of an admitted block, all open, keep their copies of a frame of a lossless class. -/
theorem Dev.mcCopies_of_open {d : Dev} {die : Nat} {o : Origin} {f : Frame} (ps : List Nat)
    (h : ∀ p ∈ ps, d.admitted (laneDie p) f.block = true ∧ d.portOpen die p = true) (kept : List Nat) :
    ps.foldl (Dev.mcCopy die o f true) (d, kept) = (d, kept ++ ps) := by
  induction ps generalizing kept with
  | nil => simp
  | cons p ps ih =>
    obtain ⟨hadm, hopen⟩ := h p List.mem_cons_self
    have hfirst : Dev.mcCopy die o f true (d, kept) p = (d, kept ++ [p]) := by
      unfold Dev.mcCopy
      simp [hadm, hopen]
    rw [List.foldl_cons, hfirst, ih fun q hq => h q (List.mem_cons_of_mem _ hq)]
    simp

theorem Frame.unmetered_block (f : Frame) : (Frame.unmetered f).block = f.block := by
  unfold Frame.unmetered
  split
  · exact fget_fput_disj _ _ (by decide) (by decide)
  · rfl

/-- A frame of a plain group whose ports are all open is admitted once for them. -/
theorem Dev.multicast_of_plain {d : Dev} {die port : Nat} {f : Frame} (h : d.PlainGroup die f) (hlive : f.hop ≠ 0)
    (hports : ∀ p ∈ d.groupPorts die port f, d.admitted (laneDie p) f.block = true ∧ d.portOpen die p = true)
    (hmeter : d.meterOf port f.cls = none) (hloss : d.lossless die (Machine.requester (.port port) f.cls) f.cls = true) :
    d.multicast die (.port port) f none = d.admitMulticast die (.port port) (d.groupPorts die port f) (Frame.unmetered f) none := by
  have hkept := Dev.mcCopies_of_open (f := Frame.unmetered f) (o := .port port) (die := die) _
    (by rwa [Frame.unmetered_block]) []
  simp only [Dev.multicast_eq, Dev.mcPorts_of_plain h hlive, hopDead_of_live hlive, Bool.false_eq_true, if_false,
    Dev.meterAt_of_none hmeter, Frame.unmetered_cls, hloss, hkept, List.nil_append]

/-- Where a reservation finds cells and a record, a multicast frame takes them. -/
theorem Dev.admitMulticast_of_reserved {d : Dev} {die : Nat} {o : Origin} {ports ks : List Nat} {f : Frame} (hports : ports ≠ [])
    (hres : (d.reserve die o f.cls ((f.len + 255) / 256) true).2 = .ok ks) :
    d.admitMulticast die o ports f none = (d.reserve die o f.cls ((f.len + 255) / 256) true).1.takeInCopies die o ports f ks := by
  rw [Dev.admitMulticast_eq, if_neg (by simpa using hports)]
  obtain ⟨⟨e, r⟩, hr⟩ : ∃ r, d.reserve die o f.cls ((f.len + 255) / 256) true = r := ⟨_, rfl⟩
  rw [hr] at hres ⊢
  cases hres
  rfl

/-- The copy of a multicast frame toward a port, whatever its stamps and the errors its cells met. -/
def IsCopy (id die : Nat) (o : Origin) (f : Frame) (ks : List Nat) (x : Desc) (p : Nat) : Prop :=
  ∃ stamp tick flip flips, x = ⟨id, die, o, .port p, f.cls, f, ks, 0, some id, stamp, tick, flip, flips, none, none⟩

theorem Dev.takeInCopies_sw (d : Dev) (die : Nat) (o : Origin) (ports : List Nat) (f : Frame) (ks : List Nat) :
    ∃ cells holds xs, (d.takeInCopies die o ports f ks).sw = { d.sw with
      cells := cells, holds := holds, nextId := d.sw.nextId + 1, queue := d.sw.queue ++ xs,
      mrecs := smInsert d.sw.mrecs d.sw.nextId
        ⟨die, if f.cls = 7 then none else some (Machine.requester o f.cls), ks, ports.length⟩ } ∧
      List.Forall₂ (IsCopy d.sw.nextId die o f ks) xs ports := by
  have hwrite := d.changes_writeCopied die o f.cls f.len
  unfold Dev.takeInCopies
  dsimp only
  rw [hwrite.sw]
  obtain ⟨xs, hsw, hxs⟩ := Dev.copies_sw _ _ _ _ _
  exact ⟨_, _, xs, hsw, hxs.imp fun x p ⟨tick, stamp, hx⟩ => ⟨stamp, tick, _, _, hx⟩⟩

theorem map_dest_of_copies {id die : Nat} {o : Origin} {f : Frame} {ks ports : List Nat} {xs : List Desc}
    (h : List.Forall₂ (IsCopy id die o f ks) xs ports) : xs.map (fun x => x.dest) = ports.map Dest.port := by
  induction h with
  | nil => rfl
  | cons hx _ ih =>
    obtain ⟨_, _, _, _, rfl⟩ := hx
    rw [List.map_cons, List.map_cons, ih]

theorem copy_of_mem {id die : Nat} {o : Origin} {f : Frame} {ks ports : List Nat} {xs : List Desc}
    (h : List.Forall₂ (IsCopy id die o f ks) xs ports) {x : Desc} (hx : x ∈ xs) : ∃ p, IsCopy id die o f ks x p := by
  induction h with
  | nil => cases hx
  | cons hy _ ih =>
    rcases List.mem_cons.1 hx with rfl | hx
    · exact ⟨_, hy⟩
    · exact ih hx

-- A multicast frame that arrives (R119) ---------------------------------------------------------------------------------------------------

/-- A multicast frame from which nothing is learned. -/
structure Dev.Spreads (d : Dev) (port : Nat) (bytes : List Byte) : Prop where
  passes : Passes d port bytes
  ftype : (parseFrame bytes).ftype ≠ 5
  unfenced : d.fenced (laneDie port) (parseFrame bytes) = false
  unlearned : d.learns port (parseFrame bytes) = false
  multicast : (parseFrame bytes).flag 2 = true

theorem Dev.Spreads.frameArrive {d : Dev} {port : Nat} {bytes : List Byte} (h : d.Spreads port bytes) (followed : Bool) :
    d.frameArrive port bytes followed [] =
      (d.arrived port bytes).multicast (laneDie port) (.port port) (parseFrame bytes) none := by
  rw [Dev.frameArrive_of_unfenced h.passes h.ftype h.unfenced]
  dsimp only
  rw [h.multicast, Dev.learn_of_not (((d.looked_arrived port bytes).learns port _).trans h.unlearned)]
  rfl

theorem Dev.Looked.groupWord {a b : Dev} (h : a.Looked b) (die : Nat) (f : Frame) : b.groupWord die f = a.groupWord die f := by
  funext i
  simp (disch := decide) only [Dev.groupWord, Dev.groupAt, h.rdAt, h.rdwAt]

theorem Dev.Looked.groupPorts {a b : Dev} (h : a.Looked b) (die port : Nat) (f : Frame) : b.groupPorts die port f = a.groupPorts die port f := by
  simp only [Dev.groupPorts, Dev.bitmapPorts, Dev.isPort, h.groupWord, h.cfg]

theorem Dev.Looked.plainGroup {a b : Dev} (h : a.Looked b) {die : Nat} {f : Frame} (hp : a.PlainGroup die f) : b.PlainGroup die f := by
  unfold Dev.PlainGroup
  rwa [h.rdAt (by decide), h.groupWord]

section Spreading

variable {s : State} {port : LaneId} {bytes : List Byte} (h : s.dev.Spreads port.val bytes)
include h

theorem frameArrival_outside (hout : s.dev.rd F.SWC_MC_REGION_size (laneDie port.val) (parseFrame bytes).block ≤
    (parseFrame bytes).dest % 65536) (followed : Bool) :
    ∃ t, exec (.frameArrival port bytes followed []) s = .next t ∧ Counted F.SWC_DROP_CNT_frames (laneDie port.val) 6 s t ∧
      t.dev.sw.queue = s.dev.sw.queue := by
  have harr := s.dev.changes_arrived port.val bytes
  have hgo : s.dev.frameArrive port.val bytes followed [] =
      (s.dev.arrived port.val bytes).dropSwc (laneDie port.val) 6 (.port port.val) none (parseFrame bytes) := by
    rw [h.frameArrive, Dev.multicast_eq, Dev.mcPorts_of_outside ((harr.rd (f := F.SWC_MC_REGION_size) (by decide) _ _).trans_le hout)]
  have hrest : ((s.dev.arrived port.val bytes).inc F.SWC_DROP_CNT_frames (laneDie port.val) 6 1).Changes [.regs]
      [.TM_CRD_STAT, .CNT_VAL, .CNT_CTRL] ((s.dev.arrived port.val bytes).dropSwc (laneDie port.val) 6 (.port port.val) none
        (parseFrame bytes)) :=
    ((Dev.changes_cntPC ..).weaken).andThen (Dev.changes_oweFrame ..)
  rw [exec_frameArrival, State.after_eq hgo]
  refine ⟨_, rfl, harr.counted hrest, ?_⟩
  simp only [State.after_dev, Dev.requiesce_keeps, hrest.sw]
  exact congrArg SwState.queue harr.sw

theorem frameArrival_spreads {ks : List Nat} (hplain : s.dev.PlainGroup (laneDie port.val) (parseFrame bytes))
    (hlive : (parseFrame bytes).hop ≠ 0) (hsome : s.dev.groupPorts (laneDie port.val) port.val (parseFrame bytes) ≠ [])
    (hports : ∀ p ∈ s.dev.groupPorts (laneDie port.val) port.val (parseFrame bytes),
      s.dev.admitted (laneDie p) (parseFrame bytes).block = true ∧ s.dev.portOpen (laneDie port.val) p = true)
    (hmeter : s.dev.meterOf port.val (parseFrame bytes).cls = none)
    (hloss : s.dev.lossless (laneDie port.val) (Machine.requester (.port port.val) (parseFrame bytes).cls) (parseFrame bytes).cls = true)
    (hres : (s.dev.reserve (laneDie port.val) (.port port.val) (parseFrame bytes).cls (((parseFrame bytes).len + 255) / 256) true).2
      = .ok ks) (followed : Bool) :
    ∃ t xs, exec (.frameArrival port bytes followed []) s = .next t ∧ t.dev.sw.queue = s.dev.sw.queue ++ xs ∧
      xs.map (fun x => x.dest) = (s.dev.groupPorts (laneDie port.val) port.val (parseFrame bytes)).map Dest.port ∧
      (∀ x ∈ xs, x.frame = Frame.unmetered (parseFrame bytes) ∧ x.id = s.dev.sw.nextId ∧ x.die = laneDie port.val ∧
        x.cls = (parseFrame bytes).cls ∧ x.cells = ks ∧ x.mrec = some s.dev.sw.nextId) ∧
      smFind t.dev.sw.mrecs s.dev.sw.nextId = some ⟨laneDie port.val,
        if (parseFrame bytes).cls = 7 then none else some (Machine.requester (.port port.val) (parseFrame bytes).cls), ks,
        (s.dev.groupPorts (laneDie port.val) port.val (parseFrame bytes)).length⟩ ∧
      KeepsBut [.regs, .ln, .sw, .freeCtr, .quiesced] s t := by
  have hlook := s.dev.looked_arrived port.val bytes
  have harr := s.dev.changes_arrived port.val bytes
  have hcls := Frame.unmetered_cls (parseFrame bytes)
  have hlen := Frame.unmetered_len (parseFrame bytes)
  have hres' : ((s.dev.arrived port.val bytes).reserve (laneDie port.val) (.port port.val) (Frame.unmetered (parseFrame bytes)).cls
      (((Frame.unmetered (parseFrame bytes)).len + 255) / 256) true).2 = .ok ks := by
    rw [hcls, hlen, ← hres]
    exact Dev.reserve_snd_congr harr.freeCtr (by rw [harr.sw]) (by rw [harr.sw]) hlook.regs ..
  have hgo := (h.frameArrive followed).trans (Dev.multicast_of_plain (hlook.plainGroup hplain) hlive
    (by simpa only [hlook.groupPorts, hlook.admitted, hlook.portOpen] using hports) ((hlook.meterOf ..).trans hmeter)
    ((hlook.lossless ..).trans hloss))
  rw [hlook.groupPorts, Dev.admitMulticast_of_reserved hsome hres'] at hgo
  have hreserved := (s.dev.arrived port.val bytes).changes_reserve (laneDie port.val) (.port port.val)
    (Frame.unmetered (parseFrame bytes)).cls (((Frame.unmetered (parseFrame bytes)).len + 255) / 256) true
  obtain ⟨_, hcells⟩ := (s.dev.arrived port.val bytes).reserve_sw (laneDie port.val) (.port port.val)
    (Frame.unmetered (parseFrame bytes)).cls (((Frame.unmetered (parseFrame bytes)).len + 255) / 256) true
  rw [harr.sw] at hcells
  generalize ((s.dev.arrived port.val bytes).reserve (laneDie port.val) (.port port.val) (Frame.unmetered (parseFrame bytes)).cls
    (((Frame.unmetered (parseFrame bytes)).len + 255) / 256) true).1 = e at hgo hreserved hcells
  have hall := (((harr.weaken (ps' := [.regs, .ln, .sw, .freeCtr]) (rs' := passRegs)).andThen hreserved)).andThen
    (e.changes_takeInCopies (laneDie port.val) (.port port.val) (s.dev.groupPorts (laneDie port.val) port.val (parseFrame bytes))
      (Frame.unmetered (parseFrame bytes)) ks)
  obtain ⟨_, _, xs, hsw, hxs⟩ := e.takeInCopies_sw (laneDie port.val) (.port port.val)
    (s.dev.groupPorts (laneDie port.val) port.val (parseFrame bytes)) (Frame.unmetered (parseFrame bytes)) ks
  rw [hcells, hcls] at hsw
  rw [hcells] at hxs
  rw [exec_frameArrival, State.after_eq hgo]
  refine ⟨_, xs, rfl, ?_, map_dest_of_copies hxs, fun x hx => ?_, ?_, hall.keepsBut_of_subset⟩
  · simp only [State.after_dev, Dev.requiesce_keeps, hsw]
  · obtain ⟨p, _, _, _, _, rfl⟩ := copy_of_mem hxs hx
    exact ⟨rfl, rfl, rfl, hcls, rfl, rfl⟩
  · simp only [State.after_dev, Dev.requiesce_keeps, hsw]
    exact smFind_smInsert_same ..

end Spreading

end Sys2Proof.Machine
end

section
/-! PROOF. A barrier arrival: dropped with its counter untouched, entered in it, or the one that completes it (R197). -/

namespace Sys2Proof.Machine

set_option Elab.async false

/-- A frame dropped under a SYNC reason counts once under it; no collective changes. -/
theorem dropSync_outcome {s : State} {d : Dev} (h : s.dev.Looked d) (die k port : Nat) (f : Frame) :
    Counted F.SYNC_DROP_CNT_frames die k s (s.after fun _ => d.dropSync die k port f) ∧
    (s.after fun _ => d.dropSync die k port f).dev.sy = s.dev.sy ∧
    ∀ u i, (s.after fun _ => d.dropSync die k port f).dev.rdw .SYNC_BAR_STAT u i = s.dev.rdw .SYNC_BAR_STAT u i := by
  have hrest : (d.inc F.SYNC_DROP_CNT_frames die k 1).Changes [.regs] [.TM_CRD_STAT, .CNT_VAL, .CNT_CTRL] (d.dropSync die k port f) :=
    ((Dev.changes_cntPC ..).weaken).andThen (Dev.changes_oweFrame ..)
  have hinc := d.changes_inc F.SYNC_DROP_CNT_frames die k 1
  refine ⟨h.counted hrest, ?_, fun u i => ?_⟩
  · simp only [State.after_dev, Dev.requiesce_keeps, hrest.sy, hinc.sy, h.sy]
  · have hstat := ((h.weaken (ps' := [.regs, .ln, .fw, .ev]) (rs' := .SYNC_DROP_CNT :: .TM_CRD_STAT :: loggingRegs)).andThen
      hinc).andThen hrest
    exact hstat.rdw (r := .SYNC_BAR_STAT) (by decide) u i

theorem Dev.changes_evtCnt_SYNC (d : Dev) (die k : Nat) :
    (d.inc F.SYNC_EVT_CNT_events die k 1).Changes [.regs] cntRegList (d.evtCnt .SYNC die k) := Dev.changes_cntPC ..

/-- A barrier arrival's fields (Table 7.8). -/
def barOf (f : Frame) : Nat := fget (payWord f.payload 0) 47 35
def barDie (f : Frame) : Nat := barOf f / 4096
def barIdx (f : Frame) : Nat := barOf f % 4096
def barMember (f : Frame) : Nat := fget (payWord f.payload 0) 34 25
def barWeight (f : Frame) : Nat := fget (payWord f.payload 0) 24 14

theorem barDie_lt (f : Frame) : barDie f < 32 := by
  have hb : barOf f < 8192 := fget_lt _ 47 35
  unfold barDie
  omega

theorem barIdx_lt (f : Frame) : barIdx f < 2097152 := by
  unfold barIdx
  omega

/-- The weight of a counter with an arrival's, and the weight that completes it. -/
def Dev.barSum (d : Dev) (f : Frame) : Nat := d.rd F.SYNC_BAR_STAT_weight (barDie f) (barIdx f) + barWeight f
def Dev.barWant (d : Dev) (f : Frame) : Nat := d.rd F.SYNC_BAR_CFG_expected (barDie f) (barIdx f)
def Dev.barVecOf (d : Dev) (f : Frame) : BarVec := smGet d.sy.barVec (barOf f) 0

/-- An arrival that fits its counter (R197). -/
def Dev.BarFits (d : Dev) (f : Frame) : Prop :=
  1 ≤ barWeight f ∧ barWeight f ≤ 1024 ∧ wbit (payWord f.payload 0) 63 = false ∧
  d.on F.SYNC_BAR_CFG_valid (barDie f) (barIdx f) = true ∧ f.block = d.rd F.SYNC_BAR_CFG_block (barDie f) (barIdx f) ∧
  fget (payWord f.payload 0) 55 48 = d.rd F.SYNC_BAR_STAT_generation (barDie f) (barIdx f) ∧
  (d.barVecOf f).getLsbD (barMember f) = false ∧ d.barSum f ≤ d.barWant f

namespace Dev.Looked

variable {a b : Dev}

theorem barSum (h : a.Looked b) (f : Frame) : b.barSum f = a.barSum f := by simp (disch := decide) only [Dev.barSum, h.rdAt]
theorem barWant (h : a.Looked b) (f : Frame) : b.barWant f = a.barWant f := by simp (disch := decide) only [Dev.barWant, h.rdAt]
theorem barVecOf (h : a.Looked b) (f : Frame) : b.barVecOf f = a.barVecOf f := by simp only [Dev.barVecOf, h.sy]

theorem barFits (h : a.Looked b) (f : Frame) : b.BarFits f ↔ a.BarFits f := by
  simp (disch := decide) only [Dev.BarFits, h.rdAt, h.onAt, h.barSum, h.barWant, h.barVecOf]

end Dev.Looked

/-- The device once an arrival has entered its member and its weight. -/
def Dev.barJoined (d : Dev) (port : Nat) (f : Frame) : Dev :=
  (({ d.oweFrame (.port port) f.cls f.len with sy := { d.sy with
      barVec := smInsert d.sy.barVec (barOf f) (d.barVecOf f ||| BitVec.twoPow 1024 (barMember f)) } } : Dev).wr
    F.SYNC_BAR_STAT_weight (barDie f) (barIdx f) (d.barSum f)).wr F.SYNC_BAR_STAT_last (barDie f) (barIdx f) (barMember f)

theorem Dev.changes_barJoined (d : Dev) (port : Nat) (f : Frame) :
    d.Changes [.regs, .sy] [.TM_CRD_STAT, .SYNC_BAR_STAT] (d.barJoined port f) :=
  ((((d.changes_oweFrame ..).weaken).andThen (Dev.changes_sy _ _)).andThen (Dev.changes_wr ..)).andThen (Dev.changes_wr ..)

theorem Dev.barJoined_barVec (d : Dev) (port : Nat) (f : Frame) :
    smGet (d.barJoined port f).sy.barVec (barOf f) 0 = d.barVecOf f ||| BitVec.twoPow 1024 (barMember f) := smGet_smInsert_same ..

theorem Dev.barJoined_last (d : Dev) (port : Nat) (f : Frame) :
    (d.barJoined port f).rd F.SYNC_BAR_STAT_last (barDie f) (barIdx f) = barMember f :=
  (Dev.rd_wr_same _ _ _ _ _ (by decide)).trans (Nat.mod_eq_of_lt (fget_lt _ 34 25))

theorem Dev.barJoined_weight (d : Dev) (port : Nat) (f : Frame) :
    (d.barJoined port f).rd F.SYNC_BAR_STAT_weight (barDie f) (barIdx f) = d.barSum f % (F.SYNC_BAR_STAT_weight.max + 1) := by
  have hd := barDie_lt f
  have hi := barIdx_lt f
  unfold Dev.barJoined
  rw [Dev.rd_wr_disj _ _ hd hd hi hi (by decide) (.inr (by decide)), Dev.rd_wr_same _ _ _ _ _ (by decide)]
  rfl

theorem Dev.barJoined_generation (d : Dev) (port : Nat) (f : Frame) :
    (d.barJoined port f).rd F.SYNC_BAR_STAT_generation (barDie f) (barIdx f) =
      d.rd F.SYNC_BAR_STAT_generation (barDie f) (barIdx f) := by
  have hd := barDie_lt f
  have hi := barIdx_lt f
  unfold Dev.barJoined
  rw [Dev.rd_wr_disj _ _ hd hd hi hi (by decide) (.inr (by decide)), Dev.rd_wr_disj _ _ hd hd hi hi (by decide) (.inr (by decide))]
  exact (d.changes_oweFrame (.port port) f.cls f.len).rd (f := F.SYNC_BAR_STAT_generation) (by decide) _ _

-- The cases of an arrival -----------------------------------------------------------------------------------------------------------------

section Arrival

variable {d : Dev} {f : Frame}

/-- The tests of the model fail an arrival exactly when it does not fit. -/
theorem Dev.barFits_iff (d : Dev) (f : Frame) : d.BarFits f ↔
    (barWeight f = 0 || 1024 < barWeight f || wbit (payWord f.payload 0) 63 || !d.on F.SYNC_BAR_CFG_valid (barDie f) (barIdx f)
      || f.block ≠ d.rd F.SYNC_BAR_CFG_block (barDie f) (barIdx f)
      || fget (payWord f.payload 0) 55 48 ≠ d.rd F.SYNC_BAR_STAT_generation (barDie f) (barIdx f)
      || (d.barVecOf f).getLsbD (barMember f) || d.barWant f < d.barSum f) = false := by
  simp [Dev.BarFits, and_assoc, Nat.one_le_iff_ne_zero]

theorem Dev.barrierArrive_eq (hr : d.dieRuns (barDie f) = true) (die port : Nat) : d.barrierArrive die port f =
    if (barWeight f = 0 || 1024 < barWeight f || wbit (payWord f.payload 0) 63 || !d.on F.SYNC_BAR_CFG_valid (barDie f) (barIdx f)
      || f.block ≠ d.rd F.SYNC_BAR_CFG_block (barDie f) (barIdx f)
      || fget (payWord f.payload 0) 55 48 ≠ d.rd F.SYNC_BAR_STAT_generation (barDie f) (barIdx f)
      || (d.barVecOf f).getLsbD (barMember f) || d.barWant f < d.barSum f) then d.dropSync (barDie f) 8 port f
    else if d.barSum f ≠ d.barWant f then d.barJoined port f
    else
      let e := d.barJoined port f
      (if e.on F.SYNC_BAR_TGT_parent (barDie f) (barIdx f) then e.barrierUp (barOf f) (fget (payWord f.payload 0) 13 0)
        else (e.barrierRelease (barOf f) false (fget (payWord f.payload 0) 13 0)).evtCnt .SYNC (barDie f) 9).barrierNext (barOf f) := by
  have hrefuse : (!d.dieRuns (barDie f)) = false := by rw [hr]; rfl
  have hsy := (d.changes_oweFrame (.port port) f.cls f.len).sy
  unfold Dev.barrierArrive Dev.barJoined
  dsimp only
  unfold barDie barOf at hrefuse
  rw [hrefuse, if_neg Bool.false_ne_true, hsy]
  rfl

theorem Dev.barrierArrive_of_unfit (hr : d.dieRuns (barDie f) = true) (h : ¬ d.BarFits f) (die port : Nat) :
    d.barrierArrive die port f = d.dropSync (barDie f) 8 port f := by
  rw [Dev.barFits_iff, Bool.not_eq_false] at h
  rw [Dev.barrierArrive_eq hr, if_pos h]

theorem Dev.barrierArrive_of_fit (hr : d.dieRuns (barDie f) = true) (h : d.BarFits f) (hsum : d.barSum f ≠ d.barWant f)
    (die port : Nat) : d.barrierArrive die port f = d.barJoined port f := by
  rw [Dev.barFits_iff] at h
  rw [Dev.barrierArrive_eq hr, h, if_neg Bool.false_ne_true, if_pos hsum]

/-- The device once the arrival that completes a counter without a parent released it. -/
def Dev.barReleased (d : Dev) (port : Nat) (f : Frame) : Dev :=
  (((d.barJoined port f).barrierRelease (barOf f) false (fget (payWord f.payload 0) 13 0)).evtCnt .SYNC (barDie f) 9).barrierNext (barOf f)

theorem Dev.barrierArrive_of_last (hr : d.dieRuns (barDie f) = true) (h : d.BarFits f) (hsum : d.barSum f = d.barWant f)
    (hroot : d.on F.SYNC_BAR_TGT_parent (barDie f) (barIdx f) = false) (die port : Nat) :
    d.barrierArrive die port f = d.barReleased port f := by
  rw [Dev.barFits_iff] at h
  have hroot' := ((d.changes_barJoined port f).on (f := F.SYNC_BAR_TGT_parent) (by decide) (barDie f) (barIdx f)).trans hroot
  rw [Dev.barrierArrive_eq hr, h, if_neg Bool.false_ne_true, if_neg (not_not_intro hsum)]
  dsimp only
  rw [hroot', if_neg Bool.false_ne_true]
  rfl

end Arrival

-- The completed counter -------------------------------------------------------------------------------------------------------------------

/-- A release goes out as any frame that the device originates. -/
theorem Dev.sends_barrierRelease (d : Dev) (b : Nat) (abort : Bool) (step : Nat) : d.Sends (d.barrierRelease b abort step) :=
  d.sends_originate ..

/-- What the advance of a counter leaves and what it writes. -/
theorem Dev.changes_barrierNext (d : Dev) (b : Nat) : d.Changes [.regs, .sy] [.SYNC_BAR_STAT] (d.barrierNext b) :=
  (((d.changes_sy _).weaken).andThen (Dev.changes_wr ..)).andThen (Dev.changes_wr ..)

theorem Dev.barrierNext_barVec (d : Dev) (b : Nat) : smGet (d.barrierNext b).sy.barVec b 0 = 0 :=
  congrArg (fun o => Option.getD o (0 : BarVec)) (smFind_smErase_same d.sy.barVec b)

theorem Dev.barrierNext_weight (d : Dev) (b : Nat) : (d.barrierNext b).rd F.SYNC_BAR_STAT_weight (b / 4096) (b % 4096) = 0 :=
  Dev.rd_wr_same _ _ _ _ _ (by decide)

theorem Dev.barrierNext_generation (d : Dev) (f : Frame) : (d.barrierNext (barOf f)).rd F.SYNC_BAR_STAT_generation (barDie f) (barIdx f) =
    (d.rd F.SYNC_BAR_STAT_generation (barDie f) (barIdx f) + 1) % 256 := by
  have hd := barDie_lt f
  have hi := barIdx_lt f
  exact (Dev.rd_wr_disj _ _ hd hd hi hi (by decide) (.inr (by decide))).trans (Dev.rd_wr_same _ _ _ _ _ (by decide))

theorem Dev.barrierNext_last (d : Dev) (f : Frame) : (d.barrierNext (barOf f)).rd F.SYNC_BAR_STAT_last (barDie f) (barIdx f) =
    d.rd F.SYNC_BAR_STAT_last (barDie f) (barIdx f) := by
  have hd := barDie_lt f
  have hi := barIdx_lt f
  exact (Dev.rd_wr_disj _ _ hd hd hi hi (by decide) (.inl (by decide))).trans
    (Dev.rd_wr_disj _ _ hd hd hi hi (by decide) (.inl (by decide)))

/-- Between the entry of an arrival and the advance of its counter only the release and its event stand. -/
theorem Dev.barReleased_between (d : Dev) (port : Nat) (f : Frame) : ∃ e, d.Changes
      [.regs, .sw, .ev, .tm, .fw, .freeCtr, .parserDrops, .sy] (.SYNC_BAR_STAT :: passRegs) e ∧
    (d.barJoined port f).Changes [.regs, .sw, .ev, .tm, .fw, .freeCtr, .parserDrops] passRegs e ∧
    (e.inc F.SYNC_EVT_CNT_events (barDie f) 9 1).Changes [.regs, .sy] [.SYNC_BAR_STAT, .CNT_VAL, .CNT_CTRL] (d.barReleased port f) ∧
    d.barReleased port f = (e.evtCnt .SYNC (barDie f) 9).barrierNext (barOf f) := by
  have hsend := ((d.barJoined port f).sends_barrierRelease (barOf f) false (fget (payWord f.payload 0) 13 0)).changes
  exact ⟨_, ((d.changes_barJoined port f).weaken).andThen hsend, hsend,
    ((Dev.changes_evtCnt_SYNC ..).weaken).andThen (Dev.changes_barrierNext ..), rfl⟩

/-- What the arrival that completes a counter leaves in it. -/
theorem Dev.barReleased_counter (d : Dev) (port : Nat) (f : Frame) :
    smGet (d.barReleased port f).sy.barVec (barOf f) 0 = 0 ∧
    (d.barReleased port f).rd F.SYNC_BAR_STAT_weight (barDie f) (barIdx f) = 0 ∧
    (d.barReleased port f).rd F.SYNC_BAR_STAT_last (barDie f) (barIdx f) = barMember f ∧
    (d.barReleased port f).rd F.SYNC_BAR_STAT_generation (barDie f) (barIdx f) =
      (d.rd F.SYNC_BAR_STAT_generation (barDie f) (barIdx f) + 1) % 256 := by
  obtain ⟨e, -, hsend, -, h⟩ := d.barReleased_between port f
  have hinc := (e.changes_inc F.SYNC_EVT_CNT_events (barDie f) 9 1).weaken (ps' := [.regs]) (rs' := .SYNC_EVT_CNT :: cntRegList)
  have hkeep := hinc.andThen (e.changes_evtCnt_SYNC (barDie f) 9)
  rw [h]
  refine ⟨Dev.barrierNext_barVec .., Dev.barrierNext_weight .., ?_, ?_⟩
  · rw [Dev.barrierNext_last, hkeep.rd, hsend.rd, Dev.barJoined_last]
  · rw [Dev.barrierNext_generation, hkeep.rd, hsend.rd, Dev.barJoined_generation]

-- A barrier arrival at a port -------------------------------------------------------------------------------------------------------------

/-- A barrier arrival to this device. -/
structure Dev.Joins (d : Dev) (port : Nat) (bytes : List Byte) : Prop where
  passes : Passes d port bytes
  ftype : (parseFrame bytes).ftype = 3
  unfenced : d.fenced (laneDie port) (parseFrame bytes) = false
  unicast : (parseFrame bytes).flag 2 = false
  here : (parseFrame bytes).dest = d.rd F.FWD_DEV_DFID_dfid (laneDie port) 0
  runs : d.dieRuns (barDie (parseFrame bytes)) = true

theorem Dev.Joins.frameArrive {d : Dev} {port : Nat} {bytes : List Byte} (h : d.Joins port bytes) (followed : Bool) :
    d.frameArrive port bytes followed [] = (d.arrived port bytes).barrierArrive (laneDie port) port (parseFrame bytes) := by
  have hlearn : d.learns port (parseFrame bytes) = false := Dev.learns_of_ftype (by rw [h.ftype]; decide) (by rw [h.ftype]; decide) ..
  rw [Dev.frameArrive_of_unlearned h.passes (by rw [h.ftype]; decide) h.unfenced hlearn
    (flag_zero_of_flagsOk h.passes.flagsOk (.inr h.ftype)) h.unicast, Dev.byDfid_arrived_toDevice h.here]
  unfold Dev.toDevice
  rw [h.ftype]
  rfl

theorem Dev.Joins.runs_arrived {d : Dev} {port : Nat} {bytes : List Byte} (h : d.Joins port bytes) :
    (d.arrived port bytes).dieRuns (barDie (parseFrame bytes)) = true := by
  have hruns := h.runs
  simp (disch := decide) only [Dev.dieRuns, Dev.dieState, (d.looked_arrived port bytes).rdAt] at hruns ⊢
  exact hruns

section Clause

variable {s : State} {port : LaneId} {bytes : List Byte}

theorem frameArrival_unfit (h : s.dev.Joins port.val bytes) (hfit : ¬ s.dev.BarFits (parseFrame bytes)) (followed : Bool) :
    ∃ t, exec (.frameArrival port bytes followed []) s = .next t ∧
      Counted F.SYNC_DROP_CNT_frames (barDie (parseFrame bytes)) 8 s t ∧ t.dev.sy = s.dev.sy ∧
      t.dev.rdw .SYNC_BAR_STAT (barDie (parseFrame bytes)) (barIdx (parseFrame bytes)) =
        s.dev.rdw .SYNC_BAR_STAT (barDie (parseFrame bytes)) (barIdx (parseFrame bytes)) := by
  have hlook := s.dev.looked_arrived port.val bytes
  have hgo := (h.frameArrive followed).trans (Dev.barrierArrive_of_unfit h.runs_arrived (mt (hlook.barFits _).1 hfit) ..)
  obtain ⟨hcount, hsy, hstat⟩ := dropSync_outcome hlook (barDie (parseFrame bytes)) 8 port.val (parseFrame bytes)
  rw [exec_frameArrival, State.after_eq hgo]
  exact ⟨_, rfl, hcount, hsy, hstat _ _⟩

theorem frameArrival_joins (h : s.dev.Joins port.val bytes) (hfit : s.dev.BarFits (parseFrame bytes))
    (hsum : s.dev.barSum (parseFrame bytes) < s.dev.barWant (parseFrame bytes)) (followed : Bool) :
    let f := parseFrame bytes
    ∃ t, exec (.frameArrival port bytes followed []) s = .next t ∧
      smGet t.dev.sy.barVec (barOf f) 0 = s.dev.barVecOf f ||| BitVec.twoPow 1024 (barMember f) ∧
      t.dev.rd F.SYNC_BAR_STAT_weight (barDie f) (barIdx f) = s.dev.barSum f % (F.SYNC_BAR_STAT_weight.max + 1) ∧
      t.dev.rd F.SYNC_BAR_STAT_last (barDie f) (barIdx f) = barMember f ∧
      t.dev.rd F.SYNC_BAR_STAT_generation (barDie f) (barIdx f) = s.dev.rd F.SYNC_BAR_STAT_generation (barDie f) (barIdx f) ∧
      t.dev.sw.queue = s.dev.sw.queue := by
  have hlook := s.dev.looked_arrived port.val bytes
  have hgo := (h.frameArrive followed).trans (Dev.barrierArrive_of_fit h.runs_arrived ((hlook.barFits _).2 hfit)
    (by rw [hlook.barSum, hlook.barWant]; exact Nat.ne_of_lt hsum) _ _)
  have hvec := (s.dev.arrived port.val bytes).barJoined_barVec port.val (parseFrame bytes)
  have hweight := (s.dev.arrived port.val bytes).barJoined_weight port.val (parseFrame bytes)
  have hlast := (s.dev.arrived port.val bytes).barJoined_last port.val (parseFrame bytes)
  have hgen := (s.dev.arrived port.val bytes).barJoined_generation port.val (parseFrame bytes)
  have hsw := ((s.dev.arrived port.val bytes).changes_barJoined port.val (parseFrame bytes)).sw
  rw [hlook.barVecOf] at hvec
  rw [hlook.barSum] at hweight
  rw [hlook.rdAt (by decide)] at hgen
  rw [exec_frameArrival, State.after_eq hgo]
  exact ⟨_, rfl, hvec, hweight, hlast, hgen, congrArg SwState.queue (hsw.trans hlook.sw)⟩

theorem frameArrival_completes (h : s.dev.Joins port.val bytes) (hfit : s.dev.BarFits (parseFrame bytes))
    (hsum : s.dev.barSum (parseFrame bytes) = s.dev.barWant (parseFrame bytes))
    (hroot : s.dev.on F.SYNC_BAR_TGT_parent (barDie (parseFrame bytes)) (barIdx (parseFrame bytes)) = false) (followed : Bool) :
    let f := parseFrame bytes
    ∃ t, exec (.frameArrival port bytes followed []) s = .next t ∧
      smGet t.dev.sy.barVec (barOf f) 0 = 0 ∧
      t.dev.rd F.SYNC_BAR_STAT_weight (barDie f) (barIdx f) = 0 ∧
      t.dev.rd F.SYNC_BAR_STAT_last (barDie f) (barIdx f) = barMember f ∧
      t.dev.rd F.SYNC_BAR_STAT_generation (barDie f) (barIdx f) =
        (s.dev.rd F.SYNC_BAR_STAT_generation (barDie f) (barIdx f) + 1) % 256 ∧
      Counted F.SYNC_EVT_CNT_events (barDie f) 9 s t := by
  have hlook := s.dev.looked_arrived port.val bytes
  have hgo := (h.frameArrive followed).trans (Dev.barrierArrive_of_last h.runs_arrived ((hlook.barFits _).2 hfit)
    (by rw [hlook.barSum, hlook.barWant]; exact hsum) ((hlook.onAt (f := F.SYNC_BAR_TGT_parent) (by decide) _ _).trans hroot) _ _)
  obtain ⟨hvec, hweight, hlast, hgen⟩ := (s.dev.arrived port.val bytes).barReleased_counter port.val (parseFrame bytes)
  obtain ⟨e, hpre, -, hpost, -⟩ := (s.dev.arrived port.val bytes).barReleased_between port.val (parseFrame bytes)
  rw [hlook.rdAt (by decide)] at hgen
  have hbefore := ((s.dev.changes_arrived port.val bytes).weaken
    (ps' := [.regs, .ln, .sw, .ev, .tm, .fw, .freeCtr, .parserDrops, .sy]) (rs' := .SYNC_BAR_STAT :: passRegs)).andThen hpre
  rw [exec_frameArrival, State.after_eq hgo]
  exact ⟨_, rfl, hvec, hweight, hlast, hgen, hbefore.counted hpost⟩

end Clause

end Sys2Proof.Machine
end

section
/-! PROOF. A crozier frame at a port: a broadcast dropped, seen before or new, and an acknowledgement to this device (R199, R200). -/

namespace Sys2Proof.Machine

set_option Elab.async false

/-- The kind of a crozier frame, and the ports of the tree it names (Table 7.9). -/
def crzKind (f : Frame) : Nat := fget (payWord f.payload 0) 63 62
def Dev.crzTree (d : Dev) (die : Nat) (f : Frame) : List Nat := d.crzPorts die f.block (fget (payWord f.payload 0) 61 60)

theorem Dev.crzTree_handed (d : Dev) (port : Nat) (bytes : List Byte) (die : Nat) (f : Frame) :
    (d.handed port bytes).crzTree die f = d.crzTree die f := rfl

theorem Dev.switches_crzCopy (d : Dev) (die : Nat) (ports : List Nat) (f : Frame) : d.Switches (d.crzCopy die ports f) := by
  have hclosed : ∀ (e : Dev) (ps : List Nat), e.Switches (e.each ps fun e p => e.inc F.D2D_DROP_CNT_frames (laneDie p) 0 1) := fun e ps =>
    .each (fun e p => (e.changes_inc ..).weaken) e ps
  have hdown : ∀ (e : Dev) (ps : List Nat), e.Switches (e.each ps fun e p => e.dropCnt .SWC die 5 (some p) (some f.cls)) := fun e ps =>
    .each (fun e p => (e.changes_dropCnt .SWC ..).weaken) e ps
  unfold Dev.crzCopy
  dsimp only
  exact .ite ((hclosed _ _).trans (hdown _ _)) (((hclosed _ _).trans (hdown _ _)).trans (Dev.switches_admitMulticast ..))

-- The cases of a frame --------------------------------------------------------------------------------------------------------------------

section Cases

variable {d : Dev} {f : Frame}

theorem Dev.crozier_of_dead (hkind : crzKind f = 0) (hdead : f.hop = 0) (die port : Nat) (followed : Bool) :
    d.crozier die port f followed = d.dropParser port 11 f.cls f.len := by
  unfold crzKind at hkind
  simp [Dev.crozier, hkind, hdead]

theorem Dev.crozier_of_malformed (hkind : crzKind f = 0) (hlive : f.hop ≠ 0) {die : Nat} (hbad : f.payload.length < 16 ∨ d.crzTree die f = [])
    (port : Nat) (followed : Bool) : d.crozier die port f followed = d.dropSync die 9 port f := by
  unfold crzKind at hkind
  unfold Dev.crzTree at hbad
  rcases hbad with hbad | hbad <;> simp [Dev.crozier, hkind, hlive, hbad]

/-- The device once a broadcast has been acknowledged to its root. -/
def Dev.crzAcked (d : Dev) (die port : Nat) (f : Frame) : Dev := (d.oweFrame (.port port) f.cls f.len).crzAck die f

theorem Dev.sends_crzAcked (d : Dev) (die port : Nat) (f : Frame) : d.Sends (d.crzAcked die port f) :=
  (Dev.Switches.sends (d.changes_oweFrame ..).weaken).trans (Dev.sends_originate ..)

theorem Dev.crozier_of_broadcast (hkind : crzKind f = 0) (hlive : f.hop ≠ 0) (hlen : 16 ≤ f.payload.length) {die : Nat}
    (htree : d.crzTree die f ≠ []) (port : Nat) (followed : Bool) : d.crozier die port f followed =
      if f.mseq ∈ smGet d.sy.crzSeen f.block [] then (d.crzAcked die port f).evtCnt .SYNC die 11
      else ((d.crzAcked die port f).crzRecord f.block f.mseq).crzCopy die ((d.crzTree die f).filter (· != port))
        ((d.crzAcked die port f).crzReplica die f) := by
  unfold crzKind at hkind
  unfold Dev.crzTree at htree ⊢
  simp [Dev.crozier, hkind, hlive, htree, Nat.not_lt.2 hlen, Dev.crzAcked]

/-- The device once an acknowledgement to it has been counted. -/
def Dev.crzCounted (d : Dev) (die : Nat) (f : Frame) : Dev :=
  if f.mseq = d.rd F.SYNC_CRZ_STAT_sequence die 0 then d.inc F.SYNC_CRZ_STAT_acks die 0 1
  else (d.wr F.SYNC_CRZ_STAT_sequence die 0 f.mseq).wr F.SYNC_CRZ_STAT_acks die 0 1

theorem Dev.crozier_of_ack (hkind : crzKind f = 1) (hlen : f.payload.length = 16) {die : Nat}
    (hdest : f.dest = d.rd F.FWD_DEV_DFID_dfid die 0) (port : Nat) (followed : Bool) :
    d.crozier die port f followed = (d.oweFrame (.port port) f.cls f.len).crzCounted die f := by
  unfold crzKind at hkind
  simp [Dev.crozier, hkind, hlen, hdest, Dev.crzCounted]

theorem Dev.changes_crzCounted (d : Dev) (die : Nat) (f : Frame) : d.Changes [.regs] [.SYNC_CRZ_STAT] (d.crzCounted die f) :=
  .ite (d.changes_inc F.SYNC_CRZ_STAT_acks ..)
    ((d.changes_wr F.SYNC_CRZ_STAT_sequence ..).trans (Dev.changes_wr _ F.SYNC_CRZ_STAT_acks ..))

/-- The sequence and the count shown after an acknowledgement (R200). -/
theorem Dev.crzCounted_stat {die : Nat} (hd : die < 32) (d : Dev) (f : Frame) :
    (d.crzCounted die f).rd F.SYNC_CRZ_STAT_sequence die 0 = f.mseq ∧
    (d.crzCounted die f).rd F.SYNC_CRZ_STAT_acks die 0 = if f.mseq = d.rd F.SYNC_CRZ_STAT_sequence die 0 then
      Nat.min F.SYNC_CRZ_STAT_acks.max (d.rd F.SYNC_CRZ_STAT_acks die 0 + 1) else 1 := by
  have hkeep : ∀ (e : Dev) v, (e.wr F.SYNC_CRZ_STAT_acks die 0 v).rd F.SYNC_CRZ_STAT_sequence die 0 =
      e.rd F.SYNC_CRZ_STAT_sequence die 0 := fun e v =>
    e.rd_wr_disj v hd hd (by decide) (by decide) (by decide) (.inr (by decide))
  unfold Dev.crzCounted
  split
  next h => exact ⟨(hkeep d _).trans h.symm, Dev.rd_inc_same _ _ _ _ _ (by decide)⟩
  next h =>
    refine ⟨?_, Dev.rd_wr_same _ _ _ _ _ (by decide)⟩
    rw [hkeep, Dev.rd_wr_same _ _ _ _ _ (by decide)]
    exact Nat.mod_eq_of_lt (fget_lt f.w2 63 32)

end Cases

-- A crozier frame at a port ---------------------------------------------------------------------------------------------------------------

section Clause

variable {s : State} {port : LaneId} {bytes : List Byte}

theorem Dev.frameArrive_of_crozier {d : Dev} {port : Nat} (h : Passes d port bytes) (h5 : (parseFrame bytes).ftype = 5) (followed : Bool) :
    d.frameArrive port bytes followed [] = (d.handed port bytes).crozier (laneDie port) port (parseFrame bytes) followed := by
  rw [Dev.frameArrive_of_passes h, if_pos h5]

theorem frameArrival_crozier_dead (h : Passes s.dev port.val bytes) (h5 : (parseFrame bytes).ftype = 5)
    (hkind : crzKind (parseFrame bytes) = 0) (hdead : (parseFrame bytes).hop = 0) (followed : Bool) :
    ∃ t, exec (.frameArrival port bytes followed []) s = .next t ∧
      smGet t.dev.parserDrops (port.val * 16 + 11) 0 = smGet s.dev.parserDrops (port.val * 16 + 11) 0 + 1 ∧ t.dev.sy = s.dev.sy := by
  have hgo : s.dev.frameArrive port.val bytes followed [] =
      (s.dev.handed port.val bytes).dropParser port.val 11 (parseFrame bytes).cls (parseFrame bytes).len := by
    rw [Dev.frameArrive_of_crozier h h5, Dev.crozier_of_dead hkind hdead]
  rw [exec_frameArrival, State.after_eq hgo]
  refine ⟨_, rfl, ?_⟩
  simp only [State.after_dev, Dev.requiesce_keeps, Dev.parserDrops_dropParser, (Dev.changes_dropParser ..).sy,
    (s.dev.changes_handed port.val bytes).parserDrops, (s.dev.changes_handed port.val bytes).sy, and_self]

theorem frameArrival_crozier_malformed (h : Passes s.dev port.val bytes) (h5 : (parseFrame bytes).ftype = 5)
    (hkind : crzKind (parseFrame bytes) = 0) (hlive : (parseFrame bytes).hop ≠ 0)
    (hbad : (parseFrame bytes).payload.length < 16 ∨ s.dev.crzTree (laneDie port.val) (parseFrame bytes) = []) (followed : Bool) :
    ∃ t, exec (.frameArrival port bytes followed []) s = .next t ∧
      Counted F.SYNC_DROP_CNT_frames (laneDie port.val) 9 s t ∧ t.dev.sy = s.dev.sy := by
  have hgo : s.dev.frameArrive port.val bytes followed [] =
      (s.dev.handed port.val bytes).dropSync (laneDie port.val) 9 port.val (parseFrame bytes) := by
    rw [Dev.frameArrive_of_crozier h h5, Dev.crozier_of_malformed hkind hlive (by rwa [Dev.crzTree_handed])]
  obtain ⟨hcount, hsy, -⟩ := dropSync_outcome (s.dev.looked_handed port.val bytes) (laneDie port.val) 9 port.val (parseFrame bytes)
  rw [exec_frameArrival, State.after_eq hgo]
  exact ⟨_, rfl, hcount, hsy⟩

/-- A well-formed broadcast (R199). -/
structure Dev.Broadcasts (d : Dev) (port : Nat) (bytes : List Byte) : Prop where
  passes : Passes d port bytes
  ftype : (parseFrame bytes).ftype = 5
  kind : crzKind (parseFrame bytes) = 0
  live : (parseFrame bytes).hop ≠ 0
  long : 16 ≤ (parseFrame bytes).payload.length
  tree : d.crzTree (laneDie port) (parseFrame bytes) ≠ []

/-- The broadcast at a port, its sequence seen before or not. -/
theorem Dev.Broadcasts.crozier {d : Dev} {port : Nat} {bytes : List Byte} (h : d.Broadcasts port bytes) (followed : Bool) :
    (d.handed port bytes).crozier (laneDie port) port (parseFrame bytes) followed =
      if (parseFrame bytes).mseq ∈ smGet d.sy.crzSeen (parseFrame bytes).block [] then
        ((d.handed port bytes).crzAcked (laneDie port) port (parseFrame bytes)).evtCnt .SYNC (laneDie port) 11
      else (((d.handed port bytes).crzAcked (laneDie port) port (parseFrame bytes)).crzRecord (parseFrame bytes).block
          (parseFrame bytes).mseq).crzCopy (laneDie port) ((d.crzTree (laneDie port) (parseFrame bytes)).filter (· != port))
        (((d.handed port bytes).crzAcked (laneDie port) port (parseFrame bytes)).crzReplica (laneDie port) (parseFrame bytes)) := by
  rw [Dev.crozier_of_broadcast h.kind h.live h.long (by rw [Dev.crzTree_handed]; exact h.tree), Dev.crzTree_handed,
    (d.changes_handed port bytes).sy]

/-- What an acknowledgement to the root leaves as it was. -/
theorem Dev.changes_handed_crzAcked (d : Dev) (port : Nat) (bytes : List Byte) (f : Frame) :
    d.Changes [.regs, .ln, .sw, .ev, .tm, .fw, .freeCtr, .parserDrops] passRegs ((d.handed port bytes).crzAcked (laneDie port) port f) :=
  ((d.changes_handed port bytes).weaken).andThen (Dev.sends_crzAcked ..).changes

theorem frameArrival_crozier_seen (h : s.dev.Broadcasts port.val bytes)
    (hseen : (parseFrame bytes).mseq ∈ smGet s.dev.sy.crzSeen (parseFrame bytes).block []) (followed : Bool) :
    ∃ t, exec (.frameArrival port bytes followed []) s = .next t ∧ t.dev.sy.crzSeen = s.dev.sy.crzSeen ∧
      Counted F.SYNC_EVT_CNT_events (laneDie port.val) 11 s t := by
  have hgo : s.dev.frameArrive port.val bytes followed [] = ((s.dev.handed port.val bytes).crzAcked (laneDie port.val) port.val
      (parseFrame bytes)).evtCnt .SYNC (laneDie port.val) 11 := by
    rw [Dev.frameArrive_of_crozier h.passes h.ftype, h.crozier, if_pos hseen]
  have hacked := s.dev.changes_handed_crzAcked port.val bytes (parseFrame bytes)
  have hcount := Dev.changes_evtCnt_SYNC ((s.dev.handed port.val bytes).crzAcked (laneDie port.val) port.val (parseFrame bytes))
    (laneDie port.val) 11
  rw [exec_frameArrival, State.after_eq hgo]
  refine ⟨_, rfl, ?_, hacked.counted hcount⟩
  simp only [State.after_dev, Dev.requiesce_keeps, hcount.sy, (Dev.changes_inc ..).sy, hacked.sy]

theorem frameArrival_crozier_new (h : s.dev.Broadcasts port.val bytes)
    (hnew : (parseFrame bytes).mseq ∉ smGet s.dev.sy.crzSeen (parseFrame bytes).block []) (followed : Bool) :
    ∃ t, exec (.frameArrival port bytes followed []) s = .next t ∧ smGet t.dev.sy.crzSeen (parseFrame bytes).block [] =
      ((parseFrame bytes).mseq :: smGet s.dev.sy.crzSeen (parseFrame bytes).block []).take 64 := by
  have hgo : s.dev.frameArrive port.val bytes followed [] =
      (((s.dev.handed port.val bytes).crzAcked (laneDie port.val) port.val (parseFrame bytes)).crzRecord (parseFrame bytes).block
        (parseFrame bytes).mseq).crzCopy (laneDie port.val)
          ((s.dev.crzTree (laneDie port.val) (parseFrame bytes)).filter (· != port.val))
          (((s.dev.handed port.val bytes).crzAcked (laneDie port.val) port.val (parseFrame bytes)).crzReplica (laneDie port.val)
            (parseFrame bytes)) := by
    rw [Dev.frameArrive_of_crozier h.passes h.ftype, h.crozier, if_neg hnew]
  have hacked := s.dev.changes_handed_crzAcked port.val bytes (parseFrame bytes)
  rw [exec_frameArrival, State.after_eq hgo]
  refine ⟨_, rfl, ?_⟩
  simp only [State.after_dev, Dev.requiesce_keeps, (Dev.switches_crzCopy ..).sy, Dev.crzRecord, smGet_smInsert_same, hacked.sy]

theorem frameArrival_crozier_ack (h : Passes s.dev port.val bytes) (h5 : (parseFrame bytes).ftype = 5)
    (hkind : crzKind (parseFrame bytes) = 1) (hlen : (parseFrame bytes).payload.length = 16)
    (hdest : (parseFrame bytes).dest = s.dev.rd F.FWD_DEV_DFID_dfid (laneDie port.val) 0) (followed : Bool) :
    ∃ t, exec (.frameArrival port bytes followed []) s = .next t ∧ t.dev.sy = s.dev.sy ∧
      t.dev.rd F.SYNC_CRZ_STAT_sequence (laneDie port.val) 0 = (parseFrame bytes).mseq ∧
      t.dev.rd F.SYNC_CRZ_STAT_acks (laneDie port.val) 0 =
        (if (parseFrame bytes).mseq = s.dev.rd F.SYNC_CRZ_STAT_sequence (laneDie port.val) 0 then
          Nat.min F.SYNC_CRZ_STAT_acks.max (s.dev.rd F.SYNC_CRZ_STAT_acks (laneDie port.val) 0 + 1) else 1) := by
  have hgo : s.dev.frameArrive port.val bytes followed [] = ((s.dev.handed port.val bytes).oweFrame (.port port.val)
      (parseFrame bytes).cls (parseFrame bytes).len).crzCounted (laneDie port.val) (parseFrame bytes) := by
    rw [Dev.frameArrive_of_crozier h h5, Dev.crozier_of_ack (d := s.dev.handed port.val bytes) hkind hlen hdest]
  have howed := ((s.dev.changes_handed port.val bytes).weaken (ps' := [.regs, .ln]) (rs' := [.TM_CRD_STAT])).andThen
    (Dev.changes_oweFrame _ (.port port.val) (parseFrame bytes).cls (parseFrame bytes).len)
  have hcounted := Dev.changes_crzCounted ((s.dev.handed port.val bytes).oweFrame (.port port.val) (parseFrame bytes).cls
    (parseFrame bytes).len) (laneDie port.val) (parseFrame bytes)
  obtain ⟨hseq, hacks⟩ := Dev.crzCounted_stat (laneDie_lt port) ((s.dev.handed port.val bytes).oweFrame (.port port.val)
    (parseFrame bytes).cls (parseFrame bytes).len) (parseFrame bytes)
  rw [howed.rd, howed.rd] at hacks
  rw [exec_frameArrival, State.after_eq hgo]
  exact ⟨_, rfl, hcounted.sy.trans howed.sy, hseq, hacks⟩

end Clause

end Sys2Proof.Machine
end

section
/-! PROOF. How arriving frames are taken, dropped or kept waiting (O3): its cases put together. -/

namespace Sys2Proof.Machine

set_option Elab.async false

/-- Settles O3: each way of an arriving frame is a chain of checks that it passes, and then one operation on a device that differs from
the state's in what a lookup counts. -/
theorem frameArrivals : Obligations.FrameArrivals := by
  unfold Obligations.FrameArrivals
  refine ⟨?_, ?_, ?_, ?_, ?_, ?_, ?_, ?_⟩
  · intro s port bytes followed d die f hport hruns hparse h1 hadm hfence hlearn hdest hvalid hfar
    exact frameArrival_waits ⟨hport, hruns, hparse, by rw [h1]; rfl, hadm⟩ h1 hfence hlearn hdest hvalid hfar followed
  · intro s port bytes followed r hport hruns hparse
    exact frameArrival_drops hport hruns hparse followed
  · intro s die p d hfind hvalid hruns hpeer
    exact homeDieAnswer_decides hfind hvalid hruns hpeer
  · intro s port bytes followed d die f o hpass h5 hfence hlearn h0 h2 haway
    have h : s.dev.Forwards port.val bytes := ⟨hpass, h5, hfence, hlearn, h0, h2, haway⟩
    refine ⟨fun hlive => ⟨fun hbank => frameArrival_no_bank h hlive hbank followed, fun bank hbank =>
      ⟨fun hfound => frameArrival_no_route h hlive hbank hfound followed,
        fun hfound => frameArrival_poisoned h hlive hbank hfound followed⟩⟩,
      fun hdead => frameArrival_dead h hdead followed, ?_⟩
    intro bank kind tgt p ks hlive hbank hfound hnames hadm hmeter hloss hopen hres
    exact frameArrival_queues h hlive hbank hfound hnames hadm hmeter hloss hopen hres followed
  · intro s port bytes followed d die f hpass ht hfence hlearn h0 h2 haway key tk tg held hclean
    have h : s.dev.Teaches port.val bytes := ⟨hpass, ht, hfence, hlearn, h0, h2, haway⟩
    exact ⟨fun hnone hroom => frameArrival_learns_new h hclean hnone hroom followed, fun p e hfound hmoved =>
      ⟨fun hkind => frameArrival_learns_move h hclean hfound hkind hmoved followed,
        fun hkind => frameArrival_meets_static h hclean hfound hkind hmoved followed⟩⟩
  · intro s port bytes followed d die f o hpass h5 hfence hlearn h2 e w ps
    have h : s.dev.Spreads port.val bytes := ⟨hpass, h5, hfence, hlearn, h2⟩
    refine ⟨fun hout => frameArrival_outside h hout followed, ?_⟩
    intro ks hin hlive hkind hrefs hsome hports hmeter hloss hres
    exact frameArrival_spreads h ⟨hin, hkind, hrefs⟩ hlive hsome hports hmeter hloss hres followed
  · intro s port bytes followed d die f hpass h3 hfence h2 hdest b0 b cd i member weight v sum want good hruns
    have h : s.dev.Joins port.val bytes := ⟨hpass, h3, hfence, h2, hdest, hruns⟩
    exact ⟨fun hfit => frameArrival_unfit h hfit followed, fun hfit hsum => frameArrival_joins h hfit hsum followed,
      fun hfit hsum hroot => frameArrival_completes h hfit hsum hroot followed⟩
  · intro s port bytes followed d die f hpass h5 c0 kind ports seen
    refine ⟨fun hkind hdead => frameArrival_crozier_dead hpass h5 hkind hdead followed,
      fun hkind hlive hbad => frameArrival_crozier_malformed hpass h5 hkind hlive hbad followed, fun hkind hlive hlong htree => ?_,
      fun hkind hlen hdest => frameArrival_crozier_ack hpass h5 hkind hlen hdest followed⟩
    have h : s.dev.Broadcasts port.val bytes := ⟨hpass, h5, hkind, hlive, hlong, htree⟩
    exact ⟨fun hseen => frameArrival_crozier_seen h hseen followed, fun hnew => frameArrival_crozier_new h hnew followed⟩

end Sys2Proof.Machine
end

section
/-! PROOF. Errors logged in a row: their count, and what the error registers of the block still hold of one of them (R408). -/

namespace Sys2Proof.Machine

set_option Elab.async false

-- The error registers of a device, for `Latched` speaks of a machine that holds it -----------------------------------------------------

theorem latched_of_sameRegs {a b : Dev} {l : List Reg} (h : SameRegs l a.regs b.regs) {blk : ErrBlk} {u code : Nat}
    (hfirst : blk.first ∉ l := by decide) (hnext : blk.next ∉ l := by decide) (hl : Latched blk u code (.ofDev a)) :
    Latched blk u code (.ofDev b) := by
  have hrd := fun hi lo => Dev.rd_of_sameRegs h (f := ⟨blk.first, hi, lo⟩) hfirst u 0
  have hword : b.rdw blk.next u 0 = a.rdw blk.next u 0 := h _ _ _ hnext
  simp only [Latched, State.ofDev_dev] at hl ⊢
  rwa [hrd, hrd, hword]

theorem wbit_wset_of_wbit {w : Word} {n : Nat} (hn : n < 64) (h : wbit w n = true) (m : Nat) : wbit (wset w m true) n = true := by
  rw [wbit, wset, getLsbD_fput _ _ _ _ _ hn]
  split
  next hm =>
    obtain rfl : m = n := by omega
    simp
  · exact h

theorem Dev.rdw_inc_ne_reg (d : Dev) {f : Fld} {r : Reg} (u u' i i' n : Nat) (h : r ≠ f.reg) :
    (d.inc f u i n).rdw r u' i' = d.rdw r u' i' := sameRegs_wr d f u i _ r u' i' (by simpa using h)

/-- An error that the registers of a block hold stays there when the next one is latched: as a bit of ERR_NEXT, if a lower code takes
its place in ERR_FIRST. -/
theorem Dev.latched_latchErr_of_latched {d : Dev} {b : ErrBlk} {u code : Nat} (hc : code < 64) (h : Latched b u code (.ofDev d))
    (code' : Nat) (detail : Word) : Latched b u code (.ofDev (d.latchErr b u code' detail)) := by
  obtain ⟨hne, hcf, hcn⟩ := b.regs_ne
  have hfirst := d.rdw_inc_ne_reg (f := ⟨b.count, 31, 0⟩) u u 0 0 1 hcf.symm
  have hnext := d.rdw_inc_ne_reg (f := ⟨b.count, 31, 0⟩) u u 0 0 1 hcn.symm
  have hrd : ∀ (e : Dev) hi lo, e.rd ⟨b.first, hi, lo⟩ u 0 = fget (e.rdw b.first u 0) hi lo := fun _ _ _ => rfl
  simp only [Latched, State.ofDev_dev, hrd] at h ⊢
  obtain ⟨hvalid, hcode⟩ := h
  unfold Dev.latchErr
  extract_lets counted old events
  have hold : old = d.rdw b.first u 0 := hfirst
  split
  next hempty => simp [hold, fget_bit] at hempty hvalid; simp [hempty] at hvalid
  next =>
    split
    · rw [Dev.rdw_wrw_ne_reg _ _ _ _ _ _ hne, Dev.rdw_wrw_same, Dev.rdw_wrw_same]
      refine ⟨fget_errWord_valid _ _, .inr ?_⟩
      obtain hcode | hcode := hcode
      · rw [hold, hcode]
        exact wbit_wset_same _ hc
      · rw [hnext]
        exact wbit_wset_of_wbit hc hcode _
    · rw [Dev.rdw_wrw_ne_reg _ _ _ _ _ _ hne, Dev.rdw_wrw_same, hfirst, hnext]
      exact ⟨hvalid, hcode.imp_right fun hcode => wbit_wset_of_wbit hc hcode _⟩

theorem Dev.latched_logErr (d : Dev) (b : ErrBlk) (u : Nat) {code : Nat} (hc : code < 64) (detail : Word) :
    Latched b u code (.ofDev (d.logErr b u code detail)) :=
  latched_of_sameRegs (sameRegs_logErr_latchErr d b u code detail) b.regs_not_recordRegs.1 b.regs_not_recordRegs.2.1
    (d.latched_latchErr b u hc detail)

theorem Dev.latched_logErr_of_latched {d : Dev} {b : ErrBlk} {u code : Nat} (hc : code < 64) (h : Latched b u code (.ofDev d))
    (code' : Nat) (detail : Word) : Latched b u code (.ofDev (d.logErr b u code' detail)) :=
  latched_of_sameRegs (sameRegs_logErr_latchErr d b u code' detail) b.regs_not_recordRegs.1 b.regs_not_recordRegs.2.1
    (Dev.latched_latchErr_of_latched hc h code' detail)

theorem Dev.rd_count_logErr (d : Dev) (b : ErrBlk) (u code : Nat) (detail : Word) :
    (d.logErr b u code detail).rd ⟨b.count, 31, 0⟩ u 0 = min 4294967295 (d.rd ⟨b.count, 31, 0⟩ u 0 + 1) :=
  (Dev.rd_of_sameRegs (sameRegs_logErr_latchErr d b u code detail) b.regs_not_recordRegs.2.2 u 0).trans
    (d.rd_count_latchErr b u code detail)

-- A list of errors ---------------------------------------------------------------------------------------------------------------------

/-- An operation that logs one error of a block under a code, for each element of a list. -/
structure Logs {α : Type} (b : ErrBlk) (u code : Nat) (f : Dev → α → Dev) : Prop where
  count : ∀ d x, (f d x).rd ⟨b.count, 31, 0⟩ u 0 = min 4294967295 (d.rd ⟨b.count, 31, 0⟩ u 0 + 1)
  latches : ∀ d x, Latched b u code (.ofDev (f d x))
  keeps : ∀ d x c, c < 64 → Latched b u c (.ofDev d) → Latched b u c (.ofDev (f d x))

section Logs

variable {α : Type} {b : ErrBlk} {u code : Nat} {f : Dev → α → Dev}

theorem logs_logErr (b : ErrBlk) (u : Nat) {code : Nat} (hc : code < 64) (detail : α → Word) :
    Logs b u code fun (d : Dev) x => d.logErr b u code (detail x) :=
  ⟨fun d _ => d.rd_count_logErr .., fun d _ => d.latched_logErr b u hc _, fun _ _ _ hc h => Dev.latched_logErr_of_latched hc h ..⟩

/-- The count rises by the number of errors, up to its largest value. -/
theorem Logs.count_each (h : Logs b u code f) (d : Dev) (xs : List α) :
    (d.each xs f).rd ⟨b.count, 31, 0⟩ u 0 = min 4294967295 (d.rd ⟨b.count, 31, 0⟩ u 0 + xs.length) := by
  induction xs generalizing d with
  | nil =>
    have hlt : d.rd ⟨b.count, 31, 0⟩ u 0 < 2 ^ 32 := fget_lt _ 31 0
    exact (Nat.min_eq_right (Nat.le_of_lt_succ hlt)).symm
  | cons x xs ih =>
    refine (ih (f d x)).trans ?_
    rw [h.count, List.length_cons]
    omega

theorem Logs.keeps_each (h : Logs b u code f) {d : Dev} {c : Nat} (hc : c < 64) (hl : Latched b u c (.ofDev d)) (xs : List α) :
    Latched b u c (.ofDev (d.each xs f)) := by
  induction xs generalizing d with
  | nil => exact hl
  | cons x xs ih => exact ih (h.keeps d x c hc hl)

theorem Logs.latched_each (h : Logs b u code f) (hc : code < 64) (d : Dev) {xs : List α} (hx : xs ≠ []) :
    Latched b u code (.ofDev (d.each xs f)) := by
  cases xs with
  | nil => exact absurd rfl hx
  | cons x xs => exact h.keeps_each hc (h.latches d x) xs

end Logs

end Sys2Proof.Machine
end

section
/-! PROOF. Audit passes and the pinned mapping (O8): a walk of a die's cells starts and ends, and a settled pair takes its new mapping. -/

namespace Sys2Proof.Machine

set_option Elab.async false

-- The start of a pass (R85) ------------------------------------------------------------------------------------------------------------

/-- The device with every cell of a die unmarked. -/
def Dev.unmarked (d : Dev) (die : Nat) : Dev :=
  { d with sw := { d.sw with cells := d.sw.cells.map fun e => if e.1 / 1048576 == die then (e.1, { e.2 with mark := false }) else e } }

/-- The device with the list of a die's last leaks cleared. -/
def Dev.leaksCleared (d : Dev) (die : Nat) : Dev := d.each (List.range 64) fun d i => d.wrw .SWC_AUDIT_LEAK die i 0

theorem Dev.unmarked_cells (d : Dev) (die : Nat) : ∀ e ∈ (d.unmarked die).sw.cells, e.1 / 1048576 = die → e.2.mark = false := by
  intro e he hdie
  obtain ⟨e', -, rfl⟩ := List.mem_map.1 he
  by_cases h : e'.1 / 1048576 = die
  · simp [h]
  · simp [h] at hdie

theorem Dev.changes_wrw (d : Dev) (r : Reg) (u i : Nat) (w : Word) : d.Changes [.regs] [r] (d.wrw r u i w) :=
  d.changes_regs (sameRegs_rset _ _ _ _ _)

theorem Dev.changes_leaksCleared (d : Dev) (die : Nat) : d.Changes [.regs] [.SWC_AUDIT_LEAK] (d.leaksCleared die) :=
  .each (fun d _ => d.changes_wrw ..) d _

theorem Dev.auditStart_of_idle {d : Dev} {die : Nat} (hbusy : d.on F.SWC_AUDIT_STAT_busy die 0 = false) (hruns : d.dieRuns die = true) :
    d.auditStart die = ((d.unmarked die).leaksCleared die).wr F.SWC_AUDIT_STAT_busy die 0 1 := by
  unfold Dev.auditStart
  rw [hbusy, hruns]
  rfl

theorem Dev.on_iff (d : Dev) (f : Fld) (u i : Nat) : d.on f u i = true ↔ d.rd f u i = 1 := beq_iff_eq

theorem State.rd_after (s : State) (f : Dev → Dev) (g : Fld) (u i : Nat) : (s.after f).dev.rd g u i = (f s.dev).rd g u i := rfl

theorem exec_auditPassStart (die : DieId) (s : State) :
    exec (.auditPassStart die) s = .next (s.after fun d => d.auditStart die.val) := rfl

theorem auditPassStart_unmarks {s : State} {die : DieId} (hbusy : s.dev.on F.SWC_AUDIT_STAT_busy die.val 0 = false)
    (hruns : s.dev.dieRuns die.val = true) :
    ∃ t, exec (.auditPassStart die) s = .next t ∧ t.dev.on F.SWC_AUDIT_STAT_busy die.val 0 = true ∧
      (∀ e ∈ t.dev.sw.cells, e.1 / 1048576 = die.val → e.2.mark = false) ∧
      RegsKeptBut [.SWC_AUDIT_STAT, .SWC_AUDIT_LEAK] s t ∧ KeepsBut [.regs, .sw, .quiesced] s t := by
  have hcleared := (s.dev.unmarked die.val).changes_leaksCleared die.val
  have hshown := ((s.dev.unmarked die.val).leaksCleared die.val).changes_wr F.SWC_AUDIT_STAT_busy die.val 0 1
  have hall : s.dev.Changes [.regs, .sw] [.SWC_AUDIT_STAT, .SWC_AUDIT_LEAK] _ :=
    ((s.dev.changes_sw _).weaken.andThen hcleared).andThen hshown
  rw [exec_auditPassStart, State.after_eq (Dev.auditStart_of_idle hbusy hruns)]
  refine ⟨_, rfl, ?_, ?_, hall.regsKeptBut, hall.keepsBut_of_subset⟩
  · rw [Dev.on_iff, State.rd_after, Dev.rd_wr_same _ _ _ _ _ (by decide)]
    rfl
  · simp only [State.after_dev, Dev.requiesce_keeps, hshown.sw, hcleared.sw]
    exact s.dev.unmarked_cells die.val

-- The end of a pass: what it finds (R85, R86) ------------------------------------------------------------------------------------------

/-- The leaks that the end of a pass finds on a die: cells that neither this pass nor the last one reached. -/
def Dev.leaks (d : Dev) (die : Nat) : List (Nat × CellInfo) :=
  d.sw.cells.filter fun e => e.1 / 1048576 == die && !(d.reached die).contains e.1 && !e.2.mark && e.2.suspect

/-- The requesters of a die whose count of cells is not that of the cells they own. -/
def Dev.miscounted (d : Dev) (die : Nat) : List Nat :=
  (List.range 912).filter fun q => (d.sw.cells.filter fun e =>
    e.1 / 1048576 == die && !isCtl e.1 && e.2.owner == q).length != d.rd F.SWC_REQ_STAT_in_use die q

/-- What the switch holds after a pass: each cell of the die is marked if it was reached, and suspect if not. -/
def Dev.walkedSw (d : Dev) (die : Nat) : SwState :=
  { d.sw with cells := d.sw.cells.map fun e => if e.1 / 1048576 = die then
      (e.1, { e.2 with mark := e.2.mark || (d.reached die).contains e.1,
                       suspect := !(e.2.mark || (d.reached die).contains e.1) }) else e }

/-- The report of a leak by its place among the leaks of a pass. -/
def Dev.reportAt (die : Nat) (d : Dev) (l : Nat × Nat × CellInfo) : Dev := d.reportLeak die l.1 l.2.1 l.2.2.owner

/-- The device after the walk, with its leaks reported. -/
def Dev.leaksReported (d : Dev) (die : Nat) : Dev :=
  ({ d with sw := d.walkedSw die } : Dev).each ((List.range (d.leaks die).length).zip (d.leaks die)) (Dev.reportAt die)

/-- The device with a pass counted that found `n` leaks. -/
def Dev.passCounted (d : Dev) (die n : Nat) : Dev :=
  ((d.wr F.SWC_AUDIT_STAT_leaks die 0 n).incWrap F.SWC_AUDIT_STAT_passes die 0 1).wr F.SWC_AUDIT_STAT_busy die 0 0

/-- The device after the comparison of quiet mode, which found the requesters of `off` miscounted. -/
def Dev.compared (d : Dev) (die : Nat) (off : List Nat) : Dev :=
  (d.each off fun d q => d.logErr .SWC die 4 (swcDetail q 0)).wr F.SWC_AUDIT_STAT_mismatch die 0 (b2n !off.isEmpty)

-- The leaks ----------------------------------------------------------------------------------------------------------------------------

/-- The word of the list of leaks that shows a leak. -/
def leakWord (l : Nat × CellInfo) : Word := wmk [(63, 63, 1), (28, 19, l.2.owner), (18, 0, cellNo l.1)]

theorem Dev.reportAt_eq (die : Nat) (d : Dev) (l : Nat × Nat × CellInfo) : Dev.reportAt die d l =
    let e := d.logErr .SWC die 5 (swcDetail l.2.2.owner (cellNo l.2.1))
    if l.1 < 64 then e.wrw .SWC_AUDIT_LEAK die l.1 (leakWord l.2) else e := rfl

theorem Dev.sameRegs_logErr_reportAt (die : Nat) (d : Dev) (l : Nat × Nat × CellInfo) :
    SameRegs [.SWC_AUDIT_LEAK] (d.logErr .SWC die 5 (swcDetail l.2.2.owner (cellNo l.2.1))).regs (Dev.reportAt die d l).regs := by
  rw [Dev.reportAt_eq]
  dsimp only
  split
  · exact sameRegs_rset _ _ _ _ _
  · exact SameRegs.rfl' _ _

theorem Dev.changes_reportAt (die : Nat) (d : Dev) (l : Nat × Nat × CellInfo) :
    d.Changes [.regs, .ev] (.SWC_AUDIT_LEAK :: loggingRegs) (Dev.reportAt die d l) :=
  have hlog := (d.changes_logErr .SWC die 5 (swcDetail l.2.2.owner (cellNo l.2.1))).weaken
    (ps' := [.regs, .ev]) (rs' := .SWC_AUDIT_LEAK :: loggingRegs)
  .ite (hlog.andThen (Dev.changes_wrw ..)) hlog

/-- A report logs code 5, whether or not the list has room for it. -/
theorem logs_reportAt (die : Nat) : Logs .SWC die 5 (Dev.reportAt die) where
  count d l := (Dev.rd_of_sameRegs (d.sameRegs_logErr_reportAt die l) (by decide) die 0).trans (d.rd_count_logErr .SWC ..)
  latches d l := latched_of_sameRegs (d.sameRegs_logErr_reportAt die l) (by decide) (by decide)
    (d.latched_logErr .SWC die (by decide) _)
  keeps d l _ hc h := latched_of_sameRegs (d.sameRegs_logErr_reportAt die l) (by decide) (by decide)
    (Dev.latched_logErr_of_latched hc h ..)

theorem Dev.rdw_reportAt_same (die : Nat) (d : Dev) {n : Nat} (hn : n < 64) (l : Nat × CellInfo) :
    (Dev.reportAt die d (n, l)).rdw .SWC_AUDIT_LEAK die n = leakWord l := by
  rw [Dev.reportAt_eq]
  simp only [hn, if_true, Dev.rdw_wrw_same]

theorem Dev.rdw_reportAt_ne {die : Nat} (hdie : die < 32) (d : Dev) {n : Nat} (hn : n < 64) {l : Nat × Nat × CellInfo} (h : n ≠ l.1) :
    (Dev.reportAt die d l).rdw .SWC_AUDIT_LEAK die n = d.rdw .SWC_AUDIT_LEAK die n := by
  have hlog := fun detail => (d.changes_logErr .SWC die 5 detail).rdw (r := .SWC_AUDIT_LEAK) (by decide) die n
  rw [Dev.reportAt_eq]
  dsimp only
  split
  · rw [Dev.rdw_wrw_ne _ _ hdie hdie (by omega) (by omega) (.inr (.inr h)), hlog]
  · exact hlog _

theorem Dev.rdw_reports_ne {die : Nat} (hdie : die < 32) {n : Nat} (hn : n < 64) (ls : List (Nat × Nat × CellInfo)) (d : Dev)
    (h : n ∉ ls.map Prod.fst) : (d.each ls (Dev.reportAt die)).rdw .SWC_AUDIT_LEAK die n = d.rdw .SWC_AUDIT_LEAK die n := by
  induction ls generalizing d with
  | nil => rfl
  | cons l ls ih =>
    simp only [List.map_cons, List.mem_cons, not_or] at h
    exact (ih _ h.2).trans (d.rdw_reportAt_ne hdie hn h.1)

/-- Reports under different places leave each its word, for no later one writes that place. -/
theorem Dev.rdw_reports {die : Nat} (hdie : die < 32) {n : Nat} (hn : n < 64) {l : Nat × CellInfo} (ls : List (Nat × Nat × CellInfo))
    (d : Dev) (hnodup : (ls.map Prod.fst).Nodup) (h : (n, l) ∈ ls) :
    (d.each ls (Dev.reportAt die)).rdw .SWC_AUDIT_LEAK die n = leakWord l := by
  induction ls generalizing d with
  | nil => cases h
  | cons x ls ih =>
    obtain ⟨hx, hnodup⟩ := List.nodup_cons.1 hnodup
    obtain rfl | h := List.mem_cons.1 h
    · exact (Dev.rdw_reports_ne hdie hn ls _ hx).trans (d.rdw_reportAt_same die hn l)
    · exact ih _ hnodup h

section Reported

variable (d : Dev) (die : Nat)

theorem Dev.changes_leaksReported : d.Changes [.regs, .sw, .ev] (.SWC_AUDIT_LEAK :: loggingRegs) (d.leaksReported die) :=
  (d.changes_sw _).weaken.andThen (.each (Dev.changes_reportAt die) _ _)

theorem Dev.leaksReported_sw : (d.leaksReported die).sw = d.walkedSw die :=
  (Dev.Changes.each (Dev.changes_reportAt die) ({ d with sw := d.walkedSw die } : Dev) _).sw

theorem Dev.rdw_leaksReported {die : Nat} (hdie : die < 32) {n : Nat} {l : Nat × CellInfo} (h : (d.leaks die)[n]? = some l) (hn : n < 64) :
    (d.leaksReported die).rdw .SWC_AUDIT_LEAK die n = leakWord l := by
  obtain ⟨hlt, -⟩ := List.getElem?_eq_some_iff.1 h
  refine Dev.rdw_reports hdie hn _ _ ?_ (List.mem_iff_getElem?.2 ⟨n, List.getElem?_zip_eq_some.2 ⟨?_, h⟩⟩)
  · rw [List.map_fst_zip (by simp)]
    exact List.nodup_range
  · exact List.getElem?_range hlt

theorem Dev.rd_count_leaksReported : (d.leaksReported die).rd F.SWC_ERR_COUNT_count die 0 =
    min 4294967295 (d.rd F.SWC_ERR_COUNT_count die 0 + (d.leaks die).length) := by
  refine ((logs_reportAt die).count_each _ _).trans ?_
  rw [List.length_zip, List.length_range, Nat.min_self]
  rfl

theorem Dev.latched_leaksReported (h : d.leaks die ≠ []) : Latched .SWC die 5 (.ofDev (d.leaksReported die)) := by
  refine (logs_reportAt die).latched_each (by decide) _ fun hnil => h ?_
  have := congrArg List.length hnil
  simpa [List.length_zip] using this

end Reported

-- The counts of a pass (R86) -----------------------------------------------------------------------------------------------------------

theorem Dev.changes_passCounted (d : Dev) (die n : Nat) : d.Changes [.regs] [.SWC_AUDIT_STAT] (d.passCounted die n) :=
  ((d.changes_wr F.SWC_AUDIT_STAT_leaks die 0 n).andThen (Dev.changes_wr _ F.SWC_AUDIT_STAT_passes die 0 _)).andThen
    (Dev.changes_wr _ F.SWC_AUDIT_STAT_busy die 0 0)

theorem Dev.rd_passCounted {die : Nat} (hdie : die < 32) (d : Dev) (n : Nat) :
    (d.passCounted die n).rd F.SWC_AUDIT_STAT_busy die 0 = 0 ∧
    (d.passCounted die n).rd F.SWC_AUDIT_STAT_leaks die 0 = n % (F.SWC_AUDIT_STAT_leaks.max + 1) ∧
    (d.passCounted die n).rd F.SWC_AUDIT_STAT_passes die 0 =
      (d.rd F.SWC_AUDIT_STAT_passes die 0 + 1) % (F.SWC_AUDIT_STAT_passes.max + 1) := by
  have hother := fun {e : Dev} {f g : Fld} {v : Nat} =>
    e.rd_wr_disj (f := f) (g := g) v hdie hdie (i := 0) (i' := 0) (by decide) (by decide)
  refine ⟨Dev.rd_wr_same _ _ _ _ _ (by decide), ?_, ?_⟩
  · rw [Dev.passCounted, hother (by decide) (by decide), Dev.incWrap, hother (by decide) (by decide), Dev.rd_wr_same _ _ _ _ _ (by decide)]
    rfl
  · rw [Dev.passCounted, hother (by decide) (by decide), Dev.incWrap, Dev.rd_wr_same _ _ _ _ _ (by decide), hother (by decide) (by decide)]
    rfl

-- The comparison of quiet mode (R86) ---------------------------------------------------------------------------------------------------

section Compared

variable (d : Dev) (die : Nat) (off : List Nat)

theorem Dev.changes_miscounts : d.Changes [.regs, .ev] loggingRegs (d.each off fun d q => d.logErr .SWC die 4 (swcDetail q 0)) :=
  .each (fun d _ => d.changes_logErr ..) d off

theorem Dev.changes_compared : d.Changes [.regs, .ev] (.SWC_AUDIT_STAT :: loggingRegs) (d.compared die off) :=
  (d.changes_miscounts die off).weaken.andThen (Dev.changes_wr ..)

theorem Dev.sameRegs_compared :
    SameRegs [.SWC_AUDIT_STAT] (d.each off fun d q => d.logErr .SWC die 4 (swcDetail q 0)).regs (d.compared die off).regs :=
  sameRegs_wr _ F.SWC_AUDIT_STAT_mismatch _ _ _

/-- The comparison leaves the counts of the pass. -/
theorem Dev.rd_compared_pass {die : Nat} (hdie : die < 32) {f : Fld} (hreg : f.reg = .SWC_AUDIT_STAT) (hf : f.hi < 40) :
    (d.compared die off).rd f die 0 = d.rd f die 0 := by
  rw [Dev.compared, Dev.rd_wr_disj _ _ hdie hdie (by decide) (by decide) (by omega) (.inl hf),
    (d.changes_miscounts die off).rd (by rw [hreg]; decide)]

theorem Dev.rd_compared_mismatch : (d.compared die off).rd F.SWC_AUDIT_STAT_mismatch die 0 = if off = [] then 0 else 1 := by
  rw [Dev.compared, Dev.rd_wr_same _ _ _ _ _ (by decide)]
  cases off <;> rfl

theorem Dev.rd_compared_count : (d.compared die off).rd F.SWC_ERR_COUNT_count die 0 =
    min 4294967295 (d.rd F.SWC_ERR_COUNT_count die 0 + off.length) :=
  (Dev.rd_of_sameRegs (d.sameRegs_compared die off) (by decide) die 0).trans
    ((logs_logErr .SWC die (by decide) fun q => swcDetail q 0).count_each d off)

theorem Dev.latched_compared {d : Dev} {die c : Nat} (hc : c < 64) (h : Latched .SWC die c (.ofDev d)) :
    Latched .SWC die c (.ofDev (d.compared die off)) :=
  latched_of_sameRegs (d.sameRegs_compared die off) (by decide) (by decide)
    ((logs_logErr .SWC die (by decide) fun q => swcDetail q 0).keeps_each hc h off)

theorem Dev.latched_compared_of_off {off : List Nat} (h : off ≠ []) : Latched .SWC die 4 (.ofDev (d.compared die off)) :=
  latched_of_sameRegs (d.sameRegs_compared die off) (by decide) (by decide)
    ((logs_logErr .SWC die (by decide) fun q => swcDetail q 0).latched_each (by decide) d h)

end Compared

-- The command --------------------------------------------------------------------------------------------------------------------------

/-- The device after the walk of a pass: its leaks reported and the pass counted. -/
def Dev.walked (d : Dev) (die : Nat) : Dev := (d.leaksReported die).passCounted die (d.leaks die).length

theorem Dev.changes_walked (d : Dev) (die : Nat) :
    d.Changes [.regs, .sw, .ev] (.SWC_AUDIT_STAT :: .SWC_AUDIT_LEAK :: loggingRegs) (d.walked die) :=
  (d.changes_leaksReported die).weaken.andThen (Dev.changes_passCounted ..)

theorem Dev.walked_sw (d : Dev) (die : Nat) : (d.walked die).sw = d.walkedSw die :=
  (Dev.changes_passCounted _ _ _).sw.trans (d.leaksReported_sw die)

/-- The walk, and in quiet mode the comparison. The model narrows the cells to the die's before it looks for leaks and owners; the two
lists above do both at once. -/
theorem Dev.auditEnd_of_busy {d : Dev} {die : Nat} (hbusy : d.on F.SWC_AUDIT_STAT_busy die 0 = true) (hruns : d.dieRuns die = true) :
    d.auditEnd die = if d.on F.SWC_AUDIT_CTRL_quiet die 0 then (d.walked die).compared die (d.miscounted die) else d.walked die := by
  have hleaks : (d.sw.cells.filter fun e => e.1 / 1048576 == die).filter
      (fun e => !(d.reached die).contains e.1 && !e.2.mark && e.2.suspect) = d.leaks die := by
    rw [List.filter_filter, Dev.leaks]
    refine List.filter_congr fun e _ => ?_
    rw [Bool.and_comm, Bool.and_assoc, Bool.and_assoc, Bool.and_assoc]
  have hoff : ((List.range 912).filter fun q => ((d.sw.cells.filter fun e => e.1 / 1048576 == die).filter
      fun e => !isCtl e.1 && e.2.owner == q).length != (d.walked die).rd F.SWC_REQ_STAT_in_use die q) = d.miscounted die := by
    refine List.filter_congr fun q _ => ?_
    rw [(d.changes_walked die).rd, List.filter_filter]
    congr 3
    funext e
    rw [Bool.and_comm, Bool.and_assoc]
  have hquiet := (d.changes_walked die).on (f := F.SWC_AUDIT_CTRL_quiet) (by decide) die 0
  unfold Dev.auditEnd
  rw [hbusy, hruns]
  simp only [Bool.not_true, Bool.or_false, Bool.false_eq_true, if_false, hleaks, beq_iff_eq]
  change (if (!(d.walked die).on F.SWC_AUDIT_CTRL_quiet die 0) = true then d.walked die else (d.walked die).compared die _) = _
  rw [hquiet]
  cases d.on F.SWC_AUDIT_CTRL_quiet die 0
  · rfl
  · exact congrArg ((d.walked die).compared die) hoff

theorem exec_auditPassEnd (die : DieId) (s : State) :
    exec (.auditPassEnd die) s = .next (s.after fun d => d.auditEnd die.val) := rfl

section End

variable {s : State} {die : DieId}

/-- What the end of a pass leaves, whether owners were compared or not; `n` is the number that the comparison found miscounted. -/
structure PassEnded (s : State) (die : Nat) (e : Dev) (n : Nat) : Prop where
  changes : s.dev.Changes [.regs, .sw, .ev] (.SWC_AUDIT_STAT :: .SWC_AUDIT_LEAK :: loggingRegs) e
  pass : ∀ f : Fld, f.reg = .SWC_AUDIT_STAT → f.hi < 40 → e.rd f die 0 = (s.dev.walked die).rd f die 0
  words : ∀ i, e.rdw .SWC_AUDIT_LEAK die i = (s.dev.leaksReported die).rdw .SWC_AUDIT_LEAK die i
  sw : e.sw = s.dev.walkedSw die
  count : e.rd F.SWC_ERR_COUNT_count die 0 = min 4294967295 (s.dev.rd F.SWC_ERR_COUNT_count die 0 + (s.dev.leaks die).length + n)
  leaks : s.dev.leaks die ≠ [] → Latched .SWC die 5 (.ofDev e)

theorem passEnded_walked (s : State) (die : Nat) : PassEnded s die (s.dev.walked die) 0 where
  changes := s.dev.changes_walked die
  pass _ _ _ := rfl
  words i := (Dev.changes_passCounted ..).rdw (by decide) die i
  sw := s.dev.walked_sw die
  count := ((Dev.changes_passCounted ..).rd (by decide) die 0).trans (s.dev.rd_count_leaksReported die)
  leaks h := latched_of_sameRegs (Dev.changes_passCounted ..).regs (by decide) (by decide) (s.dev.latched_leaksReported die h)

theorem PassEnded.compared {d : Dev} (h : PassEnded s die.val d 0) (off : List Nat) :
    PassEnded s die.val (d.compared die.val off) off.length where
  changes := h.changes.andThen (Dev.changes_compared ..)
  pass f hreg hf := (d.rd_compared_pass off (by omega) hreg hf).trans (h.pass f hreg hf)
  words i := ((d.changes_compared die.val off).rdw (by decide) die.val i).trans (h.words i)
  sw := (d.changes_compared die.val off).sw.trans h.sw
  count := by
    rw [Dev.rd_compared_count, h.count]
    omega
  leaks hl := Dev.latched_compared off (by decide) (h.leaks hl)

theorem auditPassEnd_finds (hbusy : s.dev.on F.SWC_AUDIT_STAT_busy die.val 0 = true) (hruns : s.dev.dieRuns die.val = true) :
    ∃ e, exec (.auditPassEnd die) s = .next (s.after fun _ => e) ∧
      PassEnded s die.val e (if s.dev.on F.SWC_AUDIT_CTRL_quiet die.val 0 then (s.dev.miscounted die.val).length else 0) ∧
      (s.dev.on F.SWC_AUDIT_CTRL_quiet die.val 0 = true →
        e.rd F.SWC_AUDIT_STAT_mismatch die.val 0 = (if s.dev.miscounted die.val = [] then 0 else 1) ∧
        (s.dev.miscounted die.val ≠ [] → Latched .SWC die.val 4 (.ofDev e))) := by
  have hwalked := passEnded_walked s die.val
  refine ⟨_, (exec_auditPassEnd die s).trans (congrArg _ (State.after_eq (Dev.auditEnd_of_busy hbusy hruns))), ?_⟩
  cases s.dev.on F.SWC_AUDIT_CTRL_quiet die.val 0 with
  | false => exact ⟨hwalked, fun h => Bool.noConfusion h⟩
  | true =>
    rw [if_pos rfl, if_pos rfl]
    exact ⟨hwalked.compared _, fun _ => ⟨Dev.rd_compared_mismatch .., fun h => Dev.latched_compared_of_off _ _ h⟩⟩

end End

-- The pinned mapping (R95) -------------------------------------------------------------------------------------------------------------

theorem exec_pinnedMappingSwitch (o : Origin) (b : BundleId) (s : State) :
    exec (.pinnedMappingSwitch o b) s = .next (s.after fun d => d.mappingSwitch o b.val) := rfl

theorem Dev.mappingSwitch_of_empty {d : Dev} {o : Origin} {b : Nat} (h : d.pairBusy o b = false) :
    d.mappingSwitch o b = { d with sw := { d.sw with oldMap := smErase d.sw.oldMap (rrKey o b) } } := by
  unfold Dev.mappingSwitch
  rw [h]
  rfl

/-- Settles O8: a pass starts with every mark gone, ends with its leaks reported and counted and, in quiet mode, the owners compared;
a pair with nothing queued drops its old mapping. -/
theorem auditPasses : Obligations.AuditPasses := by
  refine ⟨fun s die hbusy hruns => auditPassStart_unmarks hbusy hruns, fun s die hbusy hruns => ?_, fun s o b hempty => ?_⟩
  · obtain ⟨e, hexec, hended, hquiet⟩ := auditPassEnd_finds hbusy hruns
    obtain ⟨hbusy', hleaks, hpasses⟩ :=
      (s.dev.leaksReported die.val).rd_passCounted (die := die.val) (by omega) (s.dev.leaks die.val).length
    rw [(s.dev.changes_leaksReported die.val).rd] at hpasses
    have hpass := hended.pass
    refine ⟨_, hexec, ?_, (hpass F.SWC_AUDIT_STAT_leaks rfl (by decide)).trans hleaks,
      (hpass F.SWC_AUDIT_STAT_passes rfl (by decide)).trans hpasses, ?_, hended.sw, hended.count, hended.leaks, hquiet,
      hended.changes.regsKeptBut, hended.changes.keepsBut_of_subset⟩
    · rw [Dev.on, State.rd_after, hpass _ rfl (by decide)]
      exact beq_false_of_ne (by rw [Dev.walked, hbusy']; decide)
    · exact fun n l hl hn => (hended.words n).trans (s.dev.rdw_leaksReported (by omega) hl hn)
  · have hsw := s.dev.changes_sw { s.dev.sw with oldMap := smErase s.dev.sw.oldMap (rrKey o b.val) }
    rw [exec_pinnedMappingSwitch, State.after_eq (Dev.mappingSwitch_of_empty hempty)]
    exact ⟨_, rfl, rfl, hsw.keepsBut_of_subset⟩

end Sys2Proof.Machine
end

section
/-! PROOF. What a flush changes (R74), and which records a core die raises without touching a register (R346, R411). -/

namespace Sys2Proof.Machine

set_option Elab.async false

-- The copies of chunks (R186) ----------------------------------------------------------------------------------------------------------

/-- The registers that the end of a chunk writes: the units that its record gives back. -/
def chunkRegs : List Reg := [.RED_CELL_STAT, .RED_ARRAY_STAT, .SYNC_BLK_STAT, .SYNC_SPILL_STAT]

theorem SameRegs.fldPut {l : List Reg} {a m : RegFile} (h : SameRegs l a m) {f : Fld} (hf : f.reg ∈ l) (u i v : Nat) :
    SameRegs l a (fldPut m f u i v) :=
  h.trans ((sameRegs_fldPut m f u i v).weaken (by simpa using hf))

theorem SameRegs.ite {l : List Reg} {a m m' : RegFile} {c : Prop} [Decidable c] (h : SameRegs l a m) (h' : SameRegs l a m') :
    SameRegs l a (if c then m else m') := by
  split
  · exact h
  · exact h'

theorem Dev.changes_releaseUnits (d : Dev) (r : ChunkRec) : d.Changes [.regs] chunkRegs (d.releaseUnits r) := by
  have hunits : SameRegs chunkRegs d.regs (r.units.foldl (fun m u => freeUnits m r.key.die r.array u) d.regs) :=
    SameRegs.foldl (fun m u => ((SameRegs.rfl' chunkRegs m).fldPut (by decide) _ _ _).fldPut (by decide) _ _ _) r.units d.regs
  unfold Dev.releaseUnits
  extract_lets die n units chunks window windowSpill spill resident pending
  have hchunks : SameRegs chunkRegs d.regs chunks := .ite hunits (hunits.fldPut (by decide) _ _ _)
  have hspill : SameRegs chunkRegs d.regs spill :=
    ((hchunks.fldPut (by decide) _ _ _).fldPut (by decide) _ _ _).fldPut (by decide) _ _ _
  have hresident : SameRegs chunkRegs d.regs resident := .ite (hspill.fldPut (by decide) _ _ _) hspill
  exact d.changes_regs (.ite (hresident.fldPut (by decide) _ _ _) hresident)

theorem Dev.changes_putChunk (d : Dev) (r : ChunkRec) : d.Changes [.sy] [] (d.putChunk r) := d.changes_sy _

theorem Dev.changes_closeChunk (d : Dev) (r : ChunkRec) : d.Changes [.regs, .sy] chunkRegs (d.closeChunk r) :=
  (d.changes_releaseUnits r).weaken.andThen (Dev.changes_sy _ _)

theorem Dev.changes_settleChunk (d : Dev) (k : ChunkKey) : d.Changes [.regs, .sy] chunkRegs (d.settleChunk k) := by
  unfold Dev.settleChunk
  split
  · exact .ite (d.changes_closeChunk _) (.rfl' _ _ d)
  · exact .rfl' _ _ d

theorem Dev.changes_copyDone (d : Dev) (k : Option ChunkKey) (left : Bool) : d.Changes [.regs, .sy] chunkRegs (d.copyDone k left) := by
  unfold Dev.copyDone
  split
  · exact .rfl' _ _ d
  · split
    · exact .rfl' _ _ d
    · exact (d.changes_putChunk _).weaken.andThen (Dev.changes_settleChunk _ _)

-- The frames that leave a queue unsent (R74) -------------------------------------------------------------------------------------------

/-- The registers that a flush writes. -/
def flushRegs : List Reg := chunkRegs ++ passRegs

theorem Dev.unrefCells_queue (d : Dev) (ks : List Nat) (port cls : Option Nat) :
    (d.each ks fun d k => d.unrefCell k port cls).sw.queue = d.sw.queue := by
  refine Dev.each_same (·.sw.queue) (fun d k => ?_) d ks
  obtain ⟨_, _, _, h⟩ := d.unrefCell_sw k port cls
  rw [h]

theorem Dev.recordDone_queue (d : Dev) (die id : Nat) (port cls : Option Nat) : (d.recordDone die id port cls).sw.queue = d.sw.queue := by
  obtain h | ⟨r, h⟩ | ⟨mrecs, h⟩ := d.recordDone_cases die id port cls <;> rw [h]
  · rw [(d.changes_logErr ..).sw]
  · rw [Dev.unrefCells_queue, (Dev.changes_unrecord _ r).sw]

theorem Dev.changes_releaseCells (d : Dev) (x : Desc) : d.Changes [.regs, .sw, .ev] passRegs (d.releaseCells x) := by
  unfold Dev.releaseCells
  split
  · exact d.changes_recordDone ..
  · exact d.changes_unrefCells ..

/-- The cells of a frame are given back without a change of any queue or transmission. -/
theorem Dev.releaseCells_frames (d : Dev) (x : Desc) :
    (d.releaseCells x).sw.queue = d.sw.queue ∧ (d.releaseCells x).sw.tx = d.sw.tx := by
  unfold Dev.releaseCells
  split
  · exact ⟨d.recordDone_queue .., d.recordDone_tx ..⟩
  · exact ⟨d.unrefCells_queue .., d.unrefCells_tx ..⟩

theorem Dev.changes_discard (d : Dev) (x : Desc) (reason : Nat) : d.Changes [.regs, .sw, .sy, .ev] flushRegs (d.discard x reason) :=
  (((d.changes_dropCnt .SWC x.die reason x.dest.port? (some x.cls)).weaken.andThen (Dev.changes_releaseCells _ x)).andThen
    (Dev.changes_admFall _ x)).andThen (Dev.changes_copyDone _ x.result false)

theorem Dev.discard_frames (d : Dev) (x : Desc) (reason : Nat) :
    (d.discard x reason).sw.queue = d.sw.queue ∧ (d.discard x reason).sw.tx = d.sw.tx := by
  have h := (d.dropCnt .SWC x.die reason x.dest.port? (some x.cls)).releaseCells_frames x
  rwa [(d.changes_dropCnt ..).sw, ← (Dev.changes_admFall (Dev.releaseCells _ x) x).sw,
    ← (Dev.changes_copyDone (Dev.admFall _ x) x.result false).sw] at h

theorem Dev.changes_flush (d : Dev) (pick : Desc → Bool) (reason : Nat) :
    d.Changes [.regs, .sw, .sy, .ev, .tm] flushRegs (d.flush pick reason) :=
  ((d.changes_sw _).weaken.andThen (.each (fun d x => d.changes_discard x reason) _ _)).andThen (Dev.changes_satSweep _)

/-- A flush leaves the frames in the queue that it does not pick, and every transmission. -/
theorem Dev.flush_frames (d : Dev) (pick : Desc → Bool) (reason : Nat) :
    (d.flush pick reason).sw.queue = d.sw.queue.filter (fun x => !pick x) ∧ (d.flush pick reason).sw.tx = d.sw.tx := by
  have hqueue := fun e : Dev => Dev.each_same (·.sw.queue) (fun d x => (d.discard_frames x reason).1) e (d.sw.queue.filter pick)
  have htx := fun e : Dev => Dev.each_same (·.sw.tx) (fun d x => (d.discard_frames x reason).2) e (d.sw.queue.filter pick)
  exact ⟨hqueue _, htx _⟩

theorem Dev.flush_of_none {d : Dev} {pick : Desc → Bool} (h : ∀ x ∈ d.sw.queue, pick x = false) (reason : Nat) :
    d.flush pick reason = d.satSweep := by
  have hgone : d.sw.queue.filter pick = [] := List.filter_eq_nil_iff.2 fun x hx => by simp [h x hx]
  have hkept : d.sw.queue.filter (fun x => !pick x) = d.sw.queue := List.filter_eq_self.2 fun x hx => by simp [h x hx]
  unfold Dev.flush
  rw [hgone, hkept]
  rfl

-- A port's queues (R74) ----------------------------------------------------------------------------------------------------------------

/-- Nothing is queued toward a port. -/
def Dev.NoneQueued (d : Dev) (port : Nat) : Prop := ∀ x ∈ d.sw.queue, x.dest ≠ .port port

theorem Dev.noneQueued_of_queue {a b : Dev} (h : b.sw.queue = a.sw.queue) {port : Nat} (ha : a.NoneQueued port) : b.NoneQueued port := by
  simpa only [Dev.NoneQueued, h] using ha

theorem Dev.noneQueued_flush (d : Dev) (port reason : Nat) : (d.flush (fun x => x.dest == .port port) reason).NoneQueued port := by
  intro x hx
  rw [(d.flush_frames ..).1, List.mem_filter] at hx
  simpa using hx.2

theorem Dev.NoneQueued.flush {d : Dev} {port : Nat} (h : d.NoneQueued port) (reason : Nat) :
    d.flush (fun x => x.dest == .port port) reason = d.satSweep :=
  Dev.flush_of_none (fun x hx => beq_false_of_ne (h x hx)) reason

/-- The end of the transmission at a port whose frame is discarded with cells `rest` still held (R74). -/
def Dev.cutTx (d : Dev) (port : Nat) (t : Tx) (rest : List Nat) (reason : Nat) : Dev :=
  ((({ d with sw := { d.sw with tx := smErase d.sw.tx port } } : Dev).wr F.SWC_STAGE_STAT_in_use (laneDie port) 0
    (d.rd F.SWC_STAGE_STAT_in_use (laneDie port) 0 - t.staged)).discard { t.desc with cells := rest } reason).satSweep

/-- The flush of a port ends with its queues flushed, or with the transmission there cut too. -/
theorem Dev.flushPort_cases (d : Dev) (port reason : Nat) :
    let e := d.flush (fun x => x.dest == .port port) reason
    d.flushPort port reason = e ∧ smFind d.sw.tx port = none ∨
    ∃ t rest, d.flushPort port reason = e.cutTx port t rest reason ∧ smFind d.sw.tx port = some t := by
  intro e
  rw [← (d.flush_frames (fun x => x.dest == .port port) reason).2]
  unfold Dev.flushPort
  dsimp only
  split
  next h => exact .inl ⟨rfl, h⟩
  next t h => exact .inr ⟨t, _, rfl, h⟩

theorem Dev.changes_cutTx (d : Dev) (port : Nat) (t : Tx) (rest : List Nat) (reason : Nat) :
    d.Changes [.regs, .sw, .sy, .ev, .tm] flushRegs (d.cutTx port t rest reason) :=
  (((d.changes_sw _).weaken.andThen (Dev.changes_wr _ F.SWC_STAGE_STAT_in_use _ _ _)).andThen (Dev.changes_discard ..)).andThen
    (Dev.changes_satSweep _)

theorem Dev.cutTx_frames (d : Dev) (port : Nat) (t : Tx) (rest : List Nat) (reason : Nat) :
    (d.cutTx port t rest reason).sw.queue = d.sw.queue ∧ (d.cutTx port t rest reason).sw.tx = smErase d.sw.tx port :=
  Dev.discard_frames _ { t.desc with cells := rest } reason

theorem Dev.changes_flushPort (d : Dev) (port reason : Nat) :
    d.Changes [.regs, .sw, .sy, .ev, .tm] flushRegs (d.flushPort port reason) := by
  have hflush := d.changes_flush (fun x => x.dest == .port port) reason
  obtain ⟨h, -⟩ | ⟨t, rest, h, -⟩ := d.flushPort_cases port reason <;> rw [h]
  · exact hflush
  · exact hflush.trans (Dev.changes_cutTx ..)

/-- After its flush nothing waits for a port or is in transmission at it. -/
theorem Dev.flushPort_empties (d : Dev) (port reason : Nat) :
    (d.flushPort port reason).NoneQueued port ∧ smFind (d.flushPort port reason).sw.tx port = none := by
  have hqueue := d.noneQueued_flush port reason
  obtain ⟨h, htx⟩ | ⟨t, rest, h, -⟩ := d.flushPort_cases port reason <;> rw [h]
  · exact ⟨hqueue, (d.flush_frames (fun x => x.dest == .port port) reason).2 ▸ htx⟩
  · obtain ⟨hkept, htx⟩ := Dev.cutTx_frames (d.flush (fun x => x.dest == .port port) reason) port t rest reason
    exact ⟨Dev.noneQueued_of_queue hkept hqueue, htx ▸ smFind_smErase_same _ _⟩

theorem Dev.flushPort_of_empty {d : Dev} {port : Nat} (hqueue : d.NoneQueued port) (htx : smFind d.sw.tx port = none) (reason : Nat) :
    d.flushPort port reason = d.satSweep := by
  obtain ⟨h, -⟩ | ⟨t, rest, -, h⟩ := d.flushPort_cases port reason
  · rw [h, hqueue.flush]
  · rw [htx] at h
    cases h

-- Records of a core die (R346, R411) ---------------------------------------------------------------------------------------------------

/-- A core die that has no room for a record loses it without counting the loss in a register. -/
theorem Dev.regs_holdRec_core (d : Dev) {unit : Nat} (hu : unit < 2) (isErr : Bool) (r : EvRec) :
    (d.holdRec unit isErr r).regs = d.regs := by
  unfold Dev.holdRec
  rw [if_pos hu]
  split <;> rfl

theorem Dev.changes_raiseRec_core (d : Dev) {unit : Nat} (hu : unit < 2) (isErr : Bool) (e0 e2 e3 : Word) :
    d.Changes [.ev] [] (d.raiseRec unit isErr e0 e2 e3) := by
  have hregs : (d.raiseRec unit isErr e0 e2 e3).regs = d.regs := by
    have hholder : (if d.hubRuns then unit else d.holder unit) = unit := by
      rw [Dev.holder, if_pos (show unit < 22 by omega), ite_self]
    unfold Dev.raiseRec
    simp only [hholder]
    split
    · rfl
    · exact d.regs_holdRec_core hu ..
  refine ⟨fun p hp => ?_, fun r u i _ => by rw [hregs]⟩
  cases p with
  | ev => exact absurd hp (by decide)
  | regs => exact hregs
  | _ => simp [Part.same]

theorem laneDie_core (port : LaneId) : laneDie port.val < 2 := by
  have := port.isLt
  simp only [laneDie]
  omega

theorem Dev.changes_event_LANE (d : Dev) (port : LaneId) (code : Nat) (e2 e3 : Word) :
    d.Changes [.ev] [] (d.event .LANE (laneDie port.val) code e2 e3) :=
  d.changes_raiseRec_core (unit := laneDie port.val) (laneDie_core port) ..

theorem Dev.changes_pwr (d : Dev) (f : Fld) (lane v : Nat) : d.Changes [.regs] [f.reg] (d.pwr f lane v) := d.changes_wr ..

/-- The records of a port's reachability touch no register but the count of those that they do not list. -/
theorem Dev.reachRecords_core (d : Dev) (port : LaneId) (reach byLink : Bool) : ∃ (e : Dev) (n : Nat), d.Changes [.ev] [] e ∧
    d.reachRecords port.val reach byLink = e.pwr F.LANE_LIVE_unlisted port.val n :=
  ⟨_, _, .each (fun d _ => d.changes_event_LANE port ..) d _, rfl⟩

theorem Dev.changes_reachRecords (d : Dev) (port : LaneId) (reach byLink : Bool) :
    d.Changes [.regs, .ev] [.LANE_LIVE] (d.reachRecords port.val reach byLink) := by
  obtain ⟨e, n, he, h⟩ := d.reachRecords_core port reach byLink
  rw [h]
  exact he.weaken.andThen (e.changes_pwr F.LANE_LIVE_unlisted _ _)

theorem Dev.prd_reachRecords (d : Dev) (port : LaneId) (reach byLink : Bool) {f : Fld} (hf : f.hi < 64)
    (h : f.hi < 32 ∨ 39 < f.lo) : (d.reachRecords port.val reach byLink).prd f port.val = d.prd f port.val := by
  obtain ⟨e, n, he, heq⟩ := d.reachRecords_core port reach byLink
  rw [heq, Dev.prd_pwr_disj _ _ _ hf h, Dev.prd_of_sameRegs he.regs (by simp)]

end Sys2Proof.Machine
end

section
/-! PROOF. A link that goes down and a port that liveness removes (O19). -/

namespace Sys2Proof.Machine

set_option Elab.async false

-- What the link layer of a port forgets (R108, R284) -----------------------------------------------------------------------------------

/-- The device without the blocks, link-local frames, heartbeats, credit totals and streams of a port. -/
def Dev.linkForgotten (d : Dev) (port : Nat) : Dev :=
  let l := d.ln
  let drop := fun (m : SMap Nat) => m.filter fun e => !((List.range 8).map (pcKey port)).contains e.1
  ({ d with
    ln := { l with
      tx := smErase l.tx port, rx := smErase l.rx port, hb := smErase l.hb port, ctl := l.ctl.filter fun c => c.port != port,
      partnerAdv := drop l.partnerAdv, ownAdv := smErase l.ownAdv port, crTotal := drop l.crTotal, crBase := drop l.crBase }
    sy := { d.sy with lichenOut := d.sy.lichenOut.filter fun x => x.1 != port } } : Dev).endWave port

/-- The device with the credits of a port at 0 (R108). -/
def Dev.creditsDropped (d : Dev) (port : Nat) : Dev :=
  d.each (List.range 8) fun d c => d.wrw .TM_CRD_STAT (laneDie port) (pcKey (port % 512) c) 0

/-- The device with no block locked on the lanes of a port. -/
def Dev.lanesUnlocked (d : Dev) (port : Nat) : Dev := d.each (d.lanesOf port) fun d n => d.pwr F.LANE_STAT_block n 0

/-- The device with a port shown down, or held where hold is set. -/
def Dev.portShownDown (d : Dev) (port : Nat) : Dev :=
  ((d.pwr F.LANE_PORT_STAT_rx_idle port 0).pwr F.LANE_PORT_STAT_next_seq port 0).pwr F.LANE_PORT_STAT_state port
    (if d.prd F.LANE_PORT_CTRL_hold port = 1 then 4 else 0)

theorem Dev.clearLink_eq (d : Dev) (port : Nat) :
    d.clearLink port = (((d.linkForgotten port).creditsDropped port).lanesUnlocked port).portShownDown port := rfl

/-- The link layer holds nothing of a port: no block to send again or half received, no heartbeat, no link-local frame. -/
structure LinkState.Forgets (l : LinkState) (port : Nat) : Prop where
  tx : smFind l.tx port = none
  rx : smFind l.rx port = none
  hb : smFind l.hb port = none
  ctl : ∀ c ∈ l.ctl, c.port ≠ port

theorem Dev.forgets_linkForgotten (d : Dev) (port : Nat) : (d.linkForgotten port).ln.Forgets port :=
  ⟨smFind_smErase_same _ _, smFind_smErase_same _ _, smFind_smErase_same _ _, fun c hc => by
    simpa using (List.mem_filter.1 (show c ∈ d.ln.ctl.filter fun c => c.port != port from hc)).2⟩

theorem Dev.changes_linkForgotten (d : Dev) (port : Nat) : d.Changes [.ln, .sy] [] (d.linkForgotten port) :=
  ((d.changes_ln _).weaken.andThen (Dev.changes_sy _ _)).andThen (Dev.changes_ln _ _)

theorem Dev.changes_creditsDropped (d : Dev) (port : Nat) : d.Changes [.regs] [.TM_CRD_STAT] (d.creditsDropped port) :=
  .each (fun d _ => d.changes_wrw ..) d _

theorem Dev.changes_lanesUnlocked (d : Dev) (port : Nat) : d.Changes [.regs] [.LANE_STAT] (d.lanesUnlocked port) :=
  .each (fun d n => d.changes_pwr F.LANE_STAT_block n 0) d _

theorem Dev.changes_portShownDown (d : Dev) (port : Nat) : d.Changes [.regs] [.LANE_PORT_STAT] (d.portShownDown port) :=
  ((d.changes_pwr F.LANE_PORT_STAT_rx_idle port 0).andThen (Dev.changes_pwr _ F.LANE_PORT_STAT_next_seq port 0)).andThen
    (Dev.changes_pwr _ F.LANE_PORT_STAT_state port _)

theorem Dev.changes_clearLink (d : Dev) (port : Nat) :
    d.Changes [.regs, .ln, .sy] [.TM_CRD_STAT, .LANE_STAT, .LANE_PORT_STAT] (d.clearLink port) :=
  (((d.changes_linkForgotten port).weaken.andThen (Dev.changes_creditsDropped _ port)).andThen
    (Dev.changes_lanesUnlocked _ port)).andThen (Dev.changes_portShownDown _ port)

theorem Dev.forgets_clearLink (d : Dev) (port : Nat) : (d.clearLink port).ln.Forgets port := by
  rw [Dev.clearLink_eq, (Dev.changes_portShownDown ..).ln, (Dev.changes_lanesUnlocked ..).ln, (Dev.changes_creditsDropped ..).ln]
  exact d.forgets_linkForgotten port

/-- A word that is written again with what it holds, or beside another, stays. -/
theorem Dev.rdw_wrw_of_eq {d : Dev} {r : Reg} {u j : Nat} {w : Word} (h : d.rdw r u j = w) (i : Nat) : (d.wrw r u i w).rdw r u j = w := by
  by_cases hk : regKey r u j = regKey r u i
  · simp only [Dev.rdw, Dev.wrw, rget, rset, hk, smGet_smSet_same]
  · exact (smGet_smSet_ne d.regs _ _ _ hk).trans h

theorem Dev.rdw_writes_of_eq {d : Dev} {r : Reg} {u j : Nat} {w : Word} (h : d.rdw r u j = w) (k : Nat → Nat) (cs : List Nat) :
    (d.each cs fun d c => d.wrw r u (k c) w).rdw r u j = w :=
  List.foldlRecOn (motive := fun e : Dev => e.rdw r u j = w) cs _ h fun _ he c _ => Dev.rdw_wrw_of_eq he (k c)

theorem Dev.rdw_writes {c : Nat} {cs : List Nat} (hc : c ∈ cs) (d : Dev) (r : Reg) (u : Nat) (k : Nat → Nat) (w : Word) :
    (d.each cs fun d c => d.wrw r u (k c) w).rdw r u (k c) = w := by
  obtain ⟨before, after, rfl⟩ := List.append_of_mem hc
  rw [Dev.each, List.foldl_append]
  exact Dev.rdw_writes_of_eq (Dev.rdw_wrw_same _ _ _ _ _) k after

theorem Dev.rdw_clearLink_credits (d : Dev) (port : Nat) {c : Nat} (hc : c < 8) :
    (d.clearLink port).rdw .TM_CRD_STAT (laneDie port) (pcKey (port % 512) c) = 0 := by
  rw [Dev.clearLink_eq, (Dev.changes_portShownDown ..).rdw, (Dev.changes_lanesUnlocked ..).rdw]
  exact Dev.rdw_writes (List.mem_range.2 hc) _ _ _ (pcKey (port % 512)) 0

theorem Dev.portState_portShownDown (d : Dev) (port : Nat) :
    (d.portShownDown port).portState port = if d.prd F.LANE_PORT_CTRL_hold port = 1 then 4 else 0 := by
  refine (Dev.prd_pwr_same _ F.LANE_PORT_STAT_state port _ (by decide)).trans ?_
  split <;> rfl

theorem Dev.portState_clearLink (d : Dev) (port : Nat) :
    (d.clearLink port).portState port = if d.prd F.LANE_PORT_CTRL_hold port = 1 then 4 else 0 := by
  have hbefore := ((d.changes_linkForgotten port).weaken (ps' := [.regs, .ln, .sy]) (rs' := [.TM_CRD_STAT, .LANE_STAT])).andThen
    (Dev.changes_creditsDropped _ port) |>.andThen (Dev.changes_lanesUnlocked _ port)
  have hhold := Dev.prd_of_sameRegs hbefore.regs (f := F.LANE_PORT_CTRL_hold) (by decide) port
  rw [Dev.clearLink_eq, Dev.portState_portShownDown, hhold]

-- A link-down (R74, R284, R396) --------------------------------------------------------------------------------------------------------

/-- The device with a link-down of a port counted, and its record raised unless another stands for it (R251). -/
def Dev.downCounted (d : Dev) (port : Nat) (raise : Bool) : Dev := if raise then d.linkEvent port 1 else d.portEvt port 1

/-- The device with the liveness of a port cleared. -/
def Dev.liveCleared (d : Dev) (port : Nat) : Dev :=
  ((d.pwr F.LANE_LIVE_removed port 0).pwr F.LANE_LIVE_misses port 0).pwr F.LANE_LIVE_streak port 0

/-- What follows the flush of a port whose link went down. -/
def Dev.endsLost (d : Dev) (port : Nat) : Dev := (((d.liveCleared port).reachRecords port false true).subRetrain port).dropDeadMaps

theorem Dev.linkDown_of_up {d : Dev} {port : Nat} (hport : d.isPort port = true) (hup : d.linkUp port = true) (raise : Bool) :
    d.linkDown port raise = (((d.clearLink port).downCounted port raise).flushPort port 5).endsLost port := by
  simp only [Dev.linkDown, Dev.endsLost, Dev.liveCleared, Dev.downCounted, hport, hup, Bool.not_true, Bool.false_eq_true, if_false]

theorem Dev.portEvt_eq (d : Dev) (port k : Nat) : d.portEvt port k =
    (d.inc F.LANE_EVT_CNT_events (laneDie port) k 1).cntPC ⟨laneDie port, 5⟩ (0x200 + k) (some port) none 1 := rfl

theorem Dev.changes_portEvt (d : Dev) (port k : Nat) : d.Changes [.regs] [.LANE_EVT_CNT, .CNT_VAL, .CNT_CTRL] (d.portEvt port k) :=
  (d.changes_inc F.LANE_EVT_CNT_events _ k 1).weaken.andThen (Dev.changes_cntPC ..)

/-- A link-down is counted once, and its record touches no register. -/
theorem Dev.downCounted_eq (d : Dev) (port : LaneId) (raise : Bool) :
    (d.portEvt port.val 1).Changes [.ev] [] (d.downCounted port.val raise) := by
  cases raise with
  | false => exact .rfl' _ _ _
  | true => exact (d.portEvt port.val 1).changes_raiseRec_core (unit := laneDie port.val) (laneDie_core port) ..

theorem Dev.changes_downCounted (d : Dev) (port : LaneId) (raise : Bool) :
    d.Changes [.regs, .ev] [.LANE_EVT_CNT, .CNT_VAL, .CNT_CTRL] (d.downCounted port.val raise) :=
  (d.changes_portEvt port.val 1).weaken.andThen (d.downCounted_eq port raise)

theorem Dev.rd_downCounted (d : Dev) (port : LaneId) (raise : Bool) :
    (d.downCounted port.val raise).rd F.LANE_EVT_CNT_events (laneDie port.val) 1 =
      Nat.min F.LANE_EVT_CNT_events.max (d.rd F.LANE_EVT_CNT_events (laneDie port.val) 1 + 1) := by
  rw [(d.downCounted_eq port raise).rd, Dev.portEvt_eq, (Dev.changes_cntPC ..).rd, Dev.rd_inc_same _ _ _ _ _ (by decide)]

theorem Dev.changes_liveCleared (d : Dev) (port : Nat) : d.Changes [.regs] [.LANE_LIVE] (d.liveCleared port) :=
  ((d.changes_pwr F.LANE_LIVE_removed port 0).andThen (Dev.changes_pwr _ F.LANE_LIVE_misses port 0)).andThen
    (Dev.changes_pwr _ F.LANE_LIVE_streak port 0)

theorem Dev.prd_liveCleared (d : Dev) (port : LaneId) : (d.liveCleared port.val).prd F.LANE_LIVE_removed port.val = 0 ∧
    (d.liveCleared port.val).prd F.LANE_LIVE_misses port.val = 0 ∧ (d.liveCleared port.val).prd F.LANE_LIVE_streak port.val = 0 := by
  have hother := fun {e : Dev} {f g : Fld} {v : Nat} => e.prd_pwr_disj (f := f) (g := g) port v
  refine ⟨?_, ?_, Dev.prd_pwr_same _ _ _ _ (by decide)⟩
  · rw [Dev.liveCleared, hother (by decide) (by decide), hother (by decide) (by decide)]
    exact Dev.prd_pwr_same _ _ _ _ (by decide)
  · rw [Dev.liveCleared, hother (by decide) (by decide)]
    exact Dev.prd_pwr_same _ _ _ _ (by decide)

-- Substitutions over a lost link (R233) ------------------------------------------------------------------------------------------------

theorem Dev.changes_oe (d : Dev) (x : OeState) : d.Changes [.oe] [] { d with oe := x } :=
  Dev.changes_only .oe (fun q _ => by cases q <;> trivial) (SameRegs.rfl' _ _)

/-- The registers that the end of a substitution writes: those of the engine, and of a record that it loses. -/
def subRegs : List Reg := [.OE_SUB_STAT, .OE_STATE, .OE_CMD] ++ lossRegs

/-- The device `b` is `a` after a step of a substitution at an engine. -/
abbrev Dev.Substitutes (a b : Dev) : Prop := a.Changes [.regs, .ev, .oe] subRegs b

theorem Dev.substitutes_setFib (d : Dev) (fib v : Nat) : d.Substitutes (d.setFib fib v) := (d.changes_wrw ..).weaken

theorem Dev.changes_raiseRec (d : Dev) (unit : Nat) (isErr : Bool) (e0 e2 e3 : Word) :
    d.Changes [.regs, .ev] lossRegs (d.raiseRec unit isErr e0 e2 e3) := by
  refine ⟨fun p hp => ?_, sameRegs_raiseRec d unit isErr e0 e2 e3⟩
  cases p with
  | regs | ev => exact absurd hp (by decide)
  | _ => simp [Part.same]

theorem Dev.substitutes_oeEvent (d : Dev) (e k : Nat) (detail : Word) : d.Substitutes (d.oeEvent e k detail) :=
  ((d.changes_inc F.OE_EVT_CNT_events e k 1).weaken.andThen (Dev.changes_cntPC _ _ _ none none 1)).andThen (Dev.changes_raiseRec ..)

theorem Dev.substitutes_cmdEnd (d : Dev) (e : Nat) (ops : List Nat) : d.Substitutes (d.cmdEnd e ops) :=
  .ite ((d.changes_oe _).weaken.andThen (Dev.changes_wr _ F.OE_CMD_busy e 0 0)) (.rfl' _ _ d)

theorem Dev.substitutes_subEnd (d : Dev) (e : Nat) : d.Substitutes (d.subEnd e) := by
  have hcmd := fun v => ((d.changes_wr F.OE_STATE_sub e 0 v).weaken (ps' := [.regs, .ev, .oe]) (rs' := subRegs)).trans
    (Dev.substitutes_cmdEnd _ e [1, 2])
  have hfibs := fun d : Dev => Dev.Changes.each (fun (d : Dev) f => d.substitutes_setFib f 0) d (fibresOf e)
  unfold Dev.subEnd
  dsimp only
  refine .ite ((hcmd _).trans (Dev.substitutes_oeEvent ..)) (.ite (.trans ?_ (Dev.substitutes_oeEvent ..)) (.rfl' _ _ d))
  exact .ite (hcmd _) ((hcmd _).trans (hfibs _))

theorem Dev.substitutes_subRetrain (d : Dev) (port : Nat) : d.Substitutes (d.subRetrain port) := by
  have hfar : ∀ e : Dev, e.Substitutes (e.setFar (port / 8) none) := fun e => (e.changes_oe _).weaken
  unfold Dev.subRetrain
  extract_lets f mine ended
  have hended : d.Substitutes ended := by
    simp only [ended]
    split
    · refine .ite (.trans (.trans ?_ (Dev.substitutes_setFib ..)) (Dev.substitutes_subEnd ..)) (.rfl' _ _ d)
      exact ((d.changes_oe _).weaken.andThen (Dev.changes_oe _ _))
    · exact .rfl' _ _ d
  split
  · exact .ite (hended.trans (hfar _)) hended
  · exact hended

-- The end of a link-down ---------------------------------------------------------------------------------------------------------------

theorem Dev.changes_dropDeadMaps (d : Dev) : d.Changes [.sw] [] d.dropDeadMaps := d.changes_sw _

theorem Dev.dropDeadMaps_frames (d : Dev) : d.dropDeadMaps.sw.queue = d.sw.queue ∧ d.dropDeadMaps.sw.tx = d.sw.tx := ⟨rfl, rfl⟩

theorem Dev.changes_endsLost (d : Dev) (port : LaneId) :
    d.Changes [.regs, .ev, .oe, .sw] (.LANE_LIVE :: subRegs) (d.endsLost port.val) :=
  (((d.changes_liveCleared port.val).weaken.andThen (Dev.changes_reachRecords _ port false true)).andThen
    (Dev.substitutes_subRetrain _ port.val)).andThen (Dev.changes_dropDeadMaps _)

theorem Dev.endsLost_frames (d : Dev) (port : LaneId) :
    (d.endsLost port.val).sw.queue = d.sw.queue ∧ (d.endsLost port.val).sw.tx = d.sw.tx := by
  have hsw : (((d.liveCleared port.val).reachRecords port.val false true).subRetrain port.val).sw = d.sw := by
    rw [(Dev.substitutes_subRetrain ..).sw, (Dev.changes_reachRecords ..).sw, (Dev.changes_liveCleared ..).sw]
  rw [← hsw]
  exact Dev.dropDeadMaps_frames _

theorem Dev.prd_endsLost (d : Dev) (port : LaneId) : (d.endsLost port.val).prd F.LANE_LIVE_removed port.val = 0 ∧
    (d.endsLost port.val).prd F.LANE_LIVE_misses port.val = 0 ∧ (d.endsLost port.val).prd F.LANE_LIVE_streak port.val = 0 := by
  have hkept : ∀ {f : Fld}, f.reg = .LANE_LIVE → f.hi < 64 → 39 < f.lo →
      (d.endsLost port.val).prd f port.val = (d.liveCleared port.val).prd f port.val := fun {f} hreg hhi hlo => by
    rw [Dev.endsLost, Dev.prd_of_sameRegs (Dev.changes_dropDeadMaps _).regs (by simp),
      Dev.prd_of_sameRegs (Dev.substitutes_subRetrain _ port.val).regs (by rw [hreg]; decide),
      Dev.prd_reachRecords _ port _ _ hhi (.inr hlo)]
  obtain ⟨hremoved, hmisses, hstreak⟩ := d.prd_liveCleared port
  exact ⟨(hkept rfl (by decide) (by decide)).trans hremoved, (hkept rfl (by decide) (by decide)).trans hmisses,
    (hkept rfl (by decide) (by decide)).trans hstreak⟩

section Down

variable {d : Dev} {port : LaneId} (hport : d.isPort port.val = true) (hup : d.linkUp port.val = true) (raise : Bool)
include hport hup

theorem Dev.linkDown_empties : (d.linkDown port.val raise).NoneQueued port.val ∧ smFind (d.linkDown port.val raise).sw.tx port.val = none ∧
    (d.linkDown port.val raise).ln.Forgets port.val := by
  rw [Dev.linkDown_of_up hport hup]
  obtain ⟨hqueue, htx⟩ := ((d.clearLink port.val).downCounted port.val raise).flushPort_empties port.val 5
  obtain ⟨hqueue', htx'⟩ := (((d.clearLink port.val).downCounted port.val raise).flushPort port.val 5).endsLost_frames port
  refine ⟨Dev.noneQueued_of_queue hqueue' hqueue, htx'.symm ▸ htx, ?_⟩
  rw [(Dev.changes_endsLost ..).ln, (Dev.changes_flushPort ..).ln, (Dev.changes_downCounted ..).ln]
  exact d.forgets_clearLink port.val

/-- With nothing to flush, all that a link-down does to the registers of the port is to clear, count and show it. -/
theorem Dev.linkDown_of_empty (hqueue : d.NoneQueued port.val) (htx : smFind d.sw.tx port.val = none) :
    d.linkDown port.val raise = ((d.clearLink port.val).downCounted port.val raise).satSweep.endsLost port.val := by
  have hsw : ((d.clearLink port.val).downCounted port.val raise).sw = d.sw :=
    (Dev.changes_downCounted ..).sw.trans (d.changes_clearLink port.val).sw
  rw [Dev.linkDown_of_up hport hup, Dev.flushPort_of_empty (Dev.noneQueued_of_queue (congrArg SwState.queue hsw) hqueue) (hsw ▸ htx)]

end Down

theorem Dev.linkUp_of_down {d : Dev} {port : Nat} (h : d.portState port = 0 ∨ d.portState port = 4) : d.linkUp port = false := by
  unfold Dev.linkUp
  obtain h | h := h <;> rw [h] <;> rfl

theorem Dev.linkDown_shows {d : Dev} {port : LaneId} (hport : d.isPort port.val = true) (hup : d.linkUp port.val = true) (raise : Bool)
    (hqueue : d.NoneQueued port.val) (htx : smFind d.sw.tx port.val = none) :
    let t := d.linkDown port.val raise
    t.portState port.val = (if d.prd F.LANE_PORT_CTRL_hold port.val = 1 then 4 else 0) ∧ t.linkUp port.val = false ∧
    t.prd F.LANE_LIVE_removed port.val = 0 ∧ t.prd F.LANE_LIVE_misses port.val = 0 ∧ t.prd F.LANE_LIVE_streak port.val = 0 ∧
    (∀ c < 8, t.rdw .TM_CRD_STAT (laneDie port.val) (pcKey (port.val % 512) c) = 0) ∧
    t.rd F.LANE_EVT_CNT_events (laneDie port.val) 1 =
      Nat.min F.LANE_EVT_CNT_events.max (d.rd F.LANE_EVT_CNT_events (laneDie port.val) 1 + 1) := by
  have hcounted := (d.clearLink port.val).changes_downCounted port raise
  have hrest := ((Dev.changes_satSweep ((d.clearLink port.val).downCounted port.val raise)).weaken
    (ps' := [.regs, .ev, .oe, .sw, .tm]) (rs' := .LANE_LIVE :: subRegs)).andThen (Dev.changes_endsLost _ port)
  have hlive := Dev.prd_endsLost ((d.clearLink port.val).downCounted port.val raise).satSweep port
  intro t
  rw [← Dev.linkDown_of_empty hport hup raise hqueue htx] at hrest hlive
  obtain ⟨hremoved, hmisses, hstreak⟩ := hlive
  have hstate : t.portState port.val = if d.prd F.LANE_PORT_CTRL_hold port.val = 1 then 4 else 0 :=
    ((hrest.rd (by decide) _ _).trans (hcounted.rd (by decide) _ _)).trans (d.portState_clearLink port.val)
  refine ⟨hstate, Dev.linkUp_of_down ?_, hremoved, hmisses, hstreak, fun c hc => ?_, ?_⟩
  · rw [hstate]
    split
    · exact .inr rfl
    · exact .inl rfl
  · rw [hrest.rdw, hcounted.rdw]
    exact d.rdw_clearLink_credits port.val hc
  · rw [hrest.rd, Dev.rd_downCounted, (d.changes_clearLink port.val).rd]

-- Removal by liveness (R94, R395) ------------------------------------------------------------------------------------------------------

/-- The device with a port shown as removed, and the removal counted. -/
def Dev.removed (d : Dev) (port : Nat) : Dev :=
  ((d.pwr F.LANE_LIVE_removed port 1).pwr F.LANE_LIVE_streak port 0).pinc F.LANE_LIVE_removals port 1

/-- What follows the flush of a port that liveness removes; `n` is the number of its removals. -/
def Dev.endsRemoved (d : Dev) (port n : Nat) : Dev :=
  (d.dropDeadMaps.event .LANE (laneDie port) 16 (wmk [(63, 54, port)]) (wmk [(31, 0, n)])).reachRecords port false false

theorem Dev.liveRemove_of_missed {d : Dev} {port : Nat} (hport : d.isPort port = true) (hup : d.linkUp port = true)
    (hmisses : 8 ≤ d.prd F.LANE_LIVE_misses port) (hpresent : d.prd F.LANE_LIVE_removed port = 0) : ∃ reason n,
    d.liveRemove port = ((d.removed port).flush (fun x => x.dest == .port port) reason).endsRemoved port n := by
  unfold Dev.liveRemove
  rw [if_neg (by simp [hport, hup, hpresent]; omega)]
  exact ⟨_, _, rfl⟩

theorem Dev.changes_removed (d : Dev) (port : Nat) : d.Changes [.regs] [.LANE_LIVE] (d.removed port) :=
  ((d.changes_pwr F.LANE_LIVE_removed port 1).andThen (Dev.changes_pwr _ F.LANE_LIVE_streak port 0)).andThen
    (Dev.changes_pwr _ F.LANE_LIVE_removals port _)

theorem Dev.prd_removed (d : Dev) (port : LaneId) : (d.removed port.val).prd F.LANE_LIVE_removed port.val = 1 ∧
    (d.removed port.val).prd F.LANE_LIVE_streak port.val = 0 ∧
    (d.removed port.val).prd F.LANE_LIVE_removals port.val = Nat.min 4294967295 (d.prd F.LANE_LIVE_removals port.val + 1) := by
  have hother := fun {e : Dev} {f g : Fld} {v : Nat} => e.prd_pwr_disj (f := f) (g := g) port v
  refine ⟨?_, ?_, ?_⟩
  · rw [Dev.removed, Dev.pinc, Dev.inc]
    refine (hother (by decide) (by decide)).trans ((hother (by decide) (by decide)).trans ?_)
    exact Dev.prd_pwr_same _ _ _ _ (by decide)
  · rw [Dev.removed, Dev.pinc, Dev.inc]
    exact (hother (by decide) (by decide)).trans (Dev.prd_pwr_same _ _ _ _ (by decide))
  · refine (Dev.rd_inc_same _ F.LANE_LIVE_removals _ _ 1 (by decide)).trans ?_
    refine congrArg (fun n => Nat.min 4294967295 (n + 1)) ((hother (by decide) (by decide)).trans (hother (by decide) (by decide)))

theorem Dev.changes_endsRemoved (d : Dev) (port : LaneId) (n : Nat) :
    d.Changes [.regs, .sw, .ev] [.LANE_LIVE] (d.endsRemoved port.val n) :=
  (d.changes_dropDeadMaps.weaken.andThen (Dev.changes_event_LANE _ port ..)).andThen (Dev.changes_reachRecords _ port false false)

theorem Dev.endsRemoved_queue (d : Dev) (port : LaneId) (n : Nat) : (d.endsRemoved port.val n).sw.queue = d.sw.queue := by
  rw [Dev.endsRemoved, (Dev.changes_reachRecords ..).sw, (Dev.changes_event_LANE ..).sw]
  exact (d.dropDeadMaps_frames).1

theorem Dev.prd_endsRemoved (d : Dev) (port : LaneId) (n : Nat) {f : Fld} (hf : f.hi < 64) (h : f.hi < 32 ∨ 39 < f.lo) :
    (d.endsRemoved port.val n).prd f port.val = d.prd f port.val := by
  refine (Dev.prd_reachRecords _ port _ _ hf h).trans ?_
  exact Dev.prd_of_sameRegs (Dev.changes_event_LANE d.dropDeadMaps port ..).regs (by simp) port.val

theorem exec_portLivenessRemoval (port : LaneId) (s : State) :
    exec (.portLivenessRemoval port) s = .next (s.after fun d => d.liveRemove port.val) := rfl

theorem State.linkUp_after (s : State) (f : Dev → Dev) (port : Nat) : (s.after f).dev.linkUp port = (f s.dev).linkUp port := rfl

theorem State.noneQueued_after (s : State) (f : Dev → Dev) (port : Nat) :
    (s.after f).dev.NoneQueued port = (f s.dev).NoneQueued port := rfl

section Removal

variable {s : State} {port : LaneId}

theorem Dev.linkUp_of_changes {a b : Dev} {ps : List Part} {rs : List Reg} (h : a.Changes ps rs b)
    (hr : Reg.LANE_PORT_STAT ∉ rs := by decide) (p : Nat) : b.linkUp p = a.linkUp p := by
  have hstate : b.portState p = a.portState p := h.rd hr _ _
  simp only [Dev.linkUp, hstate]

/-- With nothing queued toward it, a removed port is shown as removed and stays up. -/
theorem removed_of_empty {reason n : Nat} (hqueue : s.dev.NoneQueued port.val) (hup : s.dev.linkUp port.val = true) :
    let e := ((s.dev.removed port.val).flush (fun x => x.dest == .port port.val) reason).endsRemoved port.val n
    e.prd F.LANE_LIVE_removed port.val = 1 ∧ e.prd F.LANE_LIVE_streak port.val = 0 ∧ e.linkUp port.val = true ∧
      e.prd F.LANE_LIVE_removals port.val = Nat.min 4294967295 (s.dev.prd F.LANE_LIVE_removals port.val + 1) ∧
      RegsKeptBut [.LANE_LIVE] s (s.after fun _ => e) := by
  have hshown := s.dev.changes_removed port.val
  have hnone : (s.dev.removed port.val).NoneQueued port.val := Dev.noneQueued_of_queue (congrArg SwState.queue hshown.sw) hqueue
  rw [hnone.flush]
  have hall : s.dev.Changes [.regs, .sw, .tm, .ev] [.LANE_LIVE] ((s.dev.removed port.val).satSweep.endsRemoved port.val n) :=
    (hshown.weaken.andThen (Dev.changes_satSweep _)).andThen (Dev.changes_endsRemoved _ port n)
  obtain ⟨hremoved, hstreak, hremovals⟩ := s.dev.prd_removed port
  have hkept := fun {f : Fld} => Dev.prd_endsRemoved (s.dev.removed port.val).satSweep port n (f := f)
  exact ⟨(hkept (by decide) (by decide)).trans hremoved, (hkept (by decide) (by decide)).trans hstreak,
    (Dev.linkUp_of_changes hall (by decide) port.val).trans hup, (hkept (by decide) (by decide)).trans hremovals, hall.regsKeptBut⟩

theorem portLivenessRemoval_removes (hport : s.dev.isPort port.val = true) (hup : s.dev.linkUp port.val = true)
    (hmisses : 8 ≤ s.dev.prd F.LANE_LIVE_misses port.val) (hpresent : s.dev.prd F.LANE_LIVE_removed port.val = 0) :
    ∃ t, exec (.portLivenessRemoval port) s = .next t ∧ t.dev.NoneQueued port.val ∧
      (s.dev.NoneQueued port.val → t.dev.prd F.LANE_LIVE_removed port.val = 1 ∧
        t.dev.prd F.LANE_LIVE_streak port.val = 0 ∧ t.dev.linkUp port.val = true ∧
        t.dev.prd F.LANE_LIVE_removals port.val = Nat.min 4294967295 (s.dev.prd F.LANE_LIVE_removals port.val + 1) ∧
        RegsKeptBut [.LANE_LIVE] s t) ∧
      KeepsBut [.regs, .sw, .tm, .sy, .ev, .quiesced] s t := by
  obtain ⟨reason, n, heq⟩ := Dev.liveRemove_of_missed hport hup hmisses hpresent
  have hall : s.dev.Changes [.regs, .sw, .tm, .sy, .ev] (.LANE_LIVE :: flushRegs)
      (((s.dev.removed port.val).flush (fun x => x.dest == .port port.val) reason).endsRemoved port.val n) :=
    ((s.dev.changes_removed port.val).weaken.andThen (Dev.changes_flush ..)).andThen (Dev.changes_endsRemoved _ port n)
  rw [exec_portLivenessRemoval, State.after_eq heq]
  refine ⟨_, rfl, ?_, fun hqueue => ?_, hall.keepsBut_of_subset⟩
  · rw [State.noneQueued_after]
    exact Dev.noneQueued_of_queue (Dev.endsRemoved_queue _ port n) (Dev.noneQueued_flush _ _ _)
  · simp only [State.prd_after, State.linkUp_after]
    exact removed_of_empty hqueue hup

end Removal

/-- Settles O19: a link-down clears the port's link layer, counts, flushes and clears its liveness; a removal shows the port as removed
and flushes what waits for it. -/
theorem linksLeave : Obligations.LinksLeave := by
  refine ⟨fun d port raise hport hup => ?_, fun s port hport hup hmisses hpresent =>
    portLivenessRemoval_removes hport hup hmisses hpresent⟩
  obtain ⟨hqueue, htx, hlink⟩ := Dev.linkDown_empties hport hup raise
  exact ⟨hqueue, htx, hlink.tx, hlink.rx, hlink.hb, hlink.ctl, fun hnone hidle _ => Dev.linkDown_shows hport hup raise hnone hidle⟩

end Sys2Proof.Machine
end

section
/-! PROOF. A list threaded through the device: what the step of one element does, when the steps of the others leave it be. -/

namespace Sys2Proof.Machine

set_option Elab.async false

/-- Of a list without repetition each element has its step once, after and before steps of other elements. -/
theorem Dev.each_around {α : Type} {xs : List α} (hnodup : xs.Nodup) {x : α} (hx : x ∈ xs) (f : Dev → α → Dev) (d : Dev) :
    ∃ before after, d.each xs f = (f (d.each before f) x).each after f ∧ (∀ y ∈ before, y ∈ xs ∧ y ≠ x) ∧
      ∀ y ∈ after, y ∈ xs ∧ y ≠ x := by
  obtain ⟨before, after, rfl⟩ := List.append_of_mem hx
  obtain ⟨hnot, -⟩ := List.nodup_cons.1 (List.nodup_middle.1 hnodup)
  rw [List.mem_append, not_or] at hnot
  refine ⟨before, after, by simp only [Dev.each, List.foldl_append, List.foldl_cons], fun y hy => ?_, fun y hy => ?_⟩
  · exact ⟨List.mem_append_left _ hy, fun h => hnot.1 (h ▸ hy)⟩
  · exact ⟨List.mem_append_right _ (List.mem_cons_of_mem _ hy), fun h => hnot.2 (h ▸ hy)⟩

/-- A relation that composes holds across a list when it holds across each step. -/
theorem Dev.each_rel {α : Type} {R : Dev → Dev → Prop} (hrfl : ∀ d, R d d) (htrans : ∀ {a b c}, R a b → R b c → R a c)
    {xs : List α} {f : Dev → α → Dev} (h : ∀ d, ∀ x ∈ xs, R d (f d x)) (d : Dev) : R d (d.each xs f) :=
  List.foldlRecOn (motive := R d) xs f (hrfl d) fun e he x hx => htrans he (h e x hx)

end Sys2Proof.Machine
end

section
/-! PROOF. A credit return above what the partner advertised (O20): the classes of a return do not touch one another, and an error
once logged stays. -/

namespace Sys2Proof.Machine

set_option Elab.async false

-- One class of a return (R277, R109) ---------------------------------------------------------------------------------------------------

/-- Credits of a class that a return brings: the change of its running total. -/
def Dev.returned (d : Dev) (port : Nat) (k1 k2 : Word) (c : Nat) : Nat :=
  (creditField k1 k2 c + 4096 - smGet d.ln.crBase (pcKey port c) 0) % 4096

/-- The device with the running total of a class taken from a return. -/
def Dev.totalled (d : Dev) (port : Nat) (k1 k2 : Word) (c : Nat) : Dev :=
  { d with ln := { d.ln with crBase := smSet d.ln.crBase (pcKey port c) (creditField k1 k2 c) 0 } }

/-- Credits that a port holds of a class. -/
def Dev.crHeld (d : Dev) (port c : Nat) : Nat := d.rd F.TM_CRD_STAT_held (laneDie port) (pcKey (port % 512) c)

/-- The device with the credits that a port holds of a class set. -/
def Dev.setCrHeld (d : Dev) (port c v : Nat) : Dev := d.wr F.TM_CRD_STAT_held (laneDie port) (pcKey (port % 512) c) v

/-- The count that the partner of a port advertised for a class. -/
def Dev.crLimit (d : Dev) (port c : Nat) : Nat := smGet d.ln.partnerAdv (pcKey port c) 0

/-- What a credit return does for one class. -/
def Dev.returnClass (port : Nat) (k1 k2 : Word) (d : Dev) (c : Nat) : Dev :=
  let n := d.returned port k1 k2 c
  let d := d.totalled port k1 k2 c
  if n = 0 then d
  else if d.crLimit port c < d.crHeld port c + n then
    (d.setCrHeld port c (d.crLimit port c)).logErr .TM (laneDie port) 2 (wmk [(9, 0, port)])
  else d.setCrHeld port c (d.crHeld port c + n)

theorem Dev.creditReturn_of_up {d : Dev} {port : Nat} (h : d.linkUp port = true) (k1 k2 : Word) :
    d.creditReturn port k1 k2 = d.each (List.range 8) (Dev.returnClass port k1 k2) := by
  unfold Dev.creditReturn
  rw [h]
  rfl

theorem Dev.returnClass_of_excess {d : Dev} {port : Nat} {k1 k2 : Word} {c : Nat} (hn : d.returned port k1 k2 c ≠ 0)
    (hover : d.crLimit port c < d.crHeld port c + d.returned port k1 k2 c) : Dev.returnClass port k1 k2 d c =
      ((d.totalled port k1 k2 c).setCrHeld port c (d.crLimit port c)).logErr .TM (laneDie port) 2 (wmk [(9, 0, port)]) := by
  unfold Dev.returnClass
  rw [if_neg hn]
  exact if_pos hover

/-- A class takes its total, and its credits with it if they changed; an excess is logged. -/
theorem Dev.returnClass_cases (port : Nat) (k1 k2 : Word) (d : Dev) (c : Nat) :
    Dev.returnClass port k1 k2 d c = d.totalled port k1 k2 c ∨
    ∃ v, Dev.returnClass port k1 k2 d c = (d.totalled port k1 k2 c).setCrHeld port c v ∨
      Dev.returnClass port k1 k2 d c =
        ((d.totalled port k1 k2 c).setCrHeld port c v).logErr .TM (laneDie port) 2 (wmk [(9, 0, port)]) := by
  unfold Dev.returnClass
  extract_lets n taken
  split
  · exact .inl rfl
  · split
    · exact .inr ⟨_, .inr rfl⟩
    · exact .inr ⟨_, .inl rfl⟩

theorem Dev.changes_totalled (d : Dev) (port : Nat) (k1 k2 : Word) (c : Nat) : d.Changes [.ln] [] (d.totalled port k1 k2 c) :=
  d.changes_ln _

theorem Dev.changes_setCrHeld (d : Dev) (port c v : Nat) : d.Changes [.regs] [.TM_CRD_STAT] (d.setCrHeld port c v) :=
  d.changes_wr F.TM_CRD_STAT_held ..

theorem Dev.changes_returnClass (port : Nat) (k1 k2 : Word) (d : Dev) (c : Nat) :
    d.Changes [.regs, .ln, .ev] (.TM_CRD_STAT :: loggingRegs) (Dev.returnClass port k1 k2 d c) := by
  have hset := fun v => ((d.changes_totalled port k1 k2 c).weaken (ps' := [.regs, .ln, .ev]) (rs' := .TM_CRD_STAT :: loggingRegs)).andThen
    (Dev.changes_setCrHeld _ port c v)
  obtain h | ⟨v, h | h⟩ := Dev.returnClass_cases port k1 k2 d c <;> rw [h]
  · exact (d.changes_totalled port k1 k2 c).weaken
  · exact hset v
  · exact (hset v).andThen (Dev.changes_logErr ..)

-- What the other classes of a return leave ---------------------------------------------------------------------------------------------

/-- A class of a port has the same running total, credits and advertised count in `b` as in `a`. -/
structure Dev.SameCredits (port c : Nat) (a b : Dev) : Prop where
  total : smGet b.ln.crBase (pcKey port c) 0 = smGet a.ln.crBase (pcKey port c) 0
  held : b.crHeld port c = a.crHeld port c
  limit : b.crLimit port c = a.crLimit port c

namespace Dev.SameCredits

variable {port c : Nat} {a b e : Dev}

theorem rfl' (port c : Nat) (d : Dev) : d.SameCredits port c d := ⟨rfl, rfl, rfl⟩

theorem trans (h : a.SameCredits port c b) (k : b.SameCredits port c e) : a.SameCredits port c e :=
  ⟨k.total.trans h.total, k.held.trans h.held, k.limit.trans h.limit⟩

theorem returned (h : a.SameCredits port c b) (k1 k2 : Word) : b.returned port k1 k2 c = a.returned port k1 k2 c := by
  simp only [Dev.returned, h.total]

end Dev.SameCredits

theorem Dev.sameCredits_totalled (d : Dev) (port : Nat) (k1 k2 : Word) {c j : Nat} (h : j ≠ c) :
    d.SameCredits port c (d.totalled port k1 k2 j) :=
  ⟨smGet_smSet_ne _ _ _ _ (by simp only [pcKey]; omega), rfl, rfl⟩

theorem Dev.sameCredits_setCrHeld (d : Dev) (port : LaneId) {c j : Nat} (hc : c < 8) (hj : j < 8) (h : j ≠ c) (v : Nat) :
    d.SameCredits port.val c (d.setCrHeld port.val j v) := by
  refine ⟨rfl, ?_, rfl⟩
  exact Dev.rd_wr_ne _ _ (laneDie_lt port) (laneDie_lt port) (by simp only [pcKey]; omega) (by simp only [pcKey]; omega)
    (.inr (.inr (by simp only [pcKey]; omega)))

theorem Dev.sameCredits_logErr (d : Dev) (port c : Nat) (b : ErrBlk) (u code : Nat) (detail : Word) :
    d.SameCredits port c (d.logErr b u code detail) := by
  have hlog := d.changes_logErr b u code detail
  exact ⟨by rw [hlog.ln], hlog.rd (by decide) _ _, by rw [Dev.crLimit, hlog.ln]; rfl⟩

theorem Dev.sameCredits_returnClass (port : LaneId) (k1 k2 : Word) (d : Dev) {c j : Nat} (hc : c < 8) (hj : j < 8) (h : j ≠ c) :
    d.SameCredits port.val c (Dev.returnClass port.val k1 k2 d j) := by
  have htotal := d.sameCredits_totalled port.val k1 k2 h
  have hset := fun v => htotal.trans (Dev.sameCredits_setCrHeld _ port hc hj h v)
  obtain he | ⟨v, he | he⟩ := Dev.returnClass_cases port.val k1 k2 d j <;> rw [he]
  · exact htotal
  · exact hset v
  · exact (hset v).trans (Dev.sameCredits_logErr ..)

-- What a return leaves of the errors logged before (R408) ------------------------------------------------------------------------------

/-- In `b` a block's count of errors is at least that in `a`, and its registers still hold the codes that they hold there. -/
structure Dev.ErrorsStand (blk : ErrBlk) (u : Nat) (a b : Dev) : Prop where
  count : a.rd ⟨blk.count, 31, 0⟩ u 0 ≤ b.rd ⟨blk.count, 31, 0⟩ u 0
  latched : ∀ code < 64, Latched blk u code (.ofDev a) → Latched blk u code (.ofDev b)

namespace Dev.ErrorsStand

variable {blk : ErrBlk} {u : Nat} {a b c : Dev}

theorem rfl' (blk : ErrBlk) (u : Nat) (d : Dev) : d.ErrorsStand blk u d := ⟨Nat.le_refl _, fun _ _ h => h⟩

theorem trans (h : a.ErrorsStand blk u b) (k : b.ErrorsStand blk u c) : a.ErrorsStand blk u c :=
  ⟨h.count.trans k.count, fun code hc hl => k.latched code hc (h.latched code hc hl)⟩

theorem of_sameRegs {l : List Reg} (h : SameRegs l a.regs b.regs) (hfirst : blk.first ∉ l := by decide)
    (hnext : blk.next ∉ l := by decide) (hcount : blk.count ∉ l := by decide) : a.ErrorsStand blk u b :=
  ⟨Nat.le_of_eq (Dev.rd_of_sameRegs h (f := ⟨blk.count, 31, 0⟩) hcount u 0).symm,
    fun _ _ hl => latched_of_sameRegs h hfirst hnext hl⟩

end Dev.ErrorsStand

theorem Dev.errorsStand_logErr (d : Dev) (b : ErrBlk) (u code : Nat) (detail : Word) : d.ErrorsStand b u (d.logErr b u code detail) := by
  refine ⟨?_, fun c hc hl => Dev.latched_logErr_of_latched hc hl code detail⟩
  have hlt : d.rd ⟨b.count, 31, 0⟩ u 0 < 2 ^ 32 := fget_lt _ 31 0
  rw [Dev.rd_count_logErr]
  omega

theorem Dev.errorsStand_returnClass (port : Nat) (k1 k2 : Word) (d : Dev) (c : Nat) :
    d.ErrorsStand .TM (laneDie port) (Dev.returnClass port k1 k2 d c) := by
  have htotal : d.ErrorsStand .TM (laneDie port) (d.totalled port k1 k2 c) := .of_sameRegs (d.changes_totalled port k1 k2 c).regs
  have hset := fun v => htotal.trans (.of_sameRegs (Dev.changes_setCrHeld _ port c v).regs)
  obtain h | ⟨v, h | h⟩ := Dev.returnClass_cases port k1 k2 d c <;> rw [h]
  · exact htotal
  · exact hset v
  · exact (hset v).trans (Dev.errorsStand_logErr ..)

-- The return ---------------------------------------------------------------------------------------------------------------------------

/-- A class with an excess holds the advertised count, and its error stands in the error registers, counted (R109). -/
theorem Dev.excess_returnClass {d : Dev} {port : LaneId} {k1 k2 : Word} {c : Nat} (hn : d.returned port.val k1 k2 c ≠ 0)
    (hlimit : d.crLimit port.val c < 4096) (hover : d.crLimit port.val c < d.crHeld port.val c + d.returned port.val k1 k2 c) :
    let e := Dev.returnClass port.val k1 k2 d c
    e.crHeld port.val c = d.crLimit port.val c ∧ Latched .TM (laneDie port.val) 2 (.ofDev e) ∧
      e.rd F.TM_ERR_COUNT_count (laneDie port.val) 0 = min 4294967295 (d.rd F.TM_ERR_COUNT_count (laneDie port.val) 0 + 1) := by
  intro e
  simp only [e, Dev.returnClass_of_excess hn hover]
  refine ⟨?_, Dev.latched_logErr _ _ _ (by decide) _, ?_⟩
  · rw [(Dev.sameCredits_logErr ..).held]
    exact (Dev.rd_wr_same _ F.TM_CRD_STAT_held _ _ _ (by decide)).trans (Nat.mod_eq_of_lt hlimit)
  · refine (Dev.rd_count_logErr _ .TM _ _ _).trans ?_
    exact congrArg (fun n => min 4294967295 (n + 1))
      (((Dev.changes_setCrHeld ..).rd (by decide) _ _).trans ((d.changes_totalled port.val k1 k2 c).rd (by decide) _ _))

theorem Dev.creditReturn_of_excess {d : Dev} {port : LaneId} {k1 k2 : Word} {c : Nat} (hup : d.linkUp port.val = true) (hc : c < 8)
    (hn : d.returned port.val k1 k2 c ≠ 0) (hlimit : d.crLimit port.val c < 4096)
    (hover : d.crLimit port.val c < d.crHeld port.val c + d.returned port.val k1 k2 c) :
    let e := d.creditReturn port.val k1 k2
    e.crHeld port.val c = d.crLimit port.val c ∧ Latched .TM (laneDie port.val) 2 (.ofDev e) ∧
      min 4294967295 (d.rd F.TM_ERR_COUNT_count (laneDie port.val) 0 + 1) ≤ e.rd F.TM_ERR_COUNT_count (laneDie port.val) 0 := by
  obtain ⟨before, after, hsplit, hbefore, hafter⟩ :=
    Dev.each_around List.nodup_range (List.mem_range.2 hc) (Dev.returnClass port.val k1 k2) d
  have hsame : ∀ (a : Dev) (cs : List Nat), (∀ y ∈ cs, y ∈ List.range 8 ∧ y ≠ c) →
      a.SameCredits port.val c (a.each cs (Dev.returnClass port.val k1 k2)) := fun a cs h =>
    Dev.each_rel (.rfl' port.val c) .trans
      (fun a j hj => Dev.sameCredits_returnClass port k1 k2 a hc (List.mem_range.1 (h j hj).1) (h j hj).2) a
  have hstand : ∀ (a : Dev) (cs : List Nat), a.ErrorsStand .TM (laneDie port.val) (a.each cs (Dev.returnClass port.val k1 k2)) :=
    fun a cs => Dev.each_rel (.rfl' _ _) .trans (fun a j _ => Dev.errorsStand_returnClass port.val k1 k2 a j) a
  have hfirst := hsame d before hbefore
  obtain ⟨hheld, hlatched, hcount⟩ := Dev.excess_returnClass (port := port) (d := d.each before (Dev.returnClass port.val k1 k2))
    (hfirst.returned k1 k2 ▸ hn) (hfirst.limit ▸ hlimit) (by rwa [hfirst.returned, hfirst.limit, hfirst.held])
  intro e
  simp only [e, Dev.creditReturn_of_up hup, hsplit]
  refine ⟨?_, (hstand _ after).latched 2 (by decide) hlatched, le_trans ?_ (hstand _ after).count⟩
  · rw [(hsame _ after hafter).held, hheld, hfirst.limit]
  · exact (min_le_min_left _ (Nat.succ_le_succ (hstand d before).count)).trans (Nat.le_of_eq hcount.symm)

theorem wbit_of_fget_bit {w : Word} {n : Nat} (h : fget w n n = 1) : wbit w n = true := by
  rwa [fget_bit, Bool.toNat_eq_one] at h

theorem exec_creditReturnReceive (port : LaneId) (k1 k2 : Word) (s : State) :
    exec (.creditReturnReceive port k1 k2) s = .next (s.after fun d => d.creditReturn port.val k1 k2) := rfl

/-- Settles O20: the class with the excess takes the advertised count and logs the error; the other classes leave its credits, and what
they log leaves the error where it stands. -/
theorem creditExcess : Obligations.CreditExcess := by
  intro s port k1 k2 c d e k q n hup hc hn hlimit hover
  have hall : s.dev.Changes [.regs, .ln, .ev] (.TM_CRD_STAT :: loggingRegs) (s.dev.creditReturn port.val k1 k2) := by
    rw [Dev.creditReturn_of_up hup]
    exact .each (Dev.changes_returnClass port.val k1 k2) _ _
  obtain ⟨hheld, ⟨hvalid, hcode⟩, hcount⟩ := Dev.creditReturn_of_excess hup hc hn hlimit hover
  rw [exec_creditReturnReceive, State.after_eq rfl]
  exact ⟨_, rfl, hheld, hcode.imp_left fun h => ⟨wbit_of_fget_bit hvalid, h⟩, hcount, hall.regsKeptBut, hall.keepsBut_of_subset⟩

end Sys2Proof.Machine
end

section
/-! PROOF. The scheduler's choice enters transmission (O5): what it is charged leaves the switch, where the frame then moves. -/

namespace Sys2Proof.Machine

set_option Elab.async false

theorem Dev.changes_ecnMark (d : Dev) (port : Nat) (f : Frame) : d.Changes [.regs] [.TM_ECN_CNT] (d.ecnMark port f).1 := by
  unfold Dev.ecnMark
  dsimp only
  split
  · exact d.changes_inc F.TM_ECN_CNT_frames _ _ _
  · exact .rfl' _ _ d

theorem Dev.changes_shaperTake (d : Dev) (port s len : Nat) : d.Changes [.tm] [] (d.shaperTake port s len) := by
  unfold Dev.shaperTake
  dsimp only
  split
  · exact d.changes_tm _
  · exact .rfl' _ _ d

/-- The credits of a frame that a port starts to send are spent (R106). -/
def Dev.spendCredits (d : Dev) (port : Nat) (x : Desc) : Dev :=
  if smGet d.ln.partnerAdv (pcKey port x.cls) 0 = 0 then d
  else d.dec F.TM_CRD_STAT_held (laneDie port) (pcKey (port % 512) x.cls) (creditsFor x.frame.len)

theorem Dev.changes_spendCredits (d : Dev) (port : Nat) (x : Desc) : d.Changes [.regs] [.TM_CRD_STAT] (d.spendCredits port x) := by
  unfold Dev.spendCredits
  split
  · exact .rfl' _ _ d
  · exact d.changes_dec F.TM_CRD_STAT_held _ _ _

/-- The round robin of a port after it served a bulk frame, and the bulk cap charged with it (R110, R331). -/
def Dev.served (d : Dev) (port : Nat) (pk : Picked) : Dev :=
  { d with tm := { d.tm with
    deficit := pk.deficit, quanta := pk.quanta, drrClass := smInsert d.tm.drrClass port pk.cls,
    drrVoq := smInsert d.tm.drrVoq (pcKey port pk.cls) (pk.desc.origin.rank + 1),
    bulkTokens := match smFind d.tm.bulkTokens port with
      | some t => smInsert d.tm.bulkTokens port (t - pk.desc.frame.len)
      | none => d.tm.bulkTokens } }

/-- The step of R110 that chose a frame charges it: the reserve bucket, or the round robin and the shapers. -/
def Dev.chargePick (d : Dev) (port : Nat) (pk : Picked) : Dev :=
  if pk.step = 1 then
    { d with tm := { d.tm with reserve := smInsert d.tm.reserve port (d.reserveOf port - pk.desc.frame.len) } }
  else if pk.step = 2 then d
  else ((d.served port pk).shaperTake port pk.cls pk.desc.frame.len).shaperTake port 5 pk.desc.frame.len

theorem Dev.changes_chargePick (d : Dev) (port : Nat) (pk : Picked) : d.Changes [.tm] [] (d.chargePick port pk) := by
  have hserved : d.Changes [.tm] [] (d.served port pk) := d.changes_tm _
  unfold Dev.chargePick
  split
  · exact d.changes_tm _
  · split
    · exact .rfl' _ _ d
    · exact (hserved.trans (Dev.changes_shaperTake ..)).trans (Dev.changes_shaperTake ..)

/-- The device with a chosen frame marked and charged. -/
def Dev.pickCharged (d : Dev) (port : Nat) (pk : Picked) : Dev :=
  ((d.ecnMark port pk.desc.frame).1.spendCredits port pk.desc).chargePick port pk

theorem Dev.changes_pickCharged (d : Dev) (port : Nat) (pk : Picked) :
    d.Changes [.regs, .tm] [.TM_ECN_CNT, .TM_CRD_STAT] (d.pickCharged port pk) :=
  ((d.changes_ecnMark port pk.desc.frame).weaken.andThen (Dev.changes_spendCredits ..)).andThen (Dev.changes_chargePick ..)

/-- The switch with a chosen frame out of its queue and in transmission, marked. -/
def Dev.startedSw (d : Dev) (port : Nat) (pk : Picked) : SwState :=
  { d.sw with
    queue := d.sw.queue.eraseP (fun y => y.id == pk.desc.id && y.dest == pk.desc.dest)
    tx := smInsert d.sw.tx port ⟨{ pk.desc with frame := (d.ecnMark port pk.desc.frame).2 }, 0, false⟩ }

theorem Dev.egressSelect_of_pick {d : Dev} {port : Nat} {pk : Picked} (hport : d.isPort port = true) (hup : d.portState port = 2)
    (hidle : smFind d.sw.tx port = none) (hshed : d.shed < 5) (hruns : d.dieRuns (laneDie port) = true)
    (hpick : d.schedule port = some pk) : d.egressSelect port = { d.pickCharged port pk with sw := d.startedSw port pk } := by
  have heq : d.egressSelect port = { d.pickCharged port pk with
      sw := { (d.pickCharged port pk).sw with
        queue := (d.pickCharged port pk).sw.queue.eraseP (fun y => y.id == pk.desc.id && y.dest == pk.desc.dest)
        tx := smInsert (d.pickCharged port pk).sw.tx port ⟨{ pk.desc with frame := (d.ecnMark port pk.desc.frame).2 }, 0, false⟩ } } := by
    unfold Dev.egressSelect
    simp only [hport, hup, hidle, hruns, hpick, Nat.not_le.mpr hshed, bne_self_eq_false, Bool.not_true, Option.isSome_none,
      decide_false, Bool.or_self, Bool.false_eq_true, if_false]
    rfl
  rw [heq, (d.changes_pickCharged port pk).sw]
  rfl

theorem exec_egressSelect (port : LaneId) (s : State) : exec (.egressSelect port) s = .next (s.after fun d => d.egressSelect port.val) := rfl

/-- Settles O5: what marking and charging a frame change is outside the switch, where the frame alone moves. -/
theorem egressStarts : Obligations.EgressStarts := by
  intro s port pk d hport hup hidle hshed hruns hpick
  have hall : s.dev.Changes [.regs, .sw, .tm] [.TM_ECN_CNT, .TM_CRD_STAT] _ :=
    (s.dev.changes_pickCharged port.val pk).weaken.andThen (Dev.changes_sw _ (s.dev.startedSw port.val pk))
  rw [exec_egressSelect, State.after_eq (Dev.egressSelect_of_pick hport hup hidle hshed hruns hpick)]
  exact ⟨_, rfl, rfl, hall.keepsBut_of_subset⟩

end Sys2Proof.Machine
end

section
/-! PROOF. Refills, ticks and samples of the traffic manager (O7): each entry that a command writes is written once, under a key of its
own. -/

namespace Sys2Proof.Machine

set_option Elab.async false

-- The reserve bucket and the bulk cap (R110, R331) -------------------------------------------------------------------------------------

theorem exec_reserveBucketRefill (port : LaneId) (s : State) :
    exec (.reserveBucketRefill port) s = .next (s.after fun d => d.reserveRefill port.val) := rfl

theorem Dev.reserveRefill_of_port {d : Dev} {port : Nat} (h : d.isPort port = true) : d.reserveRefill port = { d with tm := { d.tm with
    reserve := smInsert d.tm.reserve port (Nat.min 4132 (d.reserveOf port + 128 * d.portWidth port)) } } := if_pos h

theorem exec_bulkCapRefill (port : LaneId) (s : State) :
    exec (.bulkCapRefill port) s = .next (s.after fun d => d.bulkRefill port.val) := rfl

theorem Dev.bulkRefill_of_capped {d : Dev} {port : Nat} {n : Int} (h : smFind d.tm.bulkTokens port = some n) :
    d.bulkRefill port = { d with tm := { d.tm with
      bulkTokens := smInsert d.tm.bulkTokens port (min 4132 (n + 3200 * d.portWidth port)) } } := by
  unfold Dev.bulkRefill
  rw [h]

-- One shaper at its boundary (R111, R112) ----------------------------------------------------------------------------------------------

/-- A shaper at a refill boundary: an enabled one gains its rate up to its depth. -/
def Shaper.refilled (h : Shaper) : Shaper := if h.enable then { h with tokens := min (h.depth : Int) (h.tokens + h.rate) } else h

/-- A shaper that has taken its written enable, rate and depth. -/
def Shaper.rewritten (h : Shaper) (en : Bool) (rate depth : Nat) : Shaper :=
  ⟨en, rate, depth, if en && !h.enable then depth else min h.tokens depth⟩

/-- The shaper at a key with its written values, where a change is pending, before the refill. -/
def Dev.shaperTaken (d : Dev) (k : Nat) : Shaper :=
  let e := laneDie (k / 8)
  let i := shpKey (k / 8 % 512) (k % 8)
  if d.tm.shaperDirty.contains k then
    (smGet d.tm.shapers k Shaper.off).rewritten (d.on F.TM_SHP_CFG_enable e i) (d.rd F.TM_SHP_CFG_rate e i) (d.rd F.TM_SHP_CFG_depth e i)
  else smGet d.tm.shapers k Shaper.off

/-- The device with the shaper at a key past its boundary. -/
def Dev.refillKey (d : Dev) (k : Nat) : Dev :=
  { d with tm := { d.tm with shapers := smInsert d.tm.shapers k (d.shaperTaken k).refilled,
                             shaperDirty := d.tm.shaperDirty.filter (· != k) } }

theorem shpKey_div_mod (k : Nat) : shpKey (k / 8) (k % 8) = k := Nat.div_add_mod' k 8

theorem Dev.refillShaper_eq (d : Dev) (k : Nat) : d.refillShaper (k / 8) (k % 8) = d.refillKey k := by
  unfold Dev.refillShaper
  simp only [shpKey_div_mod]
  rfl

/-- A key has the same shaper, changed or not, in `b` as in `a`, and the registers are the same. -/
structure Dev.SameShaper (k : Nat) (a b : Dev) : Prop where
  shaper : smFind b.tm.shapers k = smFind a.tm.shapers k
  changed : k ∈ b.tm.shaperDirty ↔ k ∈ a.tm.shaperDirty
  regs : b.regs = a.regs

namespace Dev.SameShaper

variable {k : Nat} {a b c : Dev}

theorem rfl' (k : Nat) (d : Dev) : d.SameShaper k d := ⟨rfl, Iff.rfl, rfl⟩

theorem trans (h : a.SameShaper k b) (g : b.SameShaper k c) : a.SameShaper k c :=
  ⟨g.shaper.trans h.shaper, g.changed.trans h.changed, g.regs.trans h.regs⟩

theorem shaperTaken (h : a.SameShaper k b) : b.shaperTaken k = a.shaperTaken k := by
  simp only [Dev.shaperTaken, List.contains_iff_mem, h.changed, smGet, h.shaper, Dev.on, Dev.rd, h.regs]

end Dev.SameShaper

theorem Dev.sameShaper_refillKey (d : Dev) {k j : Nat} (h : j ≠ k) : d.SameShaper k (d.refillKey j) :=
  ⟨smFind_smInsert_ne _ _ h.symm, by simp [Dev.refillKey, h.symm], rfl⟩

theorem Dev.smFind_refillKey (d : Dev) (k : Nat) : smFind (d.refillKey k).tm.shapers k = some (d.shaperTaken k).refilled :=
  smFind_smInsert_same _ _ _

theorem Dev.not_changed_refillKey (d : Dev) (k : Nat) : k ∉ (d.refillKey k).tm.shaperDirty := by simp [Dev.refillKey]

-- The shapers of a die -----------------------------------------------------------------------------------------------------------------

theorem nodup_eraseDups (l : List Nat) : l.eraseDups.Nodup := by
  match l with
  | [] => simp
  | a :: l =>
    rw [List.eraseDups_cons, List.nodup_cons]
    exact ⟨by simp [List.mem_eraseDups], nodup_eraseDups _⟩
termination_by l.length
decreasing_by exact Nat.lt_succ_of_le (List.length_filter_le _ _)

/-- The keys of the shapers of a die that are listed or changed. -/
def Dev.shaperKeys (d : Dev) (die : Nat) : List Nat :=
  ((d.tm.shapers.map Prod.fst ++ d.tm.shaperDirty).eraseDups).filter fun k => laneDie (k / 8) == die

theorem Dev.nodup_shaperKeys (d : Dev) (die : Nat) : (d.shaperKeys die).Nodup := (nodup_eraseDups _).filter _

theorem Dev.mem_shaperKeys {d : Dev} {die k : Nat} :
    k ∈ d.shaperKeys die ↔ (k ∈ d.tm.shapers.map Prod.fst ∨ k ∈ d.tm.shaperDirty) ∧ laneDie (k / 8) = die := by
  simp only [Dev.shaperKeys, List.mem_filter, List.mem_eraseDups, List.mem_append, beq_iff_eq]

theorem Dev.shaperRefill_eq (d : Dev) (die : Nat) : d.shaperRefill die = d.each (d.shaperKeys die) Dev.refillKey := by
  unfold Dev.shaperRefill
  simp only [Dev.refillShaper_eq]
  rfl

theorem Dev.shaperRefill_of_mem {d : Dev} {die k : Nat} (h : k ∈ d.shaperKeys die) :
    smFind (d.shaperRefill die).tm.shapers k = some (d.shaperTaken k).refilled ∧ k ∉ (d.shaperRefill die).tm.shaperDirty := by
  obtain ⟨before, after, hsplit, hbefore, hafter⟩ := Dev.each_around (d.nodup_shaperKeys die) h Dev.refillKey d
  have hsame : ∀ (a : Dev) (ks : List Nat), (∀ y ∈ ks, y ∈ d.shaperKeys die ∧ y ≠ k) → a.SameShaper k (a.each ks Dev.refillKey) :=
    fun a ks h => Dev.each_rel (.rfl' k) .trans (fun a j hj => a.sameShaper_refillKey (h j hj).2) a
  have hlast := hsame ((d.each before Dev.refillKey).refillKey k) after hafter
  rw [Dev.shaperRefill_eq, hsplit, hlast.shaper, hlast.changed, Dev.smFind_refillKey, (hsame d before hbefore).shaperTaken]
  exact ⟨rfl, Dev.not_changed_refillKey _ k⟩

theorem Dev.shaperRefill_of_not_mem {d : Dev} {die k : Nat} (h : k ∉ d.shaperKeys die) : d.SameShaper k (d.shaperRefill die) := by
  rw [Dev.shaperRefill_eq]
  exact Dev.each_rel (.rfl' k) .trans (fun a j hj => a.sameShaper_refillKey fun he => h (he ▸ hj)) d

theorem Dev.changes_refillKey (d : Dev) (k : Nat) : d.Changes [.tm] [] (d.refillKey k) := d.changes_tm _

theorem Dev.changes_shaperRefill (d : Dev) (die : Nat) : d.Changes [.tm] [] (d.shaperRefill die) := by
  rw [Dev.shaperRefill_eq]
  exact .each Dev.changes_refillKey d _

/-- The shapers of two devices aside, and which of them are changed, their traffic managers hold the same. -/
def Dev.SameBesideShapers (a b : Dev) : Prop :=
  { b.tm with shapers := a.tm.shapers, shaperDirty := a.tm.shaperDirty } = a.tm

theorem Dev.sameBesideShapers_shaperRefill (d : Dev) (die : Nat) : d.SameBesideShapers (d.shaperRefill die) := by
  rw [Dev.shaperRefill_eq]
  exact List.foldlRecOn (motive := d.SameBesideShapers) _ _ rfl fun _ he _ _ => he

theorem exec_shaperRefill (die : DieId) (s : State) :
    exec (.shaperRefill die) s = .next (s.after fun d => d.shaperRefill die.val) := rfl

theorem Dev.shaperTaken_of_unchanged {d : Dev} {k : Nat} {h : Shaper} (hfind : smFind d.tm.shapers k = some h)
    (hk : k ∉ d.tm.shaperDirty) : d.shaperTaken k = h := by
  simp [Dev.shaperTaken, hk, smGet, hfind]

theorem Dev.shaperTaken_of_changed {d : Dev} {k : Nat} (hk : k ∈ d.tm.shaperDirty) :
    let e := laneDie (k / 8); let i := shpKey (k / 8 % 512) (k % 8)
    d.shaperTaken k = (smGet d.tm.shapers k Shaper.off).rewritten (d.on F.TM_SHP_CFG_enable e i) (d.rd F.TM_SHP_CFG_rate e i)
      (d.rd F.TM_SHP_CFG_depth e i) := by
  simp [Dev.shaperTaken, hk]

theorem Shaper.refilled_rewritten (h : Shaper) (en : Bool) (rate depth : Nat) :
    let full : Int := if en && !h.enable then depth else min h.tokens depth
    (h.rewritten en rate depth).refilled = ⟨en, rate, depth, if en then min (depth : Int) (full + rate) else full⟩ := by
  cases en <;> rfl

theorem Dev.unchanged_of_shaperRefill {d : Dev} {die k : Nat} (hk : k ∈ (d.shaperRefill die).tm.shaperDirty) :
    laneDie (k / 8) ≠ die := by
  intro hdie
  by_cases hmem : k ∈ d.shaperKeys die
  · exact (Dev.shaperRefill_of_mem hmem).2 hk
  · exact hmem (Dev.mem_shaperKeys.2 ⟨.inr ((Dev.shaperRefill_of_not_mem hmem).changed.1 hk), hdie⟩)

-- The copy of the peer's depths (R102) -------------------------------------------------------------------------------------------------

theorem exec_peerDepthRefresh (die : DieId) (s : State) :
    exec (.peerDepthRefresh die) s = .next (s.after fun d => d.peerDepthRefresh die.val) := rfl

theorem Dev.changes_peerDepthRefresh (d : Dev) (die : Nat) : d.Changes [.tm] [] (d.peerDepthRefresh die) :=
  (d.changes_tm _).trans (Dev.changes_satSweep _)

-- Samples (R116) -----------------------------------------------------------------------------------------------------------------------

theorem exec_samplingTick (x : DieSample) (s : State) :
    exec (.samplingTick x) s = .next (s.after fun d => d.samplingTick x.die.val x.parity) := rfl

/-- What is listed last at a key of a list of entries is there; entries with one key hold one value. -/
theorem smFind_foldl_smInsert {α β : Type} {key : β → Nat} {val : β → α} {xs : List β} {x : β} (hx : x ∈ xs)
    (h : ∀ y ∈ xs, key y = key x → val y = val x) (m : SMap α) :
    smFind (xs.foldl (fun m y => smInsert m (key y) (val y)) m) (key x) = some (val x) := by
  obtain ⟨before, after, rfl⟩ := List.append_of_mem hx
  rw [List.foldl_append, List.foldl_cons]
  refine List.foldlRecOn (motive := fun m => smFind m (key x) = some (val x)) after _ (smFind_smInsert_same _ _ _) fun m hm y hy => ?_
  by_cases hkey : key y = key x
  · rw [hkey, h y (List.mem_append_right _ (List.mem_cons_of_mem _ hy)) hkey]
    exact smFind_smInsert_same _ _ _
  · rw [smFind_smInsert_ne _ _ (Ne.symm hkey)]
    exact hm

/-- The queue groups of the ports of a die. -/
def Dev.groups (d : Dev) (die : Nat) : List (Nat × Nat) :=
  ((d.cfg.ports.map Prod.fst).filter fun p => laneDie p == die).flatMap fun p => (List.range 8).map fun c => (p, c)

theorem Dev.mem_groups {d : Dev} {die : Nat} {g : Nat × Nat} :
    g ∈ d.groups die ↔ (g.1 ∈ d.cfg.ports.map Prod.fst ∧ laneDie g.1 = die) ∧ g.2 < 8 := by
  obtain ⟨p, c⟩ := g
  simp [Dev.groups]

/-- What a die samples of a queue group. -/
def Dev.sampleOf (d : Dev) (die : Nat) (g : Nat × Nat) : Sample := ⟨d.hallNs die, d.depth die g.1 g.2, d.headDelay g.1 g.2⟩

/-- The device with an entry written into every ring of a die. -/
def Dev.sampled (d : Dev) (die : Nat) : Dev :=
  { d with tm := { d.tm with samples := (d.groups die).foldl (fun m g =>
    smInsert m (sampKey g.1 g.2 (d.rd F.TM_QSEL_next die 0)) (d.sampleOf die g)) d.tm.samples } }

theorem Dev.samplingTick_of_open {d : Dev} {die : Nat} (hopen : d.on F.TM_SAMP_CTRL_freeze die 0 = false) (hshed : d.shed = 0)
    (hruns : d.dieRuns die = true) :
    d.samplingTick die [] = (d.sampled die).wr F.TM_QSEL_next die 0 (d.rd F.TM_QSEL_next die 0 + 1) := by
  unfold Dev.samplingTick
  simp only [hruns, Dev.each, List.foldl_nil, hopen, hshed, Dev.sampled, Dev.groups, List.foldl_flatMap, List.foldl_map]
  rfl

theorem Dev.changes_sampled (d : Dev) (die : Nat) : d.Changes [.tm] [] (d.sampled die) := d.changes_tm _

theorem Dev.mem_ports_of_isPort {d : Dev} {p : Nat} (h : d.isPort p = true) : p ∈ d.cfg.ports.map Prod.fst := by
  obtain ⟨v, hv⟩ := Option.isSome_iff_exists.1 h
  exact List.mem_map_of_mem (mem_of_smFind hv)

theorem Dev.smFind_sampled {d : Dev} {die : Nat} {g : Nat × Nat} (h : g ∈ d.groups die) :
    smFind (d.sampled die).tm.samples (sampKey g.1 g.2 (d.rd F.TM_QSEL_next die 0)) = some (d.sampleOf die g) := by
  refine smFind_foldl_smInsert (key := fun g : Nat × Nat => sampKey g.1 g.2 (d.rd F.TM_QSEL_next die 0)) (val := d.sampleOf die) h
    (fun y hy hkey => ?_) _
  have hy2 := (Dev.mem_groups.1 hy).2
  have hg2 := (Dev.mem_groups.1 h).2
  have heq : y = g := by
    simp only [sampKey, pcKey] at hkey
    exact Prod.ext (by omega) (by omega)
  rw [heq]

/-- The device with a ring entry that showed a parity error cleared. -/
def Dev.ringCleared (d : Dev) (r : RingEntry) : Dev :=
  { d with tm := { d.tm with samples := smErase d.tm.samples (sampKey r.port.val r.cls.val r.entry.val) } }

theorem Dev.samplingTick_of_frozen {d : Dev} {die : Nat} {r : RingEntry} (hfreeze : d.on F.TM_SAMP_CTRL_freeze die 0 = true)
    (hruns : d.dieRuns die = true) (hport : laneDie r.port.val = die) :
    d.samplingTick die [r] = (d.ringCleared r).logErr .TM die 4 (wmk [(9, 0, r.port.val)]) := by
  have hparity : d.ringParity die r = (d.ringCleared r).logErr .TM die 4 (wmk [(9, 0, r.port.val)]) := if_neg (not_not_intro hport)
  have hstill : ((d.ringCleared r).logErr .TM die 4 (wmk [(9, 0, r.port.val)])).on F.TM_SAMP_CTRL_freeze die 0 = true :=
    ((d.ringCleared r).changes_logErr ..).on (by decide) die 0 |>.trans hfreeze
  unfold Dev.samplingTick
  simp only [hruns, Dev.each, List.foldl_cons, List.foldl_nil, hparity, hstill]
  rfl

-- Saturation (R117) --------------------------------------------------------------------------------------------------------------------

theorem exec_saturationDwell (port : LaneId) (cls : ClassId) (s : State) :
    exec (.saturationDwell port cls) s = .next (s.after fun d => d.saturationDwell port.val cls.val) := rfl

/-- The device with a queue group latched as saturated. -/
def Dev.satLatched (d : Dev) (port cls : Nat) : Dev :=
  { d with tm := { d.tm with satLatch := smInsert d.tm.satLatch (pcKey port cls) true } }

/-- The device with a queue group named as the last that saturated. -/
def Dev.satShown (d : Dev) (port cls : Nat) : Dev :=
  ((d.wr F.TM_SAT_STAT_event (laneDie port) 0 1).wr F.TM_SAT_STAT_port (laneDie port) 0 (port % 512)).wr F.TM_SAT_STAT_class
    (laneDie port) 0 cls

theorem Dev.changes_satShown (d : Dev) (port cls : Nat) : d.Changes [.regs] [.TM_SAT_STAT] (d.satShown port cls) :=
  ((d.changes_wr F.TM_SAT_STAT_event ..).andThen (Dev.changes_wr _ F.TM_SAT_STAT_port ..)).andThen
    (Dev.changes_wr _ F.TM_SAT_STAT_class ..)

theorem Dev.rd_satShown (d : Dev) (port : LaneId) (cls : ClassId) :
    (d.satShown port.val cls.val).rd F.TM_SAT_STAT_event (laneDie port.val) 0 = 1 ∧
    (d.satShown port.val cls.val).rd F.TM_SAT_STAT_port (laneDie port.val) 0 = port.val % 512 ∧
    (d.satShown port.val cls.val).rd F.TM_SAT_STAT_class (laneDie port.val) 0 = cls.val := by
  have hother := fun {e : Dev} {f g : Fld} {v : Nat} => e.rd_wr_disj (f := f) (g := g) v (laneDie_lt port) (laneDie_lt port)
    (i := 0) (i' := 0) (by decide) (by decide)
  refine ⟨?_, ?_, ?_⟩
  · refine (hother (by decide) (by decide)).trans ((hother (by decide) (by decide)).trans ?_)
    exact Dev.rd_wr_same _ _ _ _ _ (by decide)
  · refine (hother (by decide) (by decide)).trans ((Dev.rd_wr_same _ _ _ _ _ (by decide)).trans ?_)
    exact Nat.mod_eq_of_lt (Nat.mod_lt _ (by decide))
  · exact (Dev.rd_wr_same _ _ _ _ _ (by decide)).trans (Nat.mod_eq_of_lt cls.isLt)

theorem Dev.saturationDwell_of_full {d : Dev} {port cls : Nat} (hport : d.isPort port = true)
    (hdwell : d.rd F.TM_SAT_CFG_dwell (laneDie port) 0 ≠ 0) (hthr : d.rd F.TM_Q_CFG_sat_thr (laneDie port) (pcKey (port % 512) cls) ≠ 0)
    (hdepth : d.rd F.TM_Q_CFG_sat_thr (laneDie port) (pcKey (port % 512) cls) ≤ d.depth (laneDie port) port cls)
    (hlatch : smGet d.tm.satLatch (pcKey port cls) false = false) : d.saturationDwell port cls =
      ((d.satLatched port cls).satShown port cls).event .TM (laneDie port) 5 (wmk [(63, 54, port), (53, 51, cls)])
        (wmk [(63, 45, d.depth (laneDie port) port cls)]) := by
  unfold Dev.saturationDwell
  simp only [hport, hdwell, hthr, Nat.not_lt.mpr hdepth, hlatch, decide_false, Bool.not_true, Bool.or_self, Bool.false_eq_true, if_false]
  rfl

-- The commands -------------------------------------------------------------------------------------------------------------------------

theorem reserveBucketRefill_fills {s : State} {port : LaneId} (hport : s.dev.isPort port.val = true) :
    ∃ t, exec (.reserveBucketRefill port) s = .next t ∧ t.dev.tm = { s.dev.tm with
        reserve := smInsert s.dev.tm.reserve port.val (Nat.min 4132 (s.dev.reserveOf port.val + 128 * s.dev.portWidth port.val)) } ∧
      KeepsBut [.tm, .quiesced] s t := by
  rw [exec_reserveBucketRefill, State.after_eq (f := fun d => d.reserveRefill port.val) (Dev.reserveRefill_of_port hport)]
  exact ⟨_, rfl, rfl, (s.dev.changes_tm _).keepsBut_of_subset⟩

theorem bulkCapRefill_fills {s : State} {port : LaneId} {n : Int} (hcap : smFind s.dev.tm.bulkTokens port.val = some n) :
    ∃ t, exec (.bulkCapRefill port) s = .next t ∧ t.dev.tm = { s.dev.tm with
        bulkTokens := smInsert s.dev.tm.bulkTokens port.val (min 4132 (n + 3200 * s.dev.portWidth port.val)) } ∧
      KeepsBut [.tm, .quiesced] s t := by
  rw [exec_bulkCapRefill, State.after_eq (Dev.bulkRefill_of_capped hcap)]
  exact ⟨_, rfl, rfl, (s.dev.changes_tm _).keepsBut_of_subset⟩

theorem samplingTick_samples {s : State} {die : DieId} (hopen : s.dev.on F.TM_SAMP_CTRL_freeze die.val 0 = false)
    (hshed : s.dev.shed = 0) (hruns : s.dev.dieRuns die.val = true) :
    ∃ t, exec (.samplingTick ⟨die, []⟩) s = .next t ∧
      t.dev.rd F.TM_QSEL_next die.val 0 = (s.dev.rd F.TM_QSEL_next die.val 0 + 1) % 64 ∧
      (∀ (port : LaneId) (cls : ClassId), s.dev.isPort port.val = true → laneDie port.val = die.val →
        smFind t.dev.tm.samples (sampKey port.val cls.val (s.dev.rd F.TM_QSEL_next die.val 0)) =
          some (s.dev.sampleOf die.val (port.val, cls.val))) ∧
      RegsKeptBut [.TM_QSEL] s t ∧ KeepsBut [.regs, .tm, .quiesced] s t := by
  have hall : s.dev.Changes [.regs, .tm] [.TM_QSEL] _ := (s.dev.changes_sampled die.val).weaken.andThen
    (Dev.changes_wr _ F.TM_QSEL_next die.val 0 (s.dev.rd F.TM_QSEL_next die.val 0 + 1))
  rw [exec_samplingTick, State.after_eq (f := fun d => d.samplingTick die.val []) (Dev.samplingTick_of_open hopen hshed hruns)]
  refine ⟨_, rfl, ?_, fun port cls hport hdie => ?_, hall.regsKeptBut, hall.keepsBut_of_subset⟩
  · rw [State.rd_after]
    exact Dev.rd_wr_same _ _ _ _ _ (by decide)
  · have hgroup : (port.val, cls.val) ∈ s.dev.groups die.val :=
      Dev.mem_groups.2 ⟨⟨Dev.mem_ports_of_isPort hport, hdie⟩, cls.isLt⟩
    simp only [State.after_dev, Dev.requiesce_keeps, Dev.wr_keeps, Dev.smFind_sampled hgroup]

theorem samplingTick_clears {s : State} {die : DieId} {r : RingEntry} (hfreeze : s.dev.on F.TM_SAMP_CTRL_freeze die.val 0 = true)
    (hruns : s.dev.dieRuns die.val = true) (hport : laneDie r.port.val = die.val) :
    ∃ t, exec (.samplingTick ⟨die, [r]⟩) s = .next t ∧ t.dev.tm = (s.dev.ringCleared r).tm ∧ Logged .TM die.val 4 s t ∧
      RegsKeptBut loggingRegs s t ∧ KeepsBut [.regs, .tm, .ev, .quiesced] s t := by
  have hlog := (s.dev.ringCleared r).changes_logErr .TM die.val 4 (wmk [(9, 0, r.port.val)])
  have hall : s.dev.Changes [.regs, .tm, .ev] loggingRegs _ := (s.dev.changes_tm _).weaken.andThen hlog
  have hlogged := logged_after_logErr (s := s) (f := fun _ => s.dev.ringCleared r) .TM die.val (code := 4) (by decide)
    (wmk [(9, 0, r.port.val)]) rfl
  rw [exec_samplingTick, State.after_eq (f := fun d => d.samplingTick die.val [r]) (Dev.samplingTick_of_frozen hfreeze hruns hport)]
  exact ⟨_, rfl, hlog.parts .tm (by decide), hlogged, hall.regsKeptBut, hall.keepsBut_of_subset⟩

theorem saturationDwell_latches {s : State} {port : LaneId} {cls : ClassId} (hport : s.dev.isPort port.val = true)
    (hdwell : s.dev.rd F.TM_SAT_CFG_dwell (laneDie port.val) 0 ≠ 0)
    (hthr : s.dev.rd F.TM_Q_CFG_sat_thr (laneDie port.val) (pcKey (port.val % 512) cls.val) ≠ 0)
    (hdepth : s.dev.rd F.TM_Q_CFG_sat_thr (laneDie port.val) (pcKey (port.val % 512) cls.val) ≤
      s.dev.depth (laneDie port.val) port.val cls.val)
    (hlatch : smGet s.dev.tm.satLatch (pcKey port.val cls.val) false = false) :
    ∃ t, exec (.saturationDwell port cls) s = .next t ∧ smGet t.dev.tm.satLatch (pcKey port.val cls.val) false = true ∧
      t.dev.rd F.TM_SAT_STAT_event (laneDie port.val) 0 = 1 ∧ t.dev.rd F.TM_SAT_STAT_port (laneDie port.val) 0 = port.val % 512 ∧
      t.dev.rd F.TM_SAT_STAT_class (laneDie port.val) 0 = cls.val ∧ KeepsBut [.regs, .tm, .ev, .quiesced] s t := by
  have hshown := (s.dev.satLatched port.val cls.val).changes_satShown port.val cls.val
  have hraised := ((s.dev.satLatched port.val cls.val).satShown port.val cls.val).changes_event .TM (laneDie port.val) 5
    (wmk [(63, 54, port.val), (53, 51, cls.val)]) (wmk [(63, 45, s.dev.depth (laneDie port.val) port.val cls.val)])
  have hall : s.dev.Changes [.regs, .tm, .ev] (.TM_SAT_STAT :: lossRegs) _ :=
    ((s.dev.changes_tm _).weaken.andThen hshown).andThen hraised
  have htm := (hraised.parts .tm (by decide)).trans (hshown.parts .tm (by decide))
  obtain ⟨hevent, hname, hclass⟩ := (s.dev.satLatched port.val cls.val).rd_satShown port cls
  rw [exec_saturationDwell, State.after_eq (Dev.saturationDwell_of_full hport hdwell hthr hdepth hlatch)]
  refine ⟨_, rfl, ?_, (hraised.rd (by decide) _ _).trans hevent, (hraised.rd (by decide) _ _).trans hname,
    (hraised.rd (by decide) _ _).trans hclass, hall.keepsBut_of_subset⟩
  exact (congrArg (fun m : TmState => smGet m.satLatch (pcKey port.val cls.val) false) htm).trans (smGet_smInsert_same _ _ _ _)

theorem shaperRefill_fills (s : State) (die : DieId) : ∃ t, exec (.shaperRefill die) s = .next t ∧
    (∀ k ∈ t.dev.tm.shaperDirty, laneDie (k / 8) ≠ die.val) ∧
    (∀ k h, smFind s.dev.tm.shapers k = some h → laneDie (k / 8) = die.val → k ∉ s.dev.tm.shaperDirty →
      smFind t.dev.tm.shapers k = some h.refilled) ∧
    (∀ k ∈ s.dev.tm.shaperDirty, laneDie (k / 8) = die.val →
      smFind t.dev.tm.shapers k = some (s.dev.shaperTaken k).refilled) ∧
    (∀ k, laneDie (k / 8) ≠ die.val → smFind t.dev.tm.shapers k = smFind s.dev.tm.shapers k) ∧
    s.dev.SameBesideShapers t.dev ∧ KeepsBut [.tm, .quiesced] s t := by
  refine ⟨_, exec_shaperRefill die s, fun k => Dev.unchanged_of_shaperRefill, fun k h hfind hdie hk => ?_, fun k hk hdie => ?_,
    fun k hdie => ?_, s.dev.sameBesideShapers_shaperRefill die.val, (s.dev.changes_shaperRefill die.val).keepsBut_of_subset⟩
  · rw [← Dev.shaperTaken_of_unchanged hfind hk]
    exact (Dev.shaperRefill_of_mem (Dev.mem_shaperKeys.2 ⟨.inl (List.mem_map_of_mem (mem_of_smFind hfind)), hdie⟩)).1
  · exact (Dev.shaperRefill_of_mem (Dev.mem_shaperKeys.2 ⟨.inr hk, hdie⟩)).1
  · exact (Dev.shaperRefill_of_not_mem fun h => hdie (Dev.mem_shaperKeys.1 h).2).shaper

/-- Settles O7: each refill is one entry of the traffic manager's tables, a shaper's boundary touches its own key alone, a sample is
written once at each ring's key, and a parity error or a saturation is that entry and its record. -/
theorem trafficRefills : Obligations.TrafficRefills := by
  refine ⟨⟨fun s port hport => reserveBucketRefill_fills hport, fun s port n hcap => bulkCapRefill_fills hcap⟩,
    fun s die => ?_, fun s die => ?_, fun s die hopen hshed hruns => samplingTick_samples hopen hshed hruns,
    fun s die r hfreeze hruns hport => samplingTick_clears hfreeze hruns hport,
    fun s port cls hport hdwell hthr hdepth hlatch => saturationDwell_latches hport hdwell hthr hdepth hlatch⟩
  · obtain ⟨t, hexec, hclean, hkept, hchanged, hother, hrest, hkeeps⟩ := shaperRefill_fills s die
    refine ⟨t, hexec, hclean, hkept, fun k hk hdie => ?_, hother, hrest, hkeeps⟩
    rw [hchanged k hk hdie, Dev.shaperTaken_of_changed hk, Shaper.refilled_rewritten]
  · exact ⟨_, exec_peerDepthRefresh die s, rfl, (s.dev.changes_peerDepthRefresh die.val).keepsBut_of_subset⟩

end Sys2Proof.Machine
end
